-- ==== Sys2Proof/Word.lean ====
section
/-! DEFINITION. The word types of Mahorn and their plainest arithmetic, and the sparse tables in which
the state keeps numbered things (00 R14: every multi-byte field is little-endian). -/
namespace Sys2Proof

/-- A byte of device or host memory. -/
abbrev Byte := BitVec 8

/-- A 64-bit word of a ring entry, a command body or a register. -/
abbrev Word := BitVec 64

/-- A command as it stands in a ring or a graph node: its 8-byte words in order (03 R82). -/
abbrev Cmd := List Word

/-- `v` limited to the range from `lo` to `hi`. -/
def clampNat (lo hi v : Nat) : Nat := if v < lo then lo else if hi < v then hi else v

/-- A count that saturates at the largest value of `w` bits. -/
def satInc (w n : Nat) : Nat := if n + 1 < 2 ^ w then n + 1 else 2 ^ w - 1

/-- `a / b` rounded up. -/
def ceilDiv (a b : Nat) : Nat := if b = 0 then 0 else (a + b - 1) / b

/-- `a` rounded up to a multiple of `b`. -/
def roundUp (a b : Nat) : Nat := ceilDiv a b * b

/-- Bits `[lo + w - 1 : lo]` of a number. -/
def bitsOf (v lo w : Nat) : Nat := v / 2 ^ lo % 2 ^ w

/-- Bit `i` of a number. -/
def bitOf (v i : Nat) : Bool := v / 2 ^ i % 2 == 1

/-- One bit as a number. -/
def natOfBool (b : Bool) : Nat := if b then 1 else 0

/-- The number that `n` bytes spell, lowest byte first. -/
def leNat : List Byte → Nat
  | [] => 0
  | b :: bs => b.toNat + 256 * leNat bs

/-- The lowest `n` bytes of a number, lowest byte first. -/
def leBytes : Nat → Nat → List Byte
  | 0, _ => []
  | n + 1, v => BitVec.ofNat 8 v :: leBytes n (v / 256)

/-- The bytes of words, each lowest byte first. -/
def wordBytes (ws : List Word) : List Byte := ws.flatMap fun w => leBytes 8 w.toNat

/-- The 8-byte words that a list of bytes spells; a short last word is filled with zeros. -/
def bytesWords : Nat → List Byte → List Word
  | 0, _ => []
  | n + 1, bs => BitVec.ofNat 64 (leNat (bs.take 8)) :: bytesWords n (bs.drop 8)

/-! ### Sparse tables -/

/-- A table of numbered things: pairs of a number and its thing, numbers strictly rising. -/
abbrev Tbl (α : Type) := List (Nat × α)

/-- The entry of a number, if the table holds one. -/
def Tbl.get? {α : Type} : Tbl α → Nat → Option α
  | [], _ => none
  | (k, v) :: t, n => if k = n then some v else Tbl.get? t n

/-- The entry of a number, or `d` where the table holds none. -/
def Tbl.getD {α : Type} (t : Tbl α) (n : Nat) (d : α) : α := (Tbl.get? t n).getD d

/-- Put an entry at its place. -/
def Tbl.set {α : Type} : Tbl α → Nat → α → Tbl α
  | [], n, v => [(n, v)]
  | (k, u) :: t, n, v =>
    if n < k then (n, v) :: (k, u) :: t
    else if k = n then (n, v) :: t
    else (k, u) :: Tbl.set t n v

/-- Remove an entry. -/
def Tbl.erase {α : Type} (t : Tbl α) (n : Nat) : Tbl α := t.filter fun e => e.1 != n

/-- Change an entry that is there. -/
def Tbl.adjust {α : Type} (t : Tbl α) (n : Nat) (f : α → α) : Tbl α :=
  t.map fun e => if e.1 = n then (e.1, f e.2) else e

/-- Change every entry. -/
def Tbl.mapV {α : Type} (t : Tbl α) (f : Nat → α → α) : Tbl α := t.map fun e => (e.1, f e.1 e.2)

/-- Does the table hold the number? -/
def Tbl.has {α : Type} (t : Tbl α) (n : Nat) : Bool := (Tbl.get? t n).isSome

/-- The numbers held, rising. -/
def Tbl.keys {α : Type} (t : Tbl α) : List Nat := t.map fun e => e.1

/-- The key of local thing `n` of partition `p`: rising with `p`, then with `n`. -/
def pkey (p n : Nat) : Nat := p * 2 ^ 20 + n

/-- The partition of a key. -/
def keyPart (k : Nat) : Nat := k / 2 ^ 20

/-- The local number of a key. -/
def keyLocal (k : Nat) : Nat := k % 2 ^ 20

/-- Put `x` into a list ordered by `le`, behind its equals. -/
def insertBy {α : Type} (le : α → α → Bool) (x : α) : List α → List α
  | [] => [x]
  | y :: ys => if le y x then y :: insertBy le x ys else x :: y :: ys

/-- Order a list by `le`, keeping the order of equals. -/
def sortBy {α : Type} (le : α → α → Bool) : List α → List α
  | [] => []
  | x :: xs => insertFront le x (sortBy le xs)
where
  /-- Put `x` before its equals. -/
  insertFront (le : α → α → Bool) (x : α) : List α → List α
    | [] => [x]
    | y :: ys => if le x y then x :: y :: ys else y :: insertFront le x ys

/-- The members without repeats, in order of first appearance. -/
def dedupNat : List Nat → List Nat
  | [] => []
  | x :: xs => x :: (dedupNat xs).filter fun y => y != x

/-- The sum of a list of numbers. -/
def sumNat (l : List Nat) : Nat := l.foldl (· + ·) 0

/-- The greatest of a list of numbers, 0 of none. -/
def maxNat (l : List Nat) : Nat := l.foldl Nat.max 0

/-- The least member of a list by a key, the first among equals. -/
def minBy {α : Type} (f : α → Nat) : List α → Option α
  | [] => none
  | x :: xs =>
    match minBy f xs with
    | none => some x
    | some y => if f x ≤ f y then some x else some y

/-- Are the two lists of numbers in rising lexicographic order, or equal? -/
def lexLe : List Nat → List Nat → Bool
  | [], _ => true
  | _ :: _, [] => false
  | a :: as, b :: bs => if a < b then true else if b < a then false else lexLe as bs

/-- One step of CRC-32 with the IEEE 802.3 polynomial (01 R36), for one bit. -/
def crcBit (c : BitVec 32) : BitVec 32 :=
  if c.getLsbD 0 then (c >>> 1) ^^^ 0xEDB88320#32 else c >>> 1

/-- One byte of CRC-32. -/
def crcByte (c : BitVec 32) (b : Byte) : BitVec 32 :=
  crcBit (crcBit (crcBit (crcBit (crcBit (crcBit (crcBit (crcBit (c ^^^ b.setWidth 32))))))))

/-- CRC-32 with the IEEE 802.3 polynomial over bytes. -/
def crc32 (bs : List Byte) : BitVec 32 := ~~~ (bs.foldl crcByte 0xFFFFFFFF#32)

end Sys2Proof
end

