-- ==== Sys2Proof/Syntax.lean ====
section
/-! DEFINITION. The commands that Mahorn takes, one constructor for each row of spec/opcode_table.json,
with the operands that the rules of spec/ give them, and the small records that those operands need.
The table gives its rows neither bits nor operands, so operands are taken from each row's rules. -/
namespace Sys2Proof

/-- How an access of host or device memory failed (02 R55, 11 R329). -/
inductive IoFail where
  /-- The host's translation says not present: CS_PAGE_FAULT. -/
  | pageFault
  /-- The host refuses the translation: CS_ACCESS. -/
  | access
  /-- A host read timed out or was unsupported: CS_ACCESS 0x02E3. -/
  | timedOut
  /-- A host read came back poisoned: CS_MEM_DETECTED 0x02E2. -/
  | poisoned
  /-- The memory system reports an uncorrected error in data: CS_MEM_DETECTED 0x02E0. -/
  | memDetected
  /-- The memory system reports an uncorrected error in Mahorn's own state: CS_MEM_DETECTED 0x02E1. -/
  | ownState
deriving DecidableEq, Repr

/-- What a memory access that Mahorn waits for came back with.
Mark: DESIGN CHOICE (notes/assumptions/7, 54.md). -/
inductive Io where
  /-- It succeeded; the words are those a host read returned, and are not looked at for device memory. -/
  | ok (host : List Word)
  /-- It failed at an address. -/
  | fail (why : IoFail) (addr : Nat)
deriving DecidableEq, Repr

/-- A failed write of a command's output, where there was one: why, and at which address. -/
abbrev Lost := Option (IoFail × Nat)

/-- Where a command stands (04 R107): in a ring of a partition, or as a node of a launch. -/
inductive Site where
  /-- Local ring `r` of partition `p`. -/
  | ring (p r : Nat)
  /-- Node `i` of launch `l`. -/
  | node (l i : Nat)
deriving DecidableEq, Repr

/-- A control flit as it arrives on PP3 (01 R36): 48 bytes, the payload as three words.
Mark: DESIGN CHOICE (notes/assumptions/7.md). -/
structure Flit where
  kind : Nat
  hops : Nat
  src : Nat
  dst : Nat
  seq : Nat
  eff : Nat
  w0 : Word
  w1 : Word
  w2 : Word
  inc : Nat
  crc : BitVec 32
deriving DecidableEq, Repr

/-- Who reads or writes a register (02 R52, 12 R352, 15 R439). -/
inductive Agent where
  /-- The host or a tenant through the window of partition `p` (VF `p + 1`). -/
  | vf (p : Nat)
  /-- The physical function: partition windows by alias, and the management window. -/
  | pf
  /-- Firmware processor `n`. -/
  | proc (n : Nat)
  /-- The debug port's MGMT_ACCESS. -/
  | jtag
deriving DecidableEq, Repr

/-- A register access: who, the byte address in BAR0 of that agent's function, how many bytes, the
data of a write, and the bytes within the access whose byte enables are clear (00 R443).
Mark: DESIGN CHOICE (notes/assumptions/7.md). -/
structure RegAcc where
  who : Agent
  addr : Nat
  bytes : Nat
  data : Nat
  skip : List Nat := []
deriving DecidableEq, Repr

/-- What an engine endpoint reports at the end of a segment (00 R2; 04 R121-R123; 11 R329; 15 R421-R424).
Kernel results are the engine's: `writes` are the bytes it stored, by device address.
Mark: DESIGN CHOICE (notes/assumptions/7.md). -/
structure SegReport where
  /-- Items finished. -/
  items : Nat
  /-- Status code of 07 R213, 0 where all went well. -/
  code : Nat
  /-- DETAIL that goes with the status. -/
  detail : Nat
  /-- Address that goes with the status. -/
  addr : Nat
  /-- The endpoint's own stamp; none where its clock was stopped (01 R44). -/
  stamp : Option Nat
  /-- A fence signal carried in a NODE_DONE: local fence and value (01 R20). -/
  signal : Option (Nat × Nat)
  /-- Bytes stored by the kernel. -/
  writes : List (Nat × Byte)
  /-- Operations by counter ID (15 R420). -/
  ops : List (Nat × Nat)
  /-- The duration pair: nanoseconds and cycles (01 R45). -/
  ns : Nat
  cycles : Nat
  /-- A fatal error of the endpoint itself (11 R332); `detail` is then its own error code. -/
  fatal : Bool
  /-- The partition of the work where Mahorn sent no DISPATCH for it: TX, NX and CX (15 R422). -/
  part : Option Nat
deriving DecidableEq, Repr

/-- A TRACE message (15 R428): source, event, FTC mod 64, DEFERRED, the partition of the work where there
is one, and DATA as three 32-bit words. -/
structure TraceMsg where
  src : Nat
  event : Nat
  offset : Nat
  deferred : Bool
  part : Option Nat
  d0 : Nat
  d1 : Nat
  d2 : Nat
deriving DecidableEq, Repr

/-- A microword parity error met while a routine runs (13 R381): the sequencer, the address of the
microword or dispatch entry, and which of the two it was. -/
structure Parity where
  seqr : Nat
  addr : Nat
  dispatch : Bool
deriving DecidableEq, Repr

/-- A link that goes down, and the flits that it had not had acknowledged: source, destination and SEQ of each (01 R35).
Mark: DEDUCED (notes/assumptions/140.md). -/
structure DeadLink where
  link : Nat
  unacked : List (Nat × Nat × Nat)
deriving DecidableEq, Repr

/-- Where a PTP event message came from: the network engine that took it, and the message's domain (01 R48). -/
structure PtpSource where
  nx : Nat
  domain : Nat
deriving DecidableEq, Repr

/-- The rest of an exchange segment's header (09 R298): DIR, LAST, ROWS, the segment number and STATUS. -/
structure SegMark where
  dir : Nat
  last : Bool
  rows : Nat
  no : Nat
  status : Nat
deriving DecidableEq, Repr

/-- An error of the memory system that no access of a command reports (11 R329).
Mark: DESIGN CHOICE (notes/assumptions/7.md). -/
inductive MemErr where
  /-- So many corrected errors. -/
  | corrected (n : Nat)
  /-- An uncorrected error in the record of fence `f` of partition `p`. -/
  | fence (p f : Nat)
  /-- An uncorrected error in the overflow-list entry of a fence. -/
  | listed (p f : Nat)
  /-- An uncorrected error in the line at place `n` of the hot-row cache. -/
  | cacheLine (n : Nat)
  /-- Reads of a sector of a table's row map meet an uncorrected error in the tick that begins. -/
  | mapSector (p t sector : Nat)
  /-- Reads of index elements in the sector at an address meet an uncorrected error in the tick that begins. -/
  | idxSector (addr : Nat)
deriving DecidableEq, Repr

/-- One command to Mahorn: one constructor for each row of spec/opcode_table.json.
Mark: DESIGN CHOICE (notes/assumptions/7.md). -/
inductive Instr where
  -- the tick and Hedgerow (01)
  | tickBoundary (unanswered : List (Nat × Nat × Nat)) (errs : List MemErr)
  | dispatchMessage (ep stamp : Nat)
  | segmentDone (ep : Nat) (r : SegReport)
  | nodeDone (ep : Nat) (r : SegReport)
  | fenceSignalMessage (p f v : Nat)
  | abortMessage (ep : Nat)
  | stopMessage (ep : Nat)
  | freezeReport (ep : Nat) (words : List Word)
  | traceMessage (m : TraceMsg)
  -- fabric time (01)
  | timeExchange
  | timeReq (f : Flit) (t2 t3 : Nat)
  | timeResp (f : Flit) (t4 : Nat) (asym : Int)
  | timeAnnounce (f : Flit) (neighbour : Nat)
  | ftAlignTimeout
  | linkDown (link : DeadLink)
  | linkEcho (f : Flit)
  | refusal (f : Flit)
  | fenceSignalFlit (f : Flit)
  | fenceFailFlit (f : Flit)
  | fenceRefresh
  | calendarSecond
  | calTimeWrite (v : Word)
  | calCaptureRead (who : Agent)
  | ptpEvent (nx : PtpSource) (ftc : Nat) (sec sub : Nat) (utc : Nat) (nsErr : Int)
  -- rings, contexts and partitions from the host (02, 03)
  | ringPiWrite (p r pi : Nat)
  | ringDoorbell (p r : Nat)
  | ringEnable (p r : Nat)
  | ringDisable (p r : Nat)
  | ringResume (p r : Nat)
  | ctxFaultClear (p c : Nat)
  | hostFenceSignal (p f : Nat) (bytes : Nat) (v : Nat)
  | hostFenceFail (p f : Nat)
  | partitionEnable (p : Nat)
  | partitionDisable (p : Nat)
  | vfEnable (p : Nat)
  | vfDisable (p : Nat)
  | vfFlr (p : Nat)
  | shearsTeardown (p : Nat)
  | teardownEscalate (p : Nat)
  | teardownDone (p : Nat)
  | registerWrite (a : RegAcc)
  | rcRead (a : RegAcc)
  | lowWordRead (a : RegAcc)
  | msixUnmask (p : Nat) (v : Option Nat)
  | atsInvalidation (p c page : Nat)
  | atsInvalidationAnswer (p c page : Nat)
  | contextLoadStart (p c : Nat)
  | contextLoadDone (p c : Nat)
  | contextLost (p c : Nat)
  | entryArrival (p r : Nat) (io : Io)
  | fetchFault (p r : Nat) (why : IoFail)
  | entryStart (p r : Nat) (parity : Option Parity)
  | routineResume (w : Nat) (io : Io) (parity : Option Parity)
  | nodeRelease (l i : Nat) (parity : Option Parity)
  | ringTimeout (p r seq : Nat)
  -- the command set (04)
  | nop (at_ : Site) (e : Cmd)
  | launch (at_ : Site) (e : Cmd)
  | dispatch (at_ : Site) (e : Cmd)
  | descriptorArrival (l i : Nat) (w : Nat) (io : Io)
  | gather (at_ : Site) (e : Cmd)
  | route (at_ : Site) (e : Cmd)
  | routeUnitGrant (w : Nat)
  | groupedMm (at_ : Site) (e : Cmd)
  | fenceWait (at_ : Site) (e : Cmd)
  | fenceSignal (at_ : Site) (e : Cmd)
  | writeValue (at_ : Site) (e : Cmd)
  | copy (at_ : Site) (e : Cmd)
  | timestamp (at_ : Site) (e : Cmd)
  | cond (at_ : Site) (e : Cmd)
  | loop (at_ : Site) (e : Cmd)
  | callGraph (at_ : Site) (e : Cmd)
  | feed (at_ : Site) (e : Cmd)
  | predicateReadReturn (w : Nat) (io : Io)
  | childReservation (w : Nat)
  -- admin commands (03, 05, 06, 07)
  | ctxCreate (p : Nat) (e : Cmd)
  | ctxDestroy (p : Nat) (e : Cmd)
  | ringCreate (p : Nat) (e : Cmd)
  | ringConfig (p : Nat) (e : Cmd)
  | ringDestroy (p : Nat) (e : Cmd)
  | ringQuery (p : Nat) (e : Cmd)
  | abort (p : Nat) (e : Cmd)
  | graphLoad (p : Nat) (e : Cmd)
  | graphPatch (p : Nat) (e : Cmd)
  | graphUnload (p : Nat) (e : Cmd)
  | graphQuery (p : Nat) (e : Cmd)
  | graphImageReadDone (io : Io)
  | fenceAlloc (p : Nat) (e : Cmd)
  | fenceFree (p : Nat) (e : Cmd)
  | fenceExport (p : Nat) (e : Cmd)
  | fenceImport (p : Nat) (e : Cmd)
  | fenceQuery (p : Nat) (e : Cmd)
  | overflowPoll
  | memAlloc (p : Nat) (e : Cmd)
  | memFree (p : Nat) (e : Cmd)
  | postingFailure (p r : Nat) (why : IoFail)
  | postingRetry (p r : Nat) (fails : Option Nat)
  -- embedding tables and epochs (08)
  | tableCreate (p : Nat) (e : Cmd)
  | tableLoadDone (p t : Nat) (io : Io)
  | tableStage (p : Nat) (e : Cmd)
  | tableStageDone (p t : Nat) (io : Io)
  | tableCommit (p : Nat) (e : Cmd)
  | tableDestroy (p : Nat) (e : Cmd)
  | tableQuery (p : Nat) (e : Cmd)
  | epochFlipWrite
  | carriedFillDone (io : Io)
  | previousEpochRetire
  | graceExpiry
  | catchupDone
  | epochFlitRequest (f : Flit)
  | epochFlitPrepare (f : Flit)
  | epochFlitReady (f : Flit)
  | epochFlitFlip (f : Flit)
  | epochFlitClear (f : Flit)
  | epochFlitRetire (f : Flit)
  | epochFlitCancel (f : Flit)
  | flipWaitExpiry
  | batchClose
  | reorderAdjust (eff : Nat)
  | hotrowInvalidate
  | xchgRequestSegment (chip xid part epoch key : Nat) (frames : List (List Word)) (mark : SegMark)
  | xchgReplySegment (chip xid rowBytes : Nat) (frames : List (List Word)) (mark : SegMark) (lost : Lost)
  | xchgCancel (f : Flit)
  | xchgOverdue (xid : Nat)
  -- experts (09)
  | expertLayerCreate (p : Nat) (e : Cmd)
  | expertLayerDestroy (p : Nat) (e : Cmd)
  | expertBiasSet (p : Nat) (e : Cmd)
  | expertLayerQuery (p : Nat) (e : Cmd)
  | biasPeriod
  | biasSnapshot
  -- the request service (10)
  | receiveDescriptor (nx slot bytes qpn rx arrival : Nat)
  | requestHeaderArrival (q : Nat) (io : Io)
  | requestDeadline (q : Nat)
  | sendComplete (nx q : Nat) (ok : Bool)
  | serviceStart (io : Io)
  | listenerOpen (l : Nat)
  | serviceActivate
  -- faults and the global stop (11)
  | segmentWatchdog (ep : Nat)
  | hangDeclare (ep : Nat) (words : List Word)
  | endpointFailed (ep : Nat) (words : List Word)
  | coreFenceWrite (core : Nat)
  | machineCheck (part detail : Nat)
  | globalStopRequest (a : RegAcc)
  | globalStopResume (a : RegAcc)
  | globalStopAbandon (a : RegAcc)
  | stopFlit (f : Flit)
  | resumeFlit (f : Flit)
  | abandonFlit (f : Flit)
  | snapshotDone
  | hangClear
  -- firmware processors (12)
  | processorCrash (n cause : Nat) (pc info : Nat)
  | processorRestart (n : Nat)
  | dutyReturn (d : Nat)
  | cccGateTimeout (n : Nat)
  | fwStage (ok : Bool)
  | fwActivate
  | fwSwitch (n : Nat)
  | fwAbort
  | fwCommitSvn
  | crashClear
  | flashWriteDone
  | mctpMessage (eid mtype : Nat) (body : List Word)
  | spdmRequest (eid code : Nat) (body : List Word)
  | pldmRequest (eid code : Nat) (body : List Word)
  | sensorUpdate (readings : List Nat)
  -- sequencers, arbiter and interrupts (13)
  | icClaim (n : Nat)
  | icComplete (n src : Nat)
  | icDoorbell (n bits : Nat)
  | icTimer (n t : Nat)
  | wdtWarn (n : Nat)
  | patchDataWrite (who : Agent) (v : Nat)
  | dispatchEntryWrite (who : Agent) (v : Nat)
  | patchLock (who : Agent)
  | transferRequest (input cycle sectors : Nat)
  -- reset and power (14)
  | powerOnReset (straps : Nat)
  | perstDeassert (straps : Nat)
  | mahornResetWrite (a : RegAcc)
  | moduleResetWrite (a : RegAcc) (straps : Nat)
  | pfFlr
  | pageClearDone
  | partitionBringup (failed : List Nat)
  | emergencyLevelChange (watts celsius : Nat)
  | hwTrip (thermal : Bool)
  | engineFreqChange (ep step : Nat)
  -- counters and trace (15)
  | partCntLatch (p : Nat)
  | gcntLatch
  | traceMark (v : Nat)
  | traceStart
  | traceStop
  | pcSample
  | mgmtAccess (a : RegAcc) (write : Bool)
  | modulePowerLoss
  | orderlyShutdown
  | backupCellLow
  | crystalStop
  | peerLinkUp (link chip lat : Nat)
  | hostLinkRetrain (gen : Nat)
  | msixMask (p : Nat) (v : Option Nat)
  | atsEnableChange (on : Bool)
  | flitRelay (f : Flit)
  | unknownKindFlit (f : Flit)
  | receiverNotReady (l : Nat)
  | fillDone (io : Io)
deriving DecidableEq, Repr

end Sys2Proof
end

