-- ==== Sys2Proof/Decode.lean ====
section
/-! DEFINITION. The command that a word of spec/opcode_table.json spells. The table gives no row any bits: commands reach
Mahorn as register accesses, messages, flits and pin events, so no word spells one. -/
namespace Sys2Proof

/-- The command that a word of `_nbits` bits spells: none, since the table gives its rows no bits.
Mark: DESIGN CHOICE (notes/assumptions/8.md). -/
def decodeTableWord (_nbits _w : Nat) : Option Instr := none

end Sys2Proof
end

