-- ==== Sys2Proof/Config.lean ====
section
/-! DEFINITION. What the spec leaves to the part and what it leaves open: fixed sizes of 00 R10, and the
free values, which are opaque: nothing in Lean can find out what they are (notes/assumptions/3.md). -/
namespace Sys2Proof.Config

/-! ### Free values: each is applied to the counter `free` of the state -/

/-- Which of several places, numbers or candidates an implementation takes (02 R51, 06 R196, 08 R237).
Mark: DESIGN CHOICE (notes/assumptions/3.md). -/
opaque pick : Nat → Nat

/-- A word whose value the spec does not state.
Mark: DESIGN CHOICE (notes/assumptions/3.md). -/
opaque word : Nat → BitVec 64

/-- A yes or no that the spec leaves open.
Mark: DESIGN CHOICE (notes/assumptions/3.md). -/
opaque flip : Nat → Bool

/-- SHA-384, as 12 R357 and R361 name it: the standard is not given in the spec.
Mark: DESIGN CHOICE (notes/assumptions/3, 94.md). -/
opaque sha384 : List (BitVec 8) → List (BitVec 8)

/-- Is a signature valid under a key over some bytes: ECDSA P-384 with SHA-384 (12 R357)?
Mark: DESIGN CHOICE (notes/assumptions/3, 94.md). -/
opaque signed : List (BitVec 8) → List (BitVec 8) → List (BitVec 8) → Bool

/-- Does the tag of an encrypted component come out right: AES-256-GCM under the key of the fuses (13 R382)?
Mark: DESIGN CHOICE (notes/assumptions/3, 94.md). -/
opaque genuine : List (BitVec 8) → Bool

/-- What an encrypted component decrypts to (13 R382).
Mark: DESIGN CHOICE (notes/assumptions/94.md). -/
opaque decrypted : List (BitVec 8) → List (BitVec 8)

/-- The boot ROM, which measurement 1 covers (12 R372): its contents are not in the spec. -/
opaque bootRom : List (BitVec 8)

/-- The certificate chain in slot 0 (12 R372): its contents are not in the spec.
Mark: PRESUMED (notes/assumptions/93.md). -/
opaque certChain : List (BitVec 8)

/-- A byte of host memory as Mahorn or an engine reads it: by context, tick and address. Host memory is not of this part
(02 R54).
Mark: DESIGN CHOICE (notes/assumptions/3, 147.md). -/
opaque hostByte : Nat → Nat → Nat → BitVec 8

/-- The chips that fabric bring-up finds. The spec does not say how a chip learns of them.
Mark: DESIGN CHOICE (notes/assumptions/12.md). -/
opaque fabricChips : List Nat

/-- The sign and payload of a NaN that comes out of arithmetic on the words given: not stated (08 R442 and
09 R278 say only that it is a NaN).
Mark: DESIGN CHOICE (notes/assumptions/3, 68.md). -/
opaque nan : Nat → Nat → Nat

/-- A product of two elements that fp32 does not hold exactly: 09 R289 states every product to be exact and
gives no result for one that is not.
Mark: DESIGN CHOICE (notes/assumptions/3, 69.md). -/
opaque product : Nat → Nat → Nat

/-- The counter of the admission sketch that a slot of a table uses (08 R242): the hash is not stated.
Mark: DESIGN CHOICE (notes/assumptions/3, 62.md). -/
opaque sketch : Nat → Nat → Nat

/-! ### Sizes (00 R10) -/

/-- Partitions of the chip. -/
def partitions : Nat := 128
/-- Hardware rings of the chip. -/
def hardRings : Nat := 16384
/-- Fetch slots of Quickset. -/
def fetchSlots : Nat := 64
/-- Context records. -/
def contexts : Nat := 4096
/-- Resident context slots. -/
def residentSlots : Nat := 256
/-- Context loads under way at once (02 R62). -/
def loadsAtOnce : Nat := 16
/-- Fence records. -/
def fenceRecords : Nat := 1048576
/-- Watch slots. -/
def watchSlots : Nat := 1024
/-- Espalier node slots. -/
def nodeSlots : Nat := 65536
/-- Topiary blocks of 1 KiB. -/
def blocks : Nat := 8192
/-- Live generations of a graph. -/
def liveGens : Nat := 4
/-- Sequencers. -/
def sequencers : Nat := 32
/-- Persistent task records (04 R120). -/
def taskRecords : Nat := 256
/-- Exports of a chip (06 R186). -/
def exports : Nat := 65536
/-- Exports of one fence (06 R186). -/
def exportsOfFence : Nat := 8
/-- Levels of child launches (04 R132). -/
def nesting : Nat := 8
/-- Node records of one LAUNCH (05 R171). -/
def nodeRecords : Nat := 16
/-- Error records that a held ring keeps (07 R216). -/
def heldRecords : Nat := 64
/-- Timed flits that the hold queue keeps (01 R40). -/
def holdFlits : Nat := 4096
/-- Ticks that a timed flit may lie ahead (01 R40, 04 R143). -/
def maxAhead : Nat := 65536
/-- Bytes of a memory page. -/
def pageBytes : Nat := 2097152
/-- Chip-wide table records (08 R228). -/
def tables : Nat := 4096
/-- Chip-wide expert layer records (09 R269). -/
def layers : Nat := 1024
/-- Routing units (09 R275). -/
def routeUnits : Nat := 4
/-- Sectors of the hot-row cache (08 R265). -/
def cacheSectors : Nat := 6291456
/-- Entries of a marshal batch (08 R235). -/
def batchEntries : Nat := 65536
/-- Pages of a full part's tier 0 and tier 1 (02 R68). -/
def pages0 : Nat := 228881
/-- Pages of a full part's tier 1. -/
def pages1 : Nat := 715255
/-- Device address of tier 1 (14 R412). -/
def tier1Base : Nat := 0x020000000000
/-- The reach of a 64-bit count. -/
def two64 : Nat := 18446744073709551616
/-- The greatest 32-bit count. -/
def max32 : Nat := 0xFFFFFFFF
/-- Arbiter cycles of a tick (01 R17: 127 to 129; notes/assumptions/4.md).
Mark: DESIGN CHOICE (notes/assumptions/4.md). -/
def cyclesPerTick : Nat := 128

end Sys2Proof.Config
end

