-- ==== Sys2Proof/Machine/State.lean ====
section
/-! DEFINITION. The state of Mahorn as plain data, and the state right after power-on reset.
INVENTORY.md lists every piece with the rule that names it and its reset value. -/
namespace Sys2Proof.Machine

/-- Why a machine stops with a fault.
Mark: DESIGN CHOICE (notes/assumptions/137.md). -/
inductive Fault where
  /-- Raised by SEGMENT_DONE and NODE_DONE when an engine's report stores a byte at an address outside the
  device memory of 14 R412. Safe: the machine stops where the spec says there is no memory. -/
  | noDeviceAddress
deriving DecidableEq, Repr

/-- Why a command has no meaning. -/
inductive Refusal where
  /-- Raised by an arm of `exec` whose command has no meaning yet. Safe: nothing can be proved of it. -/
  | notModelled (mnemonic : String)
deriving DecidableEq, Repr

/-! ### Status codes -/

/-- The status codes (07 R213). -/
inductive Status where
  | done | aborted | alreadyDone | malformed | badOpcode | staleHandle | access | pageFault | graphBusy
  | timeout | deadline | shed | memDetected | coreFenced | epochExpired | fenceSaturated | fenceFailed
  | stopped | teardown
deriving DecidableEq, Repr

/-- The end of a command: status, DETAIL, the address the owning chapter names (none: the default of
07 R204), an endpoint's stamp where one reported the failure, and whether a memory access failed (02 R64). -/
structure Res where
  st : Status
  detail : Nat
  addr : Option Nat
  stamp : Option Nat
  io : Bool
deriving DecidableEq, Repr

/-! ### Fabric time (01) -/

/-- The synchronisation states (01 R31). -/
inductive SyncState where
  | free | acquiring | locked | unlocked | detached
deriving DecidableEq, Repr

/-- The fabric time counter, synchronisation and peer links (01 R27-R41; 02 R72, R74). `hold` keeps each held flit with the tick in
which it arrived, `heard` what each neighbour last announced (root, hops, CAL_VALID), `echoes` the stamp of the last LINK_ECHO
sent to a chip, `found` the other chips that bring-up has found. -/
structure Fab where
  ftc : Nat
  sync : SyncState
  isRoot : Bool
  noRoot : Bool
  rootChip : Nat
  parent : Option Nat
  hopsToRoot : Nat
  calValid : Bool
  aligned : Bool
  waitingResp : Bool
  good : Nat
  missed : Nat
  leadTicks : Nat
  syncPeriod : Nat
  lateStrict : Bool
  holdFull : Bool
  unlockedApply : Bool
  linkWentDown : Bool
  offset : Int
  worstPath : Nat
  worstHops : Nat
  late : Nat
  refused : Nat
  incarnation : Nat
  accepted : Tbl (Nat × Nat)
  seqTo : Tbl Nat
  origin : Tbl Nat
  hold : List (Nat × Flit)
  heard : Tbl (Nat × Nat × Bool)
  echoes : Tbl Nat
  chip : Nat
  fabricChips : Nat
  links : Tbl (Nat × Nat)
  linksUp : Nat
  found : List Nat := []
deriving DecidableEq, Repr

/-- The calendar clock (01 R46-R50). `edge` is the FTC of the next crystal edge in units of 1/32,768 ns, `pendingSet` the seconds
and SUBSEC that a write gives it at that edge. -/
structure Cal where
  sec : Nat
  sub : Nat
  invalid : Bool
  capFtc : Nat
  capSec : Nat
  latchSec : List (Agent × Nat)
  adj : Int
  source : Nat
  ptpLocked : Bool
  cellLow : Bool
  utc : Nat
  slew : Int
  pendingSet : Option (Nat × Nat)
  edge : Nat
deriving DecidableEq, Repr

/-! ### Partitions and contexts (02, 03, 07) -/

/-- One MSI-X vector of a partition (07 R208-R212). -/
structure Vec where
  lastCookie : Nat
  lastRing : Nat
  lastFailed : Bool
  holdoff : Nat
  batch : Nat
  events : Nat
  pending : Nat
  first : Option Nat
  masked : Bool
  pendingBit : Bool
  /-- The boundary of the event that MH_VEC_LAST holds. -/
  lastAt : Option Nat := none
deriving DecidableEq, Repr

/-- A vector at reset: BATCH 1, everything else 0 (07 R212). -/
def Vec.reset : Vec :=
  { lastCookie := 0, lastRing := 0, lastFailed := false, holdoff := 0, batch := 1, events := 0, pending := 0,
    first := none, masked := false, pendingBit := false }

/-- A teardown under way (07 R224): running ticks so far, whether urgent aborts went out, whether a stop
came between, whether the partition is left disabled. -/
structure Teardown where
  ran : Nat
  escalated : Bool
  spanned : Bool
  disable : Bool
deriving DecidableEq, Repr

/-- The quota registers of a partition (02 R68). -/
structure Quota where
  rings : Nat
  contexts : Nat
  resMin : Nat
  nodes : Nat
  fences : Nat
  graphs : Nat
  storeKib : Nat
  requests : Nat
  hotrowMib : Nat
  tables : Nat
  mem0 : Nat
  mem1 : Nat
deriving DecidableEq, Repr

/-- Quotas of a partition that nothing has configured: every ceiling is 0 (14 R403, R406). -/
def Quota.zero : Quota :=
  { rings := 0, contexts := 0, resMin := 0, nodes := 0, fences := 0, graphs := 0, storeKib := 0,
    requests := 0, hotrowMib := 0, tables := 0, mem0 := 0, mem1 := 0 }

/-- The admin ring registers (03 R95). -/
structure AdminRegs where
  base : Nat
  cseq : Nat
  err : Nat
  sizeLog2 : Nat
  loc : Bool
  cseqLoc : Bool
  errLoc : Bool
  errLog2 : Nat
  vector : Nat
  pasid : Nat
  hostAccess : Bool
deriving DecidableEq, Repr

/-- The admin ring registers after a partition enable (03 R95): all zero. -/
def AdminRegs.zero : AdminRegs :=
  { base := 0, cseq := 0, err := 0, sizeLog2 := 0, loc := false, cseqLoc := false, errLoc := false,
    errLog2 := 0, vector := 0, pasid := 0, hostAccess := false }

/-- The counters of a partition window that clear on read. -/
structure PartCounts where
  ctxLoads : Nat
  ctxWaits : Nat
  dropped : Nat
  fenceLow : Nat
  fenceSat : Nat
  fenceDrop : Nat
  fenceRemote : Nat
  recDrop : Nat
  svcDone : Nat
  svcShed : Nat
  svcDeadline : Nat
  svcFailed : Nat
deriving DecidableEq, Repr

/-- The partition counters at reset. -/
def PartCounts.zero : PartCounts :=
  { ctxLoads := 0, ctxWaits := 0, dropped := 0, fenceLow := 0, fenceSat := 0, fenceDrop := 0, fenceRemote := 0,
    recDrop := 0, svcDone := 0, svcShed := 0, svcDeadline := 0, svcFailed := 0 }

/-- One partition (02 R53-R71; 03 R85, R95; 07 R208-R225). -/
structure Part where
  enable : Bool
  vf : Bool
  up : Bool
  weight : Nat
  quota : Quota
  overcommit : Bool
  teardown : Option Teardown
  reserved : Bool
  pages0 : List (Nat × Nat)
  pages1 : List (Nat × Nat)
  ring0No : Nat
  ctx0No : Nat
  fault : Bool
  faultCtx : Nat
  faultStatus : Nat
  faultOpcode : Nat
  faultAddr : Nat
  faultFtc : Nat
  faultVector : Nat
  counts : PartCounts
  admin : AdminRegs
  vecs : Tbl Vec
  funcMask : Bool
  credit : Int
  ready : List Nat
deriving DecidableEq, Repr

/-- A partition that nothing has configured (02 R68): disabled, WEIGHT 1. -/
def Part.reset : Part :=
  { enable := false, vf := false, up := false, weight := 1, quota := Quota.zero, overcommit := false,
    teardown := none, reserved := false, pages0 := [], pages1 := [], ring0No := 0, ctx0No := 0, fault := false,
    faultCtx := 0, faultStatus := 0, faultOpcode := 0, faultAddr := 0, faultFtc := 0, faultVector := 0,
    counts := PartCounts.zero, admin := AdminRegs.zero, vecs := [], funcMask := false, credit := 0, ready := [] }

/-- A handle index of a context (06 R194): its generation, the object it holds, whether it is retired. -/
structure Handle where
  gen : Nat
  obj : Option Nat
  retired : Bool
deriving DecidableEq, Repr

/-- One context (02 R58-R65; 06 R194). -/
structure Ctx where
  no : Nat
  pasid : Nat
  hostAccess : Bool
  resident : Bool
  lastUse : Nat
  faulted : Bool
  faultStatus : Nat
  faultCount : Nat
  lost : Bool
  handles : Tbl Handle
deriving DecidableEq, Repr

/-- A context load that is waiting or under way (02 R62, R63), by context key, in doorbell order. -/
structure CtxLoad where
  key : Nat
  loading : Bool
  waited : Bool
deriving DecidableEq, Repr

/-- A cached translation (02 R55): context key and page; `closing` while an invalidation, which arrived in tick `at_`, waits for
the segments that use it.
Mark: DEDUCED (notes/assumptions/25.md). -/
structure Transl where
  ctx : Nat
  page : Nat
  closing : Bool
  at_ : Nat := 0
deriving DecidableEq, Repr

/-- A memory object (06 R194-R199): partition, tier, size, and the device address of each of its pages (one
address for an object of at most 2 MiB). -/
structure Obj where
  part : Nat
  tier : Nat
  size : Nat
  pages : List Nat
deriving DecidableEq, Repr

/-! ### Rings (03, 07) -/

/-- The ring states (03 R89). -/
inductive RingState where
  | disabled | active | blocked | faulted | stopped
deriving DecidableEq, Repr

/-- An error record before it is laid out as bytes (07 R204). -/
structure ErrRec where
  seq : Nat
  cookie : Nat
  status : Nat
  opcode : Nat
  detail : Nat
  stamp : Nat
  addr : Nat
deriving DecidableEq, Repr

/-- An event on a ring's vector (07 R208). -/
structure VecEvent where
  seq : Nat
  cookie : Nat
  failed : Bool
deriving DecidableEq, Repr

/-- Where a held posting stands (07 R215, R216): not answered yet, waiting for a retry, due to block. -/
inductive HoldState where
  | unanswered (tries : Nat)
  | retryIn (tries ticks : Nat)
  | blocking (why : Nat) (addr : Nat)
  | blocked
deriving DecidableEq, Repr

/-- The postings that a ring holds back (07 R215, R216), in the order of R203: `lead` is a count whose write failed
and which stands before the records; `word` is the highest count, which stands after them. -/
structure Hold where
  st : HoldState
  lead : Option Nat
  recs : List ErrRec
  word : Option Nat
  events : List VecEvent
deriving DecidableEq, Repr

/-- A fetched entry that has not started (03 R80): its index, words and the tick from whose boundary it is
staged. -/
structure Staged where
  idx : Nat
  words : Cmd
  since : Nat
deriving DecidableEq, Repr

/-- One completion beyond the posted count (07 R202): what posting the entry still does. -/
structure Done where
  seq : Nat
  cookie : Nat
  st : Status
  irq : Bool
  logOk : Bool
deriving DecidableEq, Repr

/-- One ring (03 R75-R105; 07 R201-R217). -/
structure Ring where
  no : Nat
  ctx : Nat
  state : RingState
  before : RingState
  lostStop : Bool
  pi : Nat
  ci : Nat
  nextCi : Nat
  sampled : Nat
  wantSample : Bool
  scanStop : Bool
  base : Nat
  sizeLog2 : Nat
  loc : Bool
  cseq : Nat
  cseqLoc : Bool
  err : Nat
  errLoc : Bool
  errLog2 : Nat
  vector : Nat
  slice : Nat
  timeoutUs : Nat
  dbPending : Bool
  rejected : Bool
  faultStatus : Nat
  faultIndex : Nat
  piDrops : Nat
  dbIgnored : Nat
  slot : Option Nat
  slotFrom : Nat
  sliceLeft : Nat
  fetch : Option Nat
  staged : Option Staged
  stall : Option Cmd
  lastSeq : Nat
  posted : Nat
  written : Nat
  records : Nat
  dones : List Done
  newRecs : List ErrRec
  hold : Option Hold
  stale : Nat
  dropsWas : Nat
deriving DecidableEq, Repr

/-! ### Work (04, 05, 07) -/

/-- A place in memory that an MREF resolved to: a host address, or an offset in an object. -/
inductive Loc where
  | host (addr : Nat)
  | dev (obj off : Nat)
deriving DecidableEq, Repr

/-- One instance of a command on an endpoint (04 R115, R122): items in all and finished so far, the tick
from which its next segment is eligible, whether a segment of it runs, whether it has ended. -/
structure Inst where
  no : Nat
  ep : Nat
  items : Nat
  next : Nat
  since : Nat
  running : Bool
  ended : Bool
deriving DecidableEq, Repr

/-- An abort in force on a started command (07 R220-R223); `quiet` where a launch's abort reached it, so that
it writes no node record (07 R220). -/
structure AbortInfo where
  st : Status
  detail : Nat
  urgent : Bool
  quiet : Bool
deriving DecidableEq, Repr

/-- A patch record (04 R130). -/
structure Patch where
  node : Nat
  off : Nat
  w64 : Bool
  val : Word
deriving DecidableEq, Repr

/-- What a memory access that a parked command waits for is for. -/
inductive IoKind where
  /-- WRITE_VALUE or TIMESTAMP: a write of so many bytes. -/
  | write (bytes : Nat) (val : Nat)
  /-- An admin query's report. -/
  | report (bytes : List Byte)
  /-- GATHER: the bag offsets and index elements. -/
  | indices
  /-- The acknowledgement of a write that has been made (04 R145). -/
  | ack
  /-- GROUPED_MM: the group table. -/
  | groups
  /-- EXPERT_BIAS_SET: the new bias vector. -/
  | bias
  /-- An admin command that is in progress on the general complex; it has no access of its own. -/
  | admin
deriving DecidableEq, Repr

/-- Whether a node's kernel descriptor is at hand (05 R168). -/
inductive DescSt where
  | notNeeded
  | reading
  | here (engine : Nat)
  | failed (r : Res)
deriving DecidableEq, Repr

/-- What the KERNEL MREF of a DISPATCH resolved to: a graph node resolves it when it enters the window and pins the object
(06 R198); any other command when it starts. -/
inductive Kern where
  | atStart
  | object (o : Nat)
  | bad (r : Res)
deriving DecidableEq, Repr

/-- The object that the entry into the window pinned. -/
def Kern.pin : Kern → Option Nat
  | .object o => some o
  | _ => none

/-- What a started command is doing. -/
inductive Phase where
  /-- It is parked at the first word of its routine (13 R381). -/
  | parked (d : DescSt)
  /-- Its end is decided and is applied at the boundary of tick `due`. -/
  | decided (r : Res) (due : Nat)
  /-- It waits for a memory access, issued in tick `since`. -/
  | io (k : IoKind) (since : Nat)
  /-- It waits for its kernel descriptor. -/
  | descriptor
  /-- Its instances run. -/
  | running
  /-- A FENCE_WAIT: home fence key, threshold, listed from tick. -/
  | fenceWait (home thr : Nat) (placed : Bool)
  /-- A FENCE_SIGNAL decided and applied at boundary `at_`. -/
  | signal (at_ : Nat)
  /-- COND or LOOP: a predicate evaluation falls due in tick `due`. -/
  | predDue (due : Nat)
  /-- COND or LOOP: the predicate's read is out. -/
  | predRead
  /-- COND or LOOP: the value read is evaluated in tick `due`. -/
  | predVal (v : Word) (due : Nat)
  /-- A child launch of graph number `g` waits for its reservation. -/
  | reserve (g : Nat) (counted : Bool)
  /-- A child launch runs. -/
  | child (l : Nat)
  /-- A LAUNCH runs as launch `l`. -/
  | launching (l : Nat)
  /-- A ROUTE waits for a routing unit. -/
  | unitWait
  /-- A routing unit, taken in tick `since`, runs the passes of a ROUTE. -/
  | unitRun (since : Nat)
  /-- A FEED whose items are in the task's queue. -/
  | feeding (task : Nat)
  /-- An ABORT that decides in tick `due`. -/
  | aborting (due : Nat)
  /-- A GATHER in the marshal. -/
  | marshal
deriving DecidableEq, Repr

/-- A started entry, a released node, a service launch's node: the unit that completes once (03 R81). -/
structure Work where
  site : Site
  part : Nat
  ctx : Nat
  ringNo : Nat
  seq : Nat
  cls : Nat
  cmd : Cmd
  idx : Nat
  started : Nat
  phase : Phase
  kern : Kern
  pins : List Nat
  locs : List Loc
  epochPin : Option Nat
  insts : List Inst
  segUs : Nat
  itemNs : Nat
  abort : Option AbortInfo
  failed : Option Res
  iter : Nat
  timeoutUs : Nat
  ticks : Nat
  timedOut : Bool
  released : Nat
  recs : Nat
  /-- The record whose watch slot or list entry a placed FENCE_WAIT keeps until its completion is applied (06 R180). -/
  waitOn : Option Nat := none
  /-- The export that a FENCE_IMPORT was checked against (06 R188). -/
  bound : Option Nat := none
  /-- The report of a query, as things stood at the boundary of its start (03 R105). -/
  report : List Byte := []
  /-- The boundary from which a parked command that found no sequencer is a candidate again (13 R379). -/
  seqFrom : Option Nat := none
deriving DecidableEq, Repr

/-- A node of a launch (05 R167-R170). -/
inductive NodeSt where
  | outside
  | waiting (entered : Nat) (ready : Option Nat) (desc : DescSt) (kern : Kern)
  | running (w : Nat)
  | ended (at_ : Nat)
deriving DecidableEq, Repr

/-- Who a launch reports to. -/
inductive Owner where
  | work (w : Nat)
  | request (q : Nat)
  | start
deriving DecidableEq, Repr

/-- A launch or child launch (05 R166-R173). -/
structure Launch where
  owner : Owner
  part : Nat
  ctx : Nat
  graph : Nat
  gen : Nat
  window : Nat
  cls : Nat
  ringNo : Nat
  seq : Nat
  root : Nat
  depth : Nat
  order : Nat
  patches : List Patch
  epoch : Nat
  nodes : List NodeSt
  failTick : Nat
  failNode : Nat
  fail : Option Res
  killed : Bool
  abort : Option AbortInfo
  endAt : Option Nat
  /-- The tick in which it started. -/
  started : Nat := 0
deriving DecidableEq, Repr

/-- A generation of a graph (05 R161-R164): the node bodies and the blocks that hold the image. -/
structure Gen where
  no : Nat
  bodies : List Cmd
  blocks : List Nat
deriving DecidableEq, Repr

/-- The states of a graph (05 R160). -/
inductive GraphState where
  | loading | ready | loadFailed
deriving DecidableEq, Repr

/-- A graph (05 R149-R165). It outlives its number while a generation is pinned. -/
structure Graph where
  part : Nat
  num : Option Nat
  state : GraphState
  loadStatus : Nat
  loadDetail : Nat
  slots : Nat
  tag : Nat
  npred : List Nat
  succ : List (List Nat)
  cur : Nat
  gens : List Gen
  kib : Nat
  launchesDone : Nat
  bodyBase : Nat
  shownNodes : Nat
  shownWindow : Nat
  /-- Its chip-wide number (02 R51; 11 R349). -/
  no : Nat := 0
deriving DecidableEq, Repr

/-- A queued image read (05 R157). -/
structure ImageRead where
  graph : Nat
  obj : Nat
  off : Nat
  bytes : Nat
  fence : Option (Nat × Nat)
deriving DecidableEq, Repr

/-- What a segment on an endpoint belongs to. -/
inductive SegOwner where
  | work (w inst : Nat)
  | task (t inst : Nat)
  /-- A gather segment of the lookup marshal (08 R237). -/
  | gather (seg : Nat)
deriving DecidableEq, Repr

/-- A segment at an endpoint (04 R121-R124): first item, count, when its DISPATCH takes effect, when it
began, its bound in ns, the boundary at which a watchdog's abort of it takes effect, and the running ns its
watchdog has counted. The partition, ring and SEQ are those of its work (15 R422, R431); `busy` is the running time counted up to
`busyFrom` (15 R424), `again` that a pass of it was abandoned and runs again (09 R294), `walked` how many of its items the walker
of a GROUPED_MM has reached (09 R292). -/
structure Seg where
  owner : SegOwner
  first : Nat
  count : Nat
  from_ : Nat
  begun : Option Nat
  segNs : Nat
  watched : Option Nat
  ran : Nat
  part : Option Nat := none
  ring : Nat := 0
  seq : Nat := 0
  busy : Nat := 0
  busyFrom : Nat := 0
  again : Bool := false
  walked : Nat := 0
deriving DecidableEq, Repr

/-- An engine endpoint (00 R5; 04 R121-R128; 11 R332-R342; 14 R417). `abort` is an ABORT sent to it (URGENT, tick),
`abortAt` the boundary at which it took effect, `ended` that it has reported the end of its segment. -/
structure Ep where
  seg : Option Seg
  held : Option Nat
  abort : Option (Bool × Nat)
  abortAt : Option Nat
  ended : Bool
  stopSent : Bool
  frozen : Option (List Word)
  hung : Bool
  fatal : Option Nat
  step : Nat
  clockStopped : Bool
  onAcc : Nat
  onSince : Nat
  busyNs : Nat
  busyCyc : Nat
deriving DecidableEq, Repr

/-- An idle endpoint at full clock. -/
def Ep.idle : Ep :=
  { seg := none, held := none, abort := none, abortAt := none, ended := false, stopSent := false, frozen := none, hung := false,
    fatal := none, step := 16, clockStopped := false, onAcc := 0, onSince := 0, busyNs := 0, busyCyc := 0 }

/-- An item in a task's queue (04 R127): the FEED that brought it, its place in the queue, the instance that
runs it, and the tick from which it can be handed to one. -/
structure QItem where
  feed : Nat
  pos : Nat
  inst : Option Nat
  since : Nat
deriving DecidableEq, Repr

/-- A persistent task (04 R125-R128): its queue is `queueOff` bytes into object `queue`, or in host memory; `idle` is the
tick from which each instance has been idle; `begun` are the instances that have been sent a segment. -/
structure Task where
  ctx : Nat
  eps : List Nat
  queue : Nat
  queueOff : Nat
  queueHost : Bool
  idle : List Nat
  kernel : Nat
  itemBytes : Nat
  depth : Nat
  itemNs : Nat
  segUs : Nat
  tail : Nat
  items : List QItem
  failed : Option Res
  ending : Option Nat
  begun : List Nat := []
deriving DecidableEq, Repr

/-! ### Fences (06) -/

/-- What a local fence number names (06 R176, R188). -/
inductive FenceKind where
  | own
  | localImport (home key : Nat)
  | remoteImport (chip part key : Nat)
deriving DecidableEq, Repr

/-- A fence record (06 R176). -/
structure Fence where
  no : Nat
  kind : FenceKind
  value : Nat
  failed : Bool
  signal : Bool
  synced : Bool
  draining : Bool
  low : Nat
  sat : Nat
  last : Nat
  changed : Bool
deriving DecidableEq, Repr

/-- An export of an own fence (06 R186); `chip` is none for a target on this chip. -/
structure Export where
  fence : Nat
  key : Nat
  part : Nat
  chip : Option Nat
  signal : Bool
  /-- Its number among the exports that this chip has made. -/
  no : Nat := 0
deriving DecidableEq, Repr

/-- A fence on the overflow list (06 R181, R182): its key and the boundary at which it changed since it was
last checked. -/
structure Listed where
  fence : Nat
  changed : Option Nat
deriving DecidableEq, Repr

/-- A change of a fence that waits for its boundary (06 R178): who brought it decides its place in R24. -/
inductive SigSrc where
  /-- A host write. -/
  | host
  /-- A FENCE_SIGNAL message of an endpoint or another source (01 R20). -/
  | message
  /-- Mahorn's own work. -/
  | own
deriving DecidableEq, Repr

/-- A MAX signal (or FAIL where `value` is none) that takes effect at the next boundary. -/
structure PendSig where
  src : SigSrc
  fence : Nat
  value : Option Nat
deriving DecidableEq, Repr

/-- A FAILED mark of step 3 that a completion of the same boundary calls for (06 R184, R187, R188). -/
inductive FailMark where
  /-- The record that a number names. -/
  | record (k : Nat)
  /-- An import by itself. -/
  | imported (k : Nat)
  /-- What the loss of an export does. -/
  | lost (x : Export)
  /-- The fence of work of Mahorn's own that was abandoned (05 R159; 08 R262). -/
  | report (k : Nat)
deriving DecidableEq, Repr

/-! ### Aborts and host operations -/

/-- What an abort names. -/
inductive AbortTo where
  | work (w : Nat)
  | ring (k : Nat)
  | ctx (k : Nat)
  | task (k : Nat)
  | launch (l : Nat)
deriving DecidableEq, Repr

/-- An abort decided and applied in step 5 of the next boundary (07 R219-R223). -/
structure AbortReq where
  whom : AbortTo
  st : Status
  detail : Nat
  urgent : Bool
deriving DecidableEq, Repr

/-- A host write that takes effect at the next boundary (01 R23). -/
inductive HostOp where
  | pi (p r v : Nat)
  | doorbell (p r : Nat)
  | stateCmd (p r cmd : Nat)
  | clearRejected (p r : Nat)
  | clearFault (p c : Nat)
  | clearPartFault (p : Nat)
  | fenceVal (p f v : Nat) (full : Bool)
  | fenceFail (p f : Nat)
  /-- A write to the fence page that signals nothing. -/
  | fenceIdle (p : Nat)
  | enable (p : Nat)
  | disable (p : Nat)
  | vf (p : Nat) (on : Bool)
  | tear (p : Nat) (disable : Bool)
  | shears (p : Nat)
  /-- A write to a register: the byte address, the bytes covered, the data. -/
  | reg (a : RegAcc)
  /-- STAGE; does the flash write succeed? -/
  | fwStage (ok : Bool)
  /-- A PLDM firmware update's message: image words behind an offset, or, without one, the end, which stages (12 R367, R373). -/
  | pldm (body : List Word) (ok : Bool)
deriving DecidableEq, Repr

/-- An endpoint's completion message of the tick (01 R20), and whether its SEG_END has gone to the trace unit (15 R431). -/
structure EpMsg where
  ep : Nat
  node : Bool
  r : SegReport
  traced : Bool := false
deriving DecidableEq, Repr

/-- A message that Mahorn sends out. -/
inductive Out where
  /-- DISPATCH (01 R20, 04 R121): endpoint, kernel descriptor, arguments, instance, first item, count. -/
  | dispatch (ep kernel args inst first count : Nat)
  /-- ABORT to an endpoint (07 R220, R222). -/
  | abort (ep : Nat) (urgent : Bool)
  /-- STOP to an endpoint (11 R341). -/
  | stop (ep : Nat)
  /-- A write to host memory: requester's partition, PASID, address, bytes. -/
  | hostWrite (p pasid addr : Nat) (bytes : List Byte)
  /-- A read of host memory: requester's partition, PASID, address, bytes. -/
  | hostRead (p pasid addr bytes : Nat)
  /-- An MSI-X message: partition, vector. -/
  | msix (p v : Nat)
  /-- An MSI-X message of the PF: interrupt source. -/
  | pfMsix (src : Nat)
  /-- A control flit. -/
  | flit (f : Flit)
  /-- An answer to an ATS invalidation: partition, context, page. -/
  | atsDone (p c page : Nat)
  /-- A transmit descriptor to an NX engine: engine, request, queue pair, address, bytes. -/
  | transmit (nx req qpn addr bytes : Nat)
  /-- A receive buffer returned to a listener's queue. -/
  | stock (nx l slot : Nat)
  /-- An RNR NAK by an NX engine for a listener. -/
  | rnr (l : Nat)
  /-- A reply on PP4: endpoint ID, message type, words. -/
  | mctp (eid mtype : Nat) (body : List Word)
  /-- A frame on the serial trace port. -/
  | port (words : List Word)
  /-- A segment of an exchange to another chip: chip, exchange, words. -/
  | xchg (chip xid : Nat) (frames : List (List Word))
deriving DecidableEq, Repr

/-! ### The part (00 R7-R9; 02 R72; 14 R402-R407) -/

/-- What fuses, straps and the configuration region fix (02 R72; 14 R402-R407), with the host link's generation and
HANG_US; `keyDigest` is the SHA-384 digest of the image key in fuses (12 R357). -/
structure ChipCfg where
  grade : Nat
  arraysMin : Nat
  stepping : Nat
  arrayMap : Tbl Nat
  stackCount : Nat
  tier1 : Bool
  cxlMem : Bool
  linkGen : Nat
  nic0 : Bool
  nic1 : Bool
  fabric : Bool
  rootCand : Bool
  domain : Nat
  segMaxUs : Nat
  sliceTicks : Nat
  hangUs : Nat
  ptpPort : Nat
  ptpDomain : Nat
  smbus : Nat
  fenceKeep : Bool
  cxlBytes : Nat
  keyDigest : List Byte
deriving DecidableEq, Repr

/-- What an unread configuration region leaves of the configuration: every parameter at its default, the ports and the
fabric off (14 R405, R406); the fuses stay. -/
def ChipCfg.bare (c : ChipCfg) : ChipCfg :=
  { c with cxlMem := false, nic0 := false, nic1 := false, fabric := false, domain := 0, segMaxUs := 20, sliceTicks := 4,
           hangUs := 200, ptpPort := 0, ptpDomain := 0, smbus := 0, fenceKeep := false, cxlBytes := 0 }

/-- The full part (00 R10) before its configuration region is read: notes/assumptions/5.md.
Mark: DESIGN CHOICE (notes/assumptions/5.md). -/
def ChipCfg.full : ChipCfg :=
  { grade := 0x24A4, arraysMin := 4, stepping := 1, arrayMap := [], stackCount := 10, tier1 := true,
    cxlMem := false, linkGen := 2, nic0 := false, nic1 := false, fabric := false, rootCand := false, domain := 0,
    segMaxUs := 20, sliceTicks := 4, hangUs := 200, ptpPort := 0, ptpDomain := 0, smbus := 0, fenceKeep := false,
    cxlBytes := 0, keyDigest := List.replicate 48 0 }

/-- Shears' registers (07 R226). -/
structure Shears where
  lastPart : Nat
  escalated : Bool
  lastUs : Nat
  spanned : Bool
  escCount : Nat
deriving DecidableEq, Repr

/-! ### Counters and trace (15) -/

/-- A bank of operation counters and busy pairs (15 R420-R427), by counter ID and engine class; BUSY_CYC in 1/32 of a cycle. -/
structure Bank where
  ops : Tbl Nat
  busy : Tbl (Nat × Nat)
deriving DecidableEq, Repr

/-- A live bank, its latched copy and the latch's stamp (15 R425). -/
structure Counters where
  live : Bank
  copy : Bank
  latched : Bool
  stamp : Nat
  want : Bool
deriving DecidableEq, Repr

/-- Counters after a reset: every one zero (15 R423). -/
def Counters.zero : Counters :=
  { live := { ops := [], busy := [] }, copy := { ops := [], busy := [] }, latched := false, stamp := 0,
    want := false }

/-- The states of trace (15 R436, R440). -/
inductive TraceState where
  | off | armed | on | full
deriving DecidableEq, Repr

/-- A TRACE message that was sent in this tick, with its LOSS bit. -/
structure TraceSent where
  msg : TraceMsg
  loss : Bool
deriving DecidableEq, Repr

/-- The trace unit, the sampler and their registers (15 R428-R440). `grantFrom` is the last source granted before this tick's
grant, `turn` is a start or an end of trace that takes
effect at the next boundary. -/
structure TraceUnit where
  enable : Bool
  modeStop : Bool
  portEn : Bool
  events : Nat
  startTick : Nat
  stopTick : Nat
  classes : Nat
  coreLo : Nat
  coreHi : Nat
  parts : Nat
  st : TraceState
  onTick : Bool
  records : Nat
  wrapped : Bool
  unsyncSeen : Bool
  lost : Nat
  portDrop : Nat
  base : Nat
  lastGranted : Nat
  grantFrom : Nat := 0
  holders : List Nat
  owed : List Nat
  sent : List TraceSent
  portQ : List (List Word)
  frame : Nat
  sampleTicks : Nat
  seed : Nat
  lfsr : Nat
  samples : Nat
  sampleDone : Bool
  turn : Option Bool
deriving DecidableEq, Repr

/-- The trace unit at reset (15 R440). -/
def TraceUnit.reset : TraceUnit :=
  { enable := false, modeStop := false, portEn := false, events := 0, startTick := 0, stopTick := 0,
    classes := 0, coreLo := 0, coreHi := 0x7F, parts := 2 ^ 128 - 1, st := .off, onTick := false, records := 0,
    wrapped := false, unsyncSeen := false, lost := 0, portDrop := 0, base := 0, lastGranted := 1023,
    holders := [], owed := [], sent := [], portQ := [], frame := 0, sampleTicks := 0, seed := 0xACE1,
    lfsr := 0xACE1, samples := 0, sampleDone := false, turn := none }

/-! ### Embedding tables and table epochs (08) -/

/-- The states of a table (08 R258). -/
inductive TableState where
  | loading | ready | loadFailed
deriving DecidableEq, Repr

/-- A posted stage (08 R260): IDX, DATA, NROWS and its fence with its value. -/
structure StageJob where
  idx : Loc
  data : Loc
  n : Nat
  fence : Option (Nat × Nat)
deriving DecidableEq, Repr

/-- A committed set (08 R246, R247): local rows with their half values, its fence, the boundary and order of the
commit, whether its fill is done, whether the flip under way carries it. -/
structure RowSet where
  rows : Tbl Nat
  fence : Option (Nat × Nat)
  at_ : Nat
  order : Nat
  filled : Bool
  carried : Bool
deriving DecidableEq, Repr

/-- A table (08 R228-R263). It outlives its number while a GATHER that started earlier uses it. `slots` and
`map` are the objects that hold its slots and its row map. -/
structure Table where
  part : Nat
  num : Option Nat
  state : TableState
  rowBytes : Nat
  format : Nat
  rows : Nat
  shards : Nat
  chip0 : Nat
  shard : Nat
  tier : Nat
  cache : Nat
  shadow : Nat
  key : Nat
  slots : Nat
  map : Nat
  loadSrc : Option Loc
  loadFence : Option (Nat × Nat)
  loadStatus : Nat
  loadDetail : Nat
  openRows : Tbl Nat
  openFailed : Bool
  committed : Option RowSet
  stages : List StageJob
  stageStatus : Nat
  stageDetail : Nat
  stageElem : Nat
  lastEpoch : Nat
deriving DecidableEq, Repr

/-- The phases of the epoch cycle (08 R247). -/
inductive EpochPhase where
  | opening | prepare | drain | catchup
deriving DecidableEq, Repr

/-- Coppice (08 R244-R255, R265): the current epoch is `State.epoch`. -/
structure Coppice where
  half : Nat
  prev : Option Nat
  phase : EpochPhase
  request : Option Nat
  expired : Bool
  cancelled : Bool
  graceMs : Nat
  flipWaitMs : Nat
  lastFlip : Nat
  expiredCount : Nat
  flipDue : Bool
  ran : Nat
  graceDone : Bool
  carriedRows : List (Nat × List Nat)
  sets : Nat
  coord : Option Nat
  readyFrom : List Nat
  clearFrom : List Nat
  requestSent : Bool
  readyDue : Bool
  readySent : Bool
  flipSent : Bool
  clearSent : Bool
  retireDue : Bool
  waited : Nat
  prepareHeld : Bool
deriving DecidableEq, Repr

/-- Coppice after any reset of Mahorn (08 R264, R265). -/
def Coppice.reset : Coppice :=
  { half := 0, prev := none, phase := .opening, request := none, expired := false, cancelled := false,
    graceMs := 10, flipWaitMs := 100, lastFlip := 0, expiredCount := 0, flipDue := false, ran := 0,
    graceDone := false, carriedRows := [], sets := 0, coord := none, readyFrom := [], clearFrom := [],
    requestSent := false, readyDue := false,
    readySent := false, flipSent := false, clearSent := false, retireDue := false, waited := 0, prepareHeld := false }

/-- A line of the hot-row cache (08 R240, R242): its partition, table, whether it is a map line, its slot or map
sector, the sectors it takes, and the passes of the clock it still survives. -/
structure CacheLine where
  part : Nat
  table : Nat
  isMap : Bool
  idx : Nat
  sectors : Nat
  left : Nat
deriving DecidableEq, Repr

/-- A position of a GATHER (04 R137, R138; 08 R233): not resolved; failed; waiting for so many sectors of a
local row; waiting for a row of another chip; its row at hand. -/
inductive PosSt where
  | unresolved
  | bad (st : Status) (detail : Nat)
  | local_ (table slot sectors : Nat) (admitted : Bool)
  | remote (chip table : Nat)
  | row (table : Nat) (bytes : List Byte)
  | served
deriving DecidableEq, Repr

/-- A request segment that this chip serves: the requester, the exchange, the partition, the epoch, the key of the table, the
segment's number and LAST, and what the reply says of the table (09 R297, R298). -/
structure ServedSeg where
  chip : Nat
  xid : Nat
  part : Nat
  epoch : Nat
  key : Nat
  no : Nat
  last : Bool
  status : Nat
  rowBytes : Nat
deriving DecidableEq, Repr

/-- A GATHER in the marshal: the tables of the partition when it started, its bag offsets, its positions, the
peers whose LAST reply is awaited, the exchange number, the tick in which LAST requests went out, whether no GX
endpoint was left for it, and the first failure of a write of its output (08 R237, R296-R300; 11 R329). -/
structure Gather where
  tables : Tbl Nat
  bags : List Nat
  pos : List PosSt
  peers : List Nat
  allPeers : List Nat
  xid : Nat
  lastSent : Option Nat
  segNo : Tbl Nat
  noEndpoint : Bool
  lost : Option Res
  /-- The request segment of another chip that it resolves rows for, if it is no GATHER of this chip (08 R256). -/
  serves : Option ServedSeg := none
deriving DecidableEq, Repr

/-- An entry of a batch (08 R233): channel, bank, granule, and the position of a GATHER that needs it. -/
structure BatchEntry where
  channel : Nat
  bank : Nat
  granule : Nat
  work : Nat
  pos : Nat
deriving DecidableEq, Repr

/-- An entry of a remote batch (08 R233, R256). -/
structure RemoteEntry where
  chip : Nat
  work : Nat
  pos : Nat
  table : Nat
  row : Nat
deriving DecidableEq, Repr

/-- The open batch (08 R235). -/
structure Batch where
  opened : Nat
  window : Nat
  entries : List BatchEntry
deriving DecidableEq, Repr

/-- The open remote batch of a chip (08 R233, R235). -/
structure RemoteBatch where
  chip : Nat
  opened : Nat
  window : Nat
  rows : List RemoteEntry
deriving DecidableEq, Repr

/-- A gather segment (08 R237): its sectors in order with the positions that each serves, and the tick from
which it may be dispatched. -/
structure GatherSeg where
  sectors : List (Nat × List (Nat × Nat))
  since : Nat
deriving DecidableEq, Repr

/-- An exchange that this chip serves for another (08 R256; 09 R297): requester, exchange number, epoch. -/
structure Served where
  chip : Nat
  xid : Nat
  epoch : Nat
  part : Nat
deriving DecidableEq, Repr

/-- The request segments of this chip that await their replies, in order: the chip, the GATHER, and the
positions whose rows the segment asked for. -/
structure Asked where
  chip : Nat
  xid : Nat
  work : Nat
  pos : List Nat
  last : Bool
deriving DecidableEq, Repr

/-- The lookup marshal and the hot-row cache (08 R233-R242, R265). -/
structure Marshal where
  fixed : Bool
  fixedW : Nat
  w : Nat
  up : Bool
  jPrev : Option Nat
  traffic : Bool
  interval : Nat
  eff : Nat
  batch : Option Batch
  remotes : List RemoteBatch := []
  gathers : Tbl Gather
  segs : Tbl GatherSeg
  nextSeg : Nat
  lines : List CacheLine
  sketch : Tbl Nat
  hits : Nat
  misses : Nat
  hotWarm : Bool
  reorderWarm : Bool
  served : List Served
  asked : List Asked
  nextXid : Nat
  xchgMs : Nat
  overdue : Nat
  badMap : List (Nat × Nat)
  badIdx : List Nat
deriving DecidableEq, Repr

/-- The marshal after any reset of Mahorn (08 R264, R265; 09 R301). -/
def Marshal.reset : Marshal :=
  { fixed := false, fixedW := 2, w := 2, up := true, jPrev := none, traffic := false, interval := 0, eff := 0,
    batch := none, remotes := [], gathers := [], segs := [], nextSeg := 0, lines := [], sketch := [], hits := 0, misses := 0,
    hotWarm := false, reorderWarm := false, served := [], asked := [], nextXid := 0, xchgMs := 1, overdue := 0,
    badMap := [], badIdx := [] }

/-! ### Experts (09) -/

/-- An expert layer (09 R269-R274, R284). -/
structure Layer where
  nexp : Nat
  bias : List Nat
  frozen : Bool
  snapshot : Bool
  rate : Nat
  limit : Nat
  key : Nat
  gen : Nat
  offered : List Nat
  spilled : List Nat
  lastOffered : List Nat
  ran : Bool
  routes : Nat
  spills : Nat
  residual : Nat
  periods : Nat
  born : Nat
deriving DecidableEq, Repr

/-- A ROUTE under way: the bias copy and BIAS_GEN of its start (09 R275), its layer, and what its passes counted
(R278). An EXPERT_BIAS_SET keeps its new vector here until it completes. -/
structure Routing where
  layer : Nat
  bias : List Nat
  gen : Nat
  offered : List Nat
  spilled : List Nat
  residual : Nat
  nans : Nat
deriving DecidableEq, Repr

/-- A snapshot in the flash bias area (09 R286): LAYER_KEY and the bias vector. -/
structure BiasSnap where
  key : Nat
  bias : List Nat
deriving DecidableEq, Repr

/-- Pleach, the bias loop and the MX group walker (09 R268-R295, R301). -/
structure Pleach where
  periodUs : Nat
  loopOff : Bool
  layers : Tbl Layer
  routings : Tbl Routing
  grouped : Tbl (List (List Byte))
  lists : Tbl (Tbl Loc)
  outs : Tbl (Tbl Byte)
  routes : Nat
  spills : Nat
  residual : Nat
  nans : Nat
  skips : Nat
  reruns : Nat
  lastPeriod : Nat
  lastSnap : Nat
  warmPeriods : Nat
  snapLoaded : Bool
deriving DecidableEq, Repr

/-- Pleach after any reset of Mahorn; the flash bias area is kept. -/
def Pleach.reset : Pleach :=
  { periodUs := 1000, loopOff := false, layers := [], routings := [], grouped := [], lists := [], outs := [], routes := 0, spills := 0,
    residual := 0, nans := 0, skips := 0, reruns := 0, lastPeriod := 0, lastSnap := 0, warmPeriods := 0,
    snapLoaded := false }

/-! ### Results that take effect at the next boundary -/

/-- The end of background work, reported in a tick and applied at the boundary that follows. -/
inductive Later where
  /-- The read and checks of a graph's image ended, with the bytes that were read (05 R157). -/
  | image (graph : Nat) (io : Io) (img : List Byte)
  /-- A table's creation work ended (08 R258). -/
  | tableLoad (table : Nat) (io : Io)
  /-- A stage ended (08 R260). -/
  | stage (table : Nat) (io : Io)
  /-- A fill ended (08 R247, R250). -/
  | fill (table : Nat) (io : Io)
  /-- A period of the bias loop ended (09 R284). -/
  | bias
  /-- The record of a context that was being loaded is lost (11 R330). -/
  | ctxLost (k : Nat)
  /-- A context fault that was recorded in the tick: status, opcode and address (01 R19; 02 R64, R65). -/
  | ctxFault (k status opcode addr : Nat)
  /-- The fetch of an entry failed: status, the entry's index and its address (03 R84). -/
  | fetchFault (k status idx addr : Nat)
  /-- A context record is in its resident slot (02 R62). -/
  | ctxLoaded (k : Nat)
  /-- The cleanup of a partition's teardown ended (07 R224). -/
  | torn (p : Nat)
  /-- Catch-up ended (08 R247, R254). -/
  | catchup
  /-- A new synchronisation state (01 R31). -/
  | sync (st : SyncState)
  /-- A peer link went down (01 R35; 02 R74); source, destination and SEQ of the flits it had not acknowledged. -/
  | linkDown (link : Nat) (unacked : List (Nat × Nat × Nat))
  /-- A peer link came up to a chip, with its one-way latency in ns (02 R74). -/
  | linkUp (link chip lat : Nat)
  /-- The host link trained to a new generation (02 R74). -/
  | linkGen (gen : Nat)
  /-- A boot record that names a new slot is written: FW_VERSION, SVN and FW_IMAGE_B of the firmware (12 R369). -/
  | fwVersion (version svn : Nat) (toB : Bool)
  /-- A core of the general complex has started the service (10 R309; 12 R352). -/
  | svcStart (io : Io)
  /-- The patch is loaded and locked (13 R383). -/
  | patched
  /-- Partitions are brought up; the cores whose self-test failed (12 R366; 14 R408). -/
  | bringup (failed : List Nat)
deriving DecidableEq, Repr

/-! ### The request service (10) -/

/-- A service class (10 R305, R326). -/
structure SvcClass where
  deadlineUs : Nat
  guardUs : Nat
  shed : Nat
  lateOk : Bool
deriving DecidableEq, Repr

/-- A service class at reset (10 R326). -/
def SvcClass.reset : SvcClass := { deadlineUs := 5000, guardUs := 200, shed := 0, lateOk := false }

/-- A listener (10 R306, R311): its entry, the pool's object, whether it is open, the SEQ of its last request,
the slots stocked in its receive queue. -/
structure Listener where
  port : Nat
  part : Nat
  ctx : Nat
  qpFirst : Nat
  qpCount : Nat
  pool : Nat
  obj : Nat
  slots : Nat
  slotBytes : Nat
  msgMax : Nat
  respOffset : Nat
  openFence : Option Nat
  openValue : Nat
  isOpen : Bool
  closed : Bool
  seq : Nat
  stock : List Nat
deriving DecidableEq, Repr

/-- A patch template (10 R307). -/
structure Template where
  node : Nat
  off : Nat
  w64 : Bool
  source : Nat
  add : Nat
deriving DecidableEq, Repr

/-- A model entry (10 R307). -/
structure Model where
  id : Nat
  listener : Nat
  graph : Nat
  priorUs : Nat
  maxCand : Nat
  tpls : List Template
deriving DecidableEq, Repr

/-- Where a request stands: its header is being read; it is in the admission queue; its launch runs since an
admission boundary with a pinned epoch; its response is written in tick `at_` and then posted; it is being
sent. -/
inductive ReqState where
  | reading
  | queued
  | launched (l admitted epoch : Nat)
  | respond (r : Res) (opcode node at_ : Nat)
  | posting (nret at_ : Nat)
  | sending
deriving DecidableEq, Repr

/-- A request (10 R312-R323). `num` is its SEQ; the listener and model entries are those it was taken under, `opts` the
listener's models then. -/
structure Request where
  lno : Nat
  lst : Listener
  opts : List Model
  model : Option Model
  slot : Nat
  bytes : Nat
  qpn : Nat
  rx : Nat
  arrival : Nat
  cls : Nat
  ncand : Nat
  nresult : Nat
  reqId : Nat
  deadline : Nat
  num : Nat
  held : Bool
  admitted : Nat
  epoch : Nat
  st : ReqState
deriving DecidableEq, Repr

/-- The estimator of a graph (10 R318). -/
structure Est where
  q : Nat
  n : Nat
deriving DecidableEq, Repr

/-- The counters of a listener (10 R326). -/
structure ListCount where
  recv : Nat
  done : Nat
  shed : Nat
  deadline : Nat
  malformed : Nat
  failed : Nat
  noslot : Nat
  lastFail : Nat
deriving DecidableEq, Repr

/-- Listener counters at reset. -/
def ListCount.zero : ListCount :=
  { recv := 0, done := 0, shed := 0, deadline := 0, malformed := 0, failed := 0, noslot := 0, lastFail := 0 }

/-- A receive descriptor that takes effect at the next boundary (10 R312). -/
structure RxDesc where
  nx : Nat
  slot : Nat
  bytes : Nat
  qpn : Nat
  rx : Nat
  arrival : Nat
deriving DecidableEq, Repr

/-- The request service and Clipper (10 R303-R328). `st` is STATE: 0 OFF, 1 STARTING, 2 RUNNING, 3 FAILED. -/
structure Svc where
  st : Nat
  acting : Bool
  actFailed : Bool
  failStep : Nat
  failStatus : Nat
  failIndex : Nat
  failDetail : Nat
  tableGen : Nat
  classes : List SvcClass
  listeners : Tbl Listener
  models : List Model
  ests : Tbl Est
  requests : Tbl Request
  nextReq : Nat
  descs : List RxDesc
  staging : List Host.Cell
  image : List Host.Cell
  counts : Tbl ListCount
deriving DecidableEq, Repr

/-- The service after any reset of Mahorn (10 R326). -/
def Svc.reset : Svc :=
  { st := 0, acting := false, actFailed := false, failStep := 0, failStatus := 0, failIndex := 0, failDetail := 0, tableGen := 0,
    classes := List.replicate 16 SvcClass.reset, listeners := [], models := [], ests := [], requests := [],
    nextReq := 0, descs := [], staging := [], image := [], counts := [] }

/-! ### Faults and the global stop (11) -/

/-- A stop as it was requested: the tick named, REASON, SCOPE, STOP_ID and the originating chip (11 R339, R340). -/
structure StopPlan where
  at_ : Nat
  reason : Nat
  scope : Nat
  id : Nat
  origin : Nat
deriving DecidableEq, Repr

/-- No stop yet. -/
def StopPlan.none : StopPlan := { at_ := 0, reason := 0, scope := 0, id := 0, origin := 0 }

/-- The global stop (11 R339-R350). `last` is the stop in force or the last one, `endAt` the tick U and whether it
is an ABANDON, `held` the host writes held, `aborts` the ABORT messages pending at the cut,
`routes` the ROUTEs abandoned there, `notBegun` the segments recorded as not started, those of tasks with their items, `gone` that
STOP has gone out for the stop that is scheduled. -/
structure Stop where
  stopped : Bool
  plan : Option StopPlan
  planLate : Bool
  last : StopPlan
  cut : Nat
  late : Bool
  endAt : Option (Nat × Bool)
  refused : Bool
  sent : Nat
  snapDone : Bool
  frozenFtc : Nat
  doneFtc : Nat
  held : List HostOp
  drops : Nat
  aborts : List (Nat × Bool)
  routes : List Nat
  notBegun : List (SegOwner × List Nat) := []
  gone : Bool := false
deriving DecidableEq, Repr

/-- No stop, after any reset of Mahorn (11 R350). -/
def Stop.reset : Stop :=
  { stopped := false, plan := Option.none, planLate := false, last := StopPlan.none, cut := 0, late := false,
    endAt := Option.none, refused := false, sent := 0, snapDone := false, frozenFtc := 0, doneFtc := 0, held := [],
    drops := 0, aborts := [], routes := [] }

/-- Fault registers (11 R350): counters, MH_MGMT_FAULT, the hang capture records as bytes, and the fencings decided
for the next boundary (core, KIND). -/
structure Faults where
  ce : Nat
  ue : Nat
  host : Nat
  hang : Bool
  mchk : Bool
  snapped : Bool
  vector : Nat
  recs : List (List Byte)
  lost : Nat
  fencing : List (Nat × Nat)
deriving DecidableEq, Repr

/-- Fault registers after a reset (11 R350). -/
def Faults.reset : Faults :=
  { ce := 0, ue := 0, host := 0, hang := false, mchk := false, snapped := false, vector := 0, recs := [], lost := 0,
    fencing := [] }

/-! ### Firmware processors (12) -/

/-- The states of a firmware processor (12 R374). -/
inductive ProcState where
  | off | booting | running | restarting | switching | heldDown
deriving DecidableEq, Repr

/-- A firmware processor (12 R352-R374): its state, whether it runs the component of slot B, DEGRADED, crashes since
the last reset, the last cause, the version it runs, the FTC of each declaration, the FTC of the last switch, for a CCC
whether its launch gate is closed, the FTC from which its watchdog runs, and whether its private SRAM holds an
uncorrected error; `old` is the version that it ran before its last switch. -/
structure Proc where
  st : ProcState
  imageB : Bool
  degraded : Bool
  crashes : Nat
  cause : Nat
  version : Nat
  declared : List Nat
  switched : Option Nat
  gate : Bool
  wdtFrom : Nat
  sramUe : Bool
  old : Nat := 0
deriving DecidableEq, Repr

/-- A processor after a reset (12 R374): OFF. -/
def Proc.reset : Proc :=
  { st := .off, imageB := false, degraded := false, crashes := 0, cause := 0, version := 0, declared := [],
    switched := none, gate := false, wdtFrom := 0, sramUe := false }

/-- A boot record (12 R356). -/
structure BootRec where
  seq : Nat
  activeB : Bool
deriving DecidableEq, Repr

/-- A write that FLASH has to do (12 R353, R356): an image for slot B or A, whose write comes out right or not; a boot
record, with the FW_VERSION and SVN of the firmware where it ends an activation; a bias snapshot; a crash-log entry. -/
inductive FlashWrite where
  | image (toB : Bool) (cells : List Host.Cell) (ok : Bool)
  | record (activeB : Bool) (fw : Option (Nat × Nat))
  | snapshot (l : List BiasSnap)
  | crash (r : List Byte)
deriving DecidableEq, Repr

/-- The flash beside the chip (12 R355, R356): its bytes by offset, the number of entries that the crash log has taken, and the
cores that the log holds as fenced. -/
structure Flash where
  cells : List Host.Cell
  logged : Nat
  fencedLog : Nat
deriving DecidableEq, Repr

/-- A flash that nothing has been written to (notes/assumptions/5.md).
Mark: DESIGN CHOICE (notes/assumptions/5.md). -/
def Flash.blank : Flash := { cells := [], logged := 0, fencedLog := 0 }

/-- What the journal of an ADMIN duty holds of the admin command posted last (12 R354, R363).
Mark: DEDUCED (notes/assumptions/66.md). -/
structure JournalRec where
  part : Nat
  seq : Nat
  cmd : Cmd
  status : Nat
deriving DecidableEq, Repr

/-- Firmware as a whole (12 R353-R374): the processors, the duties (core, WAITING), the activation, the staging
window, the flash and what PP4 holds. `act` is ACT_STATUS.STATE, `switchList` the processors already switched, newest
first; `calm` is the FTC of the last tick with an emergency; `writes` are the flash writes that have not ended, the oldest
first; `cache` holds the components in the verified image cache by class and slot, `journal` what the ADMIN duties posted;
`busy` lists requester EIDs with the message type of the request in progress; `lost` lists by duty the cores that lost it and are
to have it back, the first loser first (12 R362); `bad` the keys of cached components that a loader found not to match (R361);
`pldmEnd` the bytes that a PLDM update has brought (R373); `sensorAt` when the sensors were last due; `idle` that no
started entry or held request was there in the last tick; `capB` is FW_IMAGE_B of the capability table. -/
structure Fw where
  procs : List Proc
  duties : List (Nat × Bool)
  wdtUs : Nat
  act : Nat
  next : Nat
  fail : Nat
  switchList : List Nat
  reverting : Bool
  stageLen : Nat
  staged : List Host.Cell
  stagedOk : Bool
  activeB : Bool
  fallback : Bool
  refetch : Bool
  runVersion : Nat
  runSvn : Nat
  stagedVersion : Nat
  stagedSvn : Nat
  fuseSvn : Nat
  crashRecs : List (List Byte)
  crashLost : Nat
  calm : Nat
  writes : List FlashWrite
  flash : Flash
  cache : Tbl (List Host.Cell)
  journal : Tbl JournalRec
  eid : Nat
  busy : List (Nat × Nat)
  sensors : List Nat
  idle : Bool
  capB : Bool
  lost : Tbl (List Nat) := []
  bad : List Nat := []
  pldmEnd : Nat := 0
  sensorAt : Nat := 0
deriving DecidableEq, Repr

/-- The duties after a reset: ADMIN0 to ADMIN7, BIAS, EPOCH, SERVICE, TELEMETRY, PTP, FLASH (12 R374). -/
def dutyReset : List (Nat × Bool) :=
  (List.range 8 ++ [1, 2, 3, 4, 5, 6]).map fun core => (core, false)

/-- Firmware after any reset of Mahorn, with the flash and the fuses kept (12 R374). -/
def Fw.reset (flash : Flash) (fuseSvn : Nat) : Fw :=
  { procs := List.replicate 19 Proc.reset, duties := dutyReset, wdtUs := 100, act := 0, next := 0, fail := 0,
    switchList := [], reverting := false, stageLen := 0, staged := [], stagedOk := false, activeB := false,
    fallback := false, refetch := false, runVersion := 0, runSvn := 0, stagedVersion := 0, stagedSvn := 0,
    fuseSvn := fuseSvn, crashRecs := [], crashLost := 0, calm := 0, writes := [], flash := flash, cache := [], journal := [], eid := 0, busy := [],
    sensors := [0, 0, 0, 0, 0, 0], idle := false, capB := false }

/-! ### Boxwood, the memory port arbiter and the interrupt controller (13) -/

/-- Boxwood (13 R375-R384): the groups that are enabled as bits, the patch store, the registers, the words and dispatch entries of
the patch that SEC has to write, and the syndrome. -/
structure Boxwood where
  groups : Nat
  parks : Nat
  lock : Bool
  patchStatus : Nat
  index : Nat
  parts : List Nat
  words : Tbl Nat
  patchId : Nat
  shownId : Nat
  offerWords : List Nat := []
  offerDisp : List (Nat × Nat) := []
  synValid : Bool
  syn : Nat
  synFtc : Nat
  mchks : Nat
deriving DecidableEq, Repr

/-- Boxwood after any reset of Mahorn (13 R384, R396). -/
def Boxwood.reset : Boxwood :=
  { groups := 15, parks := 0, lock := false, patchStatus := 0, index := 0, parts := [], words := [], patchId := 0,
    shownId := 0, synValid := false, syn := 0, synFtc := 0, mchks := 0 }

/-- A transfer on the memory port (13 R385): its sectors, how many it has moved, whether it writes, and the address of its first
sector; none where the spec gives no address for what it moves. -/
structure Xfer where
  sectors : Nat
  moved : Nat
  write : Bool := false
  addr : Option Nat := none
deriving DecidableEq, Repr

/-- The memory port arbiter (13 R385-R390): the input that owns or is parked on the grant, the eight queues with the
head first, the transfers that parts wait to present because a queue is full, the cycles of the tick used by each input, losses, cycles held, progress of the resume-class inputs, whether the owner's
transfer moved in the last cycle and goes on, and
the cycle of the tick. -/
structure Arb where
  owner : Nat
  queues : List (List Xfer)
  wait : List (List Xfer)
  used : List Nat
  loss : List Nat
  held : List Nat
  progress : List Nat
  going : Bool
  cycle : Nat
deriving DecidableEq, Repr

/-- The arbiter after a reset (13 R397). -/
def Arb.reset : Arb :=
  { owner := 0, queues := List.replicate 8 [], wait := List.replicate 8 [], used := List.replicate 8 0, loss := List.replicate 8 0,
    held := List.replicate 8 0, progress := [0, 0, 0], going := false, cycle := 0 }

/-- The private bank of a processor (13 R391, R398), the banks of 32 sources as bits. -/
structure IcProc where
  thresh : Nat
  split : Nat
  err : Bool
  enable : Nat
  pending : Nat
  active : Nat
  prio : List Nat
  timer0 : Nat
  timer1 : Nat
deriving DecidableEq, Repr

/-- A private bank after a reset (13 R398). -/
def IcProc.reset : IcProc :=
  { thresh := 0, split := 4, err := false, enable := 0, pending := 0, active := 0, prio := List.replicate 32 0,
    timer0 := 0, timer1 := 0 }

/-- A shared source (13 R392, R395); `back` is the processor it returns to after a crash moved it. -/
structure IcSrc where
  prio : Nat
  target : Nat
  enable : Bool
  pending : Bool
  active : Bool
  back : Option Nat
deriving DecidableEq, Repr

/-- Reset TARGET and PRIO of a shared source (13 R392); none for a reserved one. -/
def icReset (n : Nat) : Option (Nat × Nat) :=
  if n = 32 then some (0, 0xFF) else if n = 33 then some (2, 0xC0) else if n = 34 then some (0, 0xE0)
  else if n = 35 then some (0, 0x80) else if n = 36 then some (9, 0xF0) else if n = 37 then some (0, 0xA0)
  else if n = 38 then some (2, 0xC0) else if n = 39 then some (4, 0x40) else if n = 40 then some (5, 0x60)
  else if n = 41 then some (6, 0x40) else if n = 42 then some (8, 0x80) else if n = 43 then some (3, 0x80)
  else if n = 44 then some (8, 0xE0) else if 45 ≤ n ∧ n ≤ 52 then some (11 + (n - 45), 0xA0)
  else if 64 ≤ n ∧ n ≤ 191 then some ((n - 64) % 8, 0x80) else none

/-- A shared source after a reset. -/
def IcSrc.reset (n : Nat) : IcSrc :=
  let r := (icReset n).getD (0, 0)
  { prio := r.2, target := r.1, enable := true, pending := false, active := false, back := none }

/-- The interrupt controller (13 R391-R395). A source without an entry stands as after a reset. -/
structure Ic where
  procs : List IcProc
  srcs : Tbl IcSrc
deriving DecidableEq, Repr

/-- The interrupt controller after a reset (13 R398). -/
def Ic.reset : Ic := { procs := List.replicate 19 IcProc.reset, srcs := [] }

/-! ### Power (14) -/

/-- The emergency level and the power registers (14 R415-R419). `due` is a change that takes effect at the next
boundary: the level, and whether hardware raised it. `causes` holds the FTC at which the cause of each level was last
seen. `coreStep` and `nxStep` are the clocks in units of 93.75
MHz, 0 while stopped. -/
structure Power where
  level : Nat
  hwTrip : Bool
  clamp : Bool
  coreStep : Nat
  nxStep : Nat
  limitW : Nat
  mahornMw : Nat
  moduleW : Nat
  throttles : Nat
  sheds : Nat
  trips : Nat
  hwTrips : Nat
  lastStamp : Nat
  due : Option (Nat × Bool)
  causes : List Nat
deriving DecidableEq, Repr

/-- Power after a reset (14 R419). -/
def Power.reset : Power :=
  { level := 0, hwTrip := false, clamp := false, coreStep := 16, nxStep := 16, limitW := 850, mahornMw := 0,
    moduleW := 0, throttles := 0, sheds := 0, trips := 0, hwTrips := 0, lastStamp := 0, due := none, causes := [0, 0, 0] }

/-! ### Reset and boot (14) -/

/-- The phases of a boot (14 R418). -/
inductive BootPhase where
  | rom | image | config | fabric | bringup | up | recovery
deriving DecidableEq, Repr

/-- Reset and boot (14 R399-R413, R418): `due` is a reset that begins at the next boundary, with its KIND of
MH_RST_CAUSE and its straps, `ticks` the ticks since the reset's release, `align` their number when fabric alignment
began, `cleared` whether page clearing has ended, `enables` the partitions whose ENABLE bring-up sets, `unpowered` that
the module has no power. -/
structure Boot where
  phase : BootPhase
  ftTimeout : Bool
  cfgStatus : Nat
  cfgCause : Nat
  bootMs : Nat
  straps : Nat
  kind : Nat
  resets : Nat
  due : Option (Nat × Nat)
  ticks : Nat
  align : Nat
  cleared : Bool
  enables : List Nat
  stopBase : Nat
  traceBase : Nat
  unpowered : Bool
deriving DecidableEq, Repr

/-- Boot right after a reset of a kind is released. -/
def Boot.start (straps kind resets : Nat) : Boot :=
  { phase := .rom, ftTimeout := false, cfgStatus := 0, cfgCause := 0, bootMs := 0, straps := straps, kind := kind,
    resets := resets, due := none, ticks := 0, align := 0, cleared := false, enables := [], stopBase := 0,
    traceBase := 0, unpowered := false }

/-! ### The whole state -/

/-- The state of Mahorn. `pending` is the queue of commands that wait, first in, first out; `stores` are the
bytes stored in the running command, newest first, and `cleared` the ranges it cleared (both empty between
commands); `free` counts the free values
taken; `out` is what Mahorn has sent, oldest first; `readData` is what the last register read returned; `tapIr` is the
instruction register of the debug port's test access port (15 R439). -/
structure State where
  pending : List Instr
  mem : List Host.Cell
  stores : List Host.Cell
  cleared : List (Nat × Nat)
  free : Nat
  out : List Out
  readData : Nat
  cfg : ChipCfg
  fab : Fab
  cal : Cal
  parts : Tbl Part
  ctxs : Tbl Ctx
  loads : List CtxLoad
  transl : List Transl
  atsOn : Bool
  objs : Tbl Obj
  nextObj : Nat
  rings : Tbl Ring
  works : Tbl Work
  nextWork : Nat
  launches : Tbl Launch
  nextLaunch : Nat
  graphs : Tbl Graph
  nextGraph : Nat
  nextBlock : Nat
  imageReads : List ImageRead
  espWaits : Nat
  eps : Tbl Ep
  tasks : Tbl Task
  fences : Tbl Fence
  exports : List Export
  nextExport : Nat
  watch : List Nat
  listed : List Listed
  sigs : List PendSig
  marks : List FailMark
  mirrors : List (Nat × Nat × Option Nat)
  hostOps : List HostOp
  msgs : List EpMsg
  aborts : List AbortReq
  accepted : List Nat
  ran : List (Nat × Nat × Nat × Nat)
  once : List Nat
  latches : List (Agent × Nat × Nat)
  epoch : Nat
  cop : Coppice
  tables : Tbl Table
  nextTable : Nat
  marshal : Marshal
  pleach : Pleach
  later : List Later
  svc : Svc
  pwr : Power
  stop : Stop
  flt : Faults
  fw : Fw
  bw : Boxwood
  arb : Arb
  ic : Ic
  boot : Boot
  shears : Shears
  shownWarm : Nat
  fenced : Nat
  dispTable : Tbl Nat
  pcnt : Tbl Counters
  gcnt : Counters
  epCopy : Tbl (Nat × Nat × Nat × Nat)
  resetFtc : Int
  trace : TraceUnit
  tapIr : Nat
deriving DecidableEq, Repr

/-! ### Reset (14 R399) -/

/-- The fabric time unit after a reset, at an FTC.
Mark: DEDUCED (notes/assumptions/108.md). -/
def Fab.reset (ftc chip chips : Nat) : Fab :=
  { ftc := ftc, sync := .free, isRoot := false, noRoot := false, rootChip := 0, parent := none, hopsToRoot := 0,
    calValid := false, aligned := false, waitingResp := false, good := 0, missed := 0, leadTicks := 32, syncPeriod := 10,
    lateStrict := false, holdFull := false, unlockedApply := false, linkWentDown := false, offset := 0, worstPath := 0,
    worstHops := 0, late := 0, refused := 0, incarnation := 0, accepted := [], seqTo := [], origin := [], hold := [],
    heard := [], echoes := [], chip := chip, fabricChips := chips, links := [], linksUp := 0 }

/-- The calendar after a reset: its time, INVALID and CELL_LOW are kept. -/
def Cal.reset (c : Cal) : Cal :=
  { c with capFtc := 0, capSec := 0, latchSec := [], adj := 0, source := 0, ptpLocked := false, utc := 0, slew := 0,
           pendingSet := none }

/-- A calendar that was never set: notes/assumptions/5.md.
Mark: DESIGN CHOICE (notes/assumptions/5.md). -/
def Cal.never : Cal :=
  { sec := 0, sub := 0, invalid := true, capFtc := 0, capSec := 0, latchSec := [], adj := 0, source := 0,
    ptpLocked := false, cellLow := false, utc := 0, slew := 0, pendingSet := none, edge := 1000000000 }

/-- Shears after a reset. -/
def Shears.reset : Shears := { lastPart := 0, escalated := false, lastUs := 0, spanned := false, escCount := 0 }

/-- Mahorn right after a reset of some KIND is released: what the reset keeps is given.
Mark: DESIGN CHOICE (notes/assumptions/5.md). -/
def State.fresh (kind straps resets ftc chip chips : Nat) (cal : Cal) (flash : Flash) (fuseSvn : Nat)
    (cfg : ChipCfg) : State :=
  { pending := [], mem := [], stores := [], cleared := [], free := 0, out := [], readData := 0,
    cfg := { cfg.bare with rootCand := straps / 128 % 2 == 1 }, fab := Fab.reset ftc chip chips, cal := cal.reset, parts := [],
    ctxs := [], loads := [], transl := [], atsOn := false, objs := [], nextObj := 0, rings := [], works := [], nextWork := 0,
    launches := [], nextLaunch := 0, graphs := [], nextGraph := 0, nextBlock := 0, imageReads := [], espWaits := 0,
    eps := [], tasks := [], fences := [], exports := [], nextExport := 0, watch := [], listed := [], sigs := [], marks := [], mirrors := [],
    hostOps := [], msgs := [], aborts := [], accepted := [], ran := [], once := [], latches := [], epoch := 1, cop := Coppice.reset,
    tables := [], nextTable := 0, marshal := Marshal.reset, pleach := Pleach.reset, later := [], svc := Svc.reset,
    pwr := Power.reset, stop := Stop.reset, flt := Faults.reset, fw := Fw.reset flash fuseSvn, bw := Boxwood.reset,
    arb := Arb.reset, ic := Ic.reset, boot := Boot.start straps kind resets, shears := Shears.reset, shownWarm := 0, fenced := 0,
    dispTable := [], pcnt := [], gcnt := Counters.zero, epCopy := [], resetFtc := ftc, trace := TraceUnit.reset,
    tapIr := 0x01 }

/-- The machine right after the power-on reset of a full part: straps of 0, a blank flash, a calendar that was never
set (notes/assumptions/5.md).
Mark: DESIGN CHOICE (notes/assumptions/5.md). -/
def State.reset : State := State.fresh 1 0 0 0 0 1 Cal.never Flash.blank 0 ChipCfg.full

end Sys2Proof.Machine
end

