-- ==== Sys2Proof/Machine/Ops.lean ====
section
/-! DEFINITION. The named operations over memory, tables and the message out-box that every meaning uses. -/
namespace Sys2Proof.Machine

/-- The outcome type of every meaning. -/
abbrev Answer := Host.Outcome State Fault Refusal

/-! ### Memory: a list of (address, byte), addresses strictly rising, no byte 0 listed -/

/-- What a byte of device memory that nothing has written reads as: Mahorn clears every page it gives out
(06 R196, 14 R411). See notes/assumptions/2.md.
Mark: DEDUCED (notes/assumptions/2.md). -/
def Mem.unlisted : Byte := 0

/-- The byte at an address.
Mark: DEDUCED (notes/assumptions/2.md). -/
def Mem.get : List Host.Cell → Nat → Byte
  | [], _ => Mem.unlisted
  | (b, v) :: m, a => if b = a then v else Mem.get m a

/-- Store a byte, keeping the canonical form. -/
def Mem.put : List Host.Cell → Nat → Byte → List Host.Cell
  | [], a, v => if v = Mem.unlisted then [] else [(a, v)]
  | (b, u) :: m, a, v =>
    if a < b then (if v = Mem.unlisted then (b, u) :: m else (a, v) :: (b, u) :: m)
    else if b = a then (if v = Mem.unlisted then m else (a, v) :: m)
    else (b, u) :: Mem.put m a v

/-- Are all addresses of the list above `lo`, strictly rising, and is no unlisted value listed? -/
def Mem.wfFrom : Option Nat → List Host.Cell → Bool
  | _, [] => true
  | lo, (a, v) :: m =>
    (match lo with | none => true | some l => decide (l < a)) && decide (v ≠ Mem.unlisted) && Mem.wfFrom (some a) m

/-- The canonical form of memory. -/
def Mem.wf (m : List Host.Cell) : Bool := Mem.wfFrom none m

/-- Store bytes, the last of the list first. -/
def Mem.putAll (new : List Host.Cell) (m : List Host.Cell) : List Host.Cell :=
  new.foldr (fun c acc => Mem.put acc c.1 c.2) m

/-- The newest byte that the running command stored at an address. -/
def newest : List Host.Cell → Nat → Option Byte
  | [], _ => none
  | (b, v) :: m, a => if b = a then some v else newest m a

/-- Does an address lie in one of the ranges (first address, bytes)? -/
def inRanges (rs : List (Nat × Nat)) (a : Nat) : Bool :=
  rs.any fun r => decide (r.1 ≤ a) && decide (a < r.1 + r.2)

/-- Read one byte of device memory.
Mark: DEDUCED (notes/assumptions/2.md). -/
def State.readByte (s : State) (a : Nat) : Byte :=
  match newest s.stores a with
  | some v => v
  | none => if inRanges s.cleared a then Mem.unlisted else Mem.get s.mem a

/-- Read `n` bytes of device memory from an address. -/
def State.readBytes (s : State) : Nat → Nat → List Byte
  | _, 0 => []
  | a, n + 1 => s.readByte a :: s.readBytes (a + 1) n

/-- Read a little-endian number of `n` bytes. -/
def State.readNat (s : State) (a n : Nat) : Nat := leNat (s.readBytes a n)

/-- Store one byte of device memory. -/
def State.store (s : State) (a : Nat) (v : Byte) : State := { s with stores := (a, v) :: s.stores }

/-- Store bytes from an address upward. -/
def State.storeBytes (s : State) : Nat → List Byte → State
  | _, [] => s
  | a, b :: bs => State.storeBytes (s.store a b) (a + 1) bs

/-- Store bytes at given addresses, first first. -/
def State.storeCells (s : State) (cs : List Host.Cell) : State :=
  { s with stores := cs.reverse ++ s.stores }

/-- Clear device memory from an address: bytes read 0 until stored again.
Mark: DEDUCED (notes/assumptions/136.md). -/
def State.clearBytes (s : State) (a n : Nat) : State :=
  { s with stores := s.stores.filter fun c => !inRanges [(a, n)] c.1, cleared := (a, n) :: s.cleared }

/-- Memory with the bytes of some ranges cleared. -/
def Mem.clear (rs : List (Nat × Nat)) (m : List Host.Cell) : List Host.Cell :=
  m.filter fun c => !inRanges rs c.1

/-- Run the effect of a command: what it clears and then what it stores lands in memory when it ends, in order,
and the queue of waiting commands is left as it is. -/
def State.run (s : State) (f : State → State) : State :=
  let t := f { s with stores := [], cleared := [] }
  { t with mem := Mem.putAll t.stores (Mem.clear t.cleared s.mem), stores := [], cleared := [],
           pending := s.pending }

/-- The answer of a command that completes. Without module power nothing happens (01 R27).
Mark: DESIGN CHOICE (notes/assumptions/13.md). -/
def State.after (s : State) (f : State → State) : Answer := .next (s.run fun t => if t.boot.unpowered then t else f t)

/-- The answer of a command that acts whether or not the module has power.
Mark: DESIGN CHOICE (notes/assumptions/13.md). -/
def State.always (s : State) (f : State → State) : Answer := .next (s.run f)

/-- Apply a list of changes in order. -/
def foldS {α : Type} (l : List α) (f : State → α → State) (s : State) : State := l.foldl f s

/-! ### Time -/

/-- The fabric time counter (01 R27). -/
def State.ftc (s : State) : Nat := s.fab.ftc

/-- Nanoseconds since the last reset, whatever steps the FTC took before bring-up (01 R27). -/
def State.sinceReset (s : State) : Nat := ((s.ftc : Int) - s.resetFtc).toNat

/-- The tick index (01 R17). -/
def State.tick (s : State) : Nat := s.fab.ftc / 64

/-- Microseconds of whole ticks. -/
def ticksToUs (n : Nat) : Nat := n * 64 / 1000

/-- Set DEFERRED in a stamp (01 R42).
Mark: DESIGN CHOICE (notes/assumptions/59.md). -/
def deferred (ftc : Nat) : Nat := ftc % 2 ^ 63 + 2 ^ 63

/-! ### Free values -/

/-- Take a free number.
Mark: DESIGN CHOICE (notes/assumptions/3.md). -/
def State.takeFree (s : State) : Nat × State := (Config.pick s.free, { s with free := s.free + 1 })

/-- The first of `start`, `start + 1`, … modulo `limit` that is not used, looking at `n` of them. -/
def probe (limit : Nat) (used : List Nat) : Nat → Nat → Option Nat
  | 0, _ => none
  | n + 1, i =>
    if limit = 0 then none
    else if used.contains (i % limit) then probe limit used n (i + 1) else some (i % limit)

/-- Take a number below `limit` that is not used; which one is free (02 R51, 06 R196).
Mark: DESIGN CHOICE (notes/assumptions/3.md). -/
def State.takeNumber (s : State) (limit : Nat) (used : List Nat) : Option Nat × State :=
  let (k, s') := s.takeFree
  (probe limit used (used.length + 1) k, s')

/-- Take a member of a list; which one is free.
Mark: DESIGN CHOICE (notes/assumptions/3.md). -/
def State.takeOne {α : Type} (s : State) (l : List α) : Option α × State :=
  let (k, s') := s.takeFree
  (l[k % l.length]?, s')

/-! ### Parts of the state by number -/

/-- Partition `p`. -/
def State.part (s : State) (p : Nat) : Part := Tbl.getD s.parts p Part.reset

/-- Shared source `n`. -/
def State.icSrc (s : State) (n : Nat) : IcSrc := Tbl.getD s.ic.srcs n (IcSrc.reset n)

/-- Change shared source `n`; a reserved source has no state. -/
def State.adjSrc (s : State) (n : Nat) (f : IcSrc → IcSrc) : State :=
  if (icReset n).isSome then { s with ic := { s.ic with srcs := Tbl.set s.ic.srcs n (f (s.icSrc n)) } } else s

/-- Raise a shared source: an edge is latched in PENDING. -/
def State.raise (s : State) (n : Nat) : State := s.adjSrc n fun x => { x with pending := true }

/-- Raise ADMIN_DB of a partition (13 R392). -/
def State.raiseAdminDb (s : State) (p : Nat) : State := s.raise (64 + p)

/-- Change the boot unit. -/
def State.adjBoot (s : State) (f : Boot → Boot) : State := { s with boot := f s.boot }

/-- Change partition `p`. -/
def State.adjPart (s : State) (p : Nat) (f : Part → Part) : State :=
  { s with parts := Tbl.set s.parts p (f (s.part p)) }

/-- Change a counter of partition `p`. -/
def State.adjCounts (s : State) (p : Nat) (f : PartCounts → PartCounts) : State :=
  s.adjPart p fun q => { q with counts := f q.counts }

/-- Vector `v` of partition `p`. -/
def State.vec (s : State) (p v : Nat) : Vec := Tbl.getD (s.part p).vecs v Vec.reset

/-- Change vector `v` of partition `p`. -/
def State.adjVec (s : State) (p v : Nat) (f : Vec → Vec) : State :=
  s.adjPart p fun q => { q with vecs := Tbl.set q.vecs v (f (Tbl.getD q.vecs v Vec.reset)) }

/-- The ring of a key, if it exists. -/
def State.ring? (s : State) (k : Nat) : Option Ring := Tbl.get? s.rings k

/-- Change a ring. -/
def State.adjRing (s : State) (k : Nat) (f : Ring → Ring) : State := { s with rings := Tbl.adjust s.rings k f }

/-- The context of a key, if it exists. -/
def State.ctx? (s : State) (k : Nat) : Option Ctx := Tbl.get? s.ctxs k

/-- Change a context. -/
def State.adjCtx (s : State) (k : Nat) (f : Ctx → Ctx) : State := { s with ctxs := Tbl.adjust s.ctxs k f }

/-- The started command of a number. -/
def State.work? (s : State) (w : Nat) : Option Work := Tbl.get? s.works w

/-- Change a started command. -/
def State.adjWork (s : State) (w : Nat) (f : Work → Work) : State := { s with works := Tbl.adjust s.works w f }

/-- The launch of a number. -/
def State.launch? (s : State) (l : Nat) : Option Launch := Tbl.get? s.launches l

/-- Change a launch. -/
def State.adjLaunch (s : State) (l : Nat) (f : Launch → Launch) : State :=
  { s with launches := Tbl.adjust s.launches l f }

/-- Endpoint `e`. -/
def State.ep (s : State) (e : Nat) : Ep := Tbl.getD s.eps e Ep.idle

/-- Change endpoint `e`. -/
def State.adjEp (s : State) (e : Nat) (f : Ep → Ep) : State := { s with eps := Tbl.set s.eps e (f (s.ep e)) }

/-- The fence of a key. -/
def State.fence? (s : State) (k : Nat) : Option Fence := Tbl.get? s.fences k

/-- Change a fence. -/
def State.adjFence (s : State) (k : Nat) (f : Fence → Fence) : State :=
  { s with fences := Tbl.adjust s.fences k f }

/-- The object of a number. -/
def State.obj? (s : State) (o : Nat) : Option Obj := Tbl.get? s.objs o

/-- The partition is enabled and in force (02 R53). -/
def State.isUp (s : State) (p : Nat) : Bool := (s.part p).up

/-- Is the partition being torn down (02 R57)? -/
def State.resetting (s : State) (p : Nat) : Bool := (s.part p).teardown.isSome

/-- Emit a message. -/
def State.send (s : State) (o : Out) : State := { s with out := s.out ++ [o] }

/-! ### Status codes (07 R213) -/

/-- The code of a status. -/
def Status.code : Status → Nat
  | .done => 0x00 | .aborted => 0x01 | .alreadyDone => 0x02 | .malformed => 0x10 | .badOpcode => 0x11
  | .staleHandle => 0x12 | .access => 0x13 | .pageFault => 0x14 | .graphBusy => 0x15 | .timeout => 0x20
  | .deadline => 0x21 | .shed => 0x22 | .memDetected => 0x30 | .coreFenced => 0x31 | .epochExpired => 0x32
  | .fenceSaturated => 0x33 | .fenceFailed => 0x34 | .stopped => 0x40 | .teardown => 0x41

/-- The status of a code, CS_DONE for codes that are never written. -/
def Status.ofCode : Nat → Status
  | 0x01 => .aborted | 0x02 => .alreadyDone | 0x10 => .malformed | 0x11 => .badOpcode
  | 0x12 => .staleHandle | 0x13 => .access | 0x14 => .pageFault | 0x15 => .graphBusy | 0x20 => .timeout
  | 0x21 => .deadline | 0x22 => .shed | 0x30 => .memDetected | 0x31 => .coreFenced | 0x32 => .epochExpired
  | 0x33 => .fenceSaturated | 0x34 => .fenceFailed | 0x40 => .stopped | 0x41 => .teardown
  | _ => .done

/-- The rank of an abort status: the lower number wins (07 R223). -/
def Status.rank : Status → Nat
  | .teardown => 1 | .stopped => 2 | .coreFenced => 3 | .shed => 4 | .epochExpired => 5 | .deadline => 6
  | .timeout => 7 | _ => 8

/-- A plain end. -/
def Res.of (st : Status) (detail : Nat) : Res := { st := st, detail := detail, addr := none, stamp := none, io := false }

/-- CS_DONE. -/
def Res.ok : Res := Res.of .done 0

/-- CS_ACCESS with a DETAIL. -/
def acc (d : Nat) : Res := Res.of .access d

/-- CS_MALFORMED with a DETAIL. -/
def mal (d : Nat) : Res := Res.of .malformed d

/-- The end that a failed memory access gives a command (02 R55, 11 R329). -/
def ioStatus : IoFail → Status
  | .pageFault => .pageFault
  | .access => .access
  | .timedOut => .access
  | .poisoned => .memDetected
  | .memDetected => .memDetected
  | .ownState => .memDetected

/-- The DETAIL of a failed access (11 R329).
Mark: DEDUCED (notes/assumptions/50.md). -/
def ioDetail : IoFail → Nat
  | .pageFault => 0
  | .access => 0
  | .timedOut => 0x02E3
  | .poisoned => 0x02E2
  | .memDetected => 0x02E0
  | .ownState => 0x02E1

/-- A failed access as an end: the fault address is the address accessed. -/
def ioRes (why : IoFail) (addr : Nat) : Res :=
  { st := ioStatus why, detail := ioDetail why, addr := some addr, stamp := none, io := true }

/-- A check that must hold. -/
def need (b : Bool) (r : Res) : Option Res := if b then none else some r

/-- The first failure of a list of checks (04 R108, 03 R98). -/
def firstOf : List (Option Res) → Option Res
  | [] => none
  | some r :: _ => some r
  | none :: l => firstOf l

/-! ### Trace (15 R428-R436) -/

/-- The source class bit of a source number (15 R435, R440). -/
def srcClass (n : Nat) : Option Nat :=
  if n < 512 then some (n % 4)
  else if n < 520 then some 4
  else if n < 522 then some 5
  else if n < 526 then some 6
  else if 768 ≤ n ∧ n < 800 then some 7
  else if 800 ≤ n ∧ n ≤ 809 then some 8
  else none

/-- Is the source enabled while trace is ON (15 R435)? -/
def TraceUnit.enabled (t : TraceUnit) (n : Nat) : Bool :=
  match srcClass n with
  | none => false
  | some c => bitOf t.classes c && (decide (512 ≤ n) || (decide (t.coreLo ≤ n / 4) && decide (n / 4 ≤ t.coreHi)))

/-- Does the event pass the filters of 15 R435? -/
def TraceUnit.passes (t : TraceUnit) (m : TraceMsg) : Bool :=
  bitOf t.events m.event && decide (1 ≤ m.event) && decide (m.event ≤ 14) &&
    (!(decide (m.event ≤ 4) || m.event == 8) || (match m.part with | none => false | some p => bitOf t.parts p))

/-- A source has an event in this tick: it sends a TRACE message if trace was ON at the start of the tick,
the source is enabled, the filters let the event pass, and it holds a slot it has not used (15 R429, R435). -/
def State.trace1 (s : State) (m : TraceMsg) : State :=
  let t := s.trace
  if t.onTick && t.enabled m.src && t.passes m then
    if t.holders.contains m.src && !(t.sent.any fun x => x.msg.src == m.src) then
      { s with trace := { t with sent := t.sent ++ [{ msg := m, loss := t.owed.contains m.src }],
                                 owed := t.owed.filter fun x => x != m.src } }
    else
      { s with trace := { t with lost := satInc 32 t.lost,
                                 owed := if t.owed.contains m.src then t.owed else m.src :: t.owed } }
  else s

/-- An event of a Mahorn part: its instant within the tick is not stated, so OFFSET is a free value
(01 R43; notes/assumptions/3.md).
Mark: DESIGN CHOICE (notes/assumptions/3, 59.md). -/
def State.event (s : State) (src event : Nat) (part : Option Nat) (d0 d1 d2 : Nat) : State :=
  let (k, s') := s.takeFree
  s'.trace1 { src := src, event := event, offset := k % 64, deferred := false, part := part,
              d0 := d0 % 2 ^ 32, d1 := d1 % 2 ^ 32, d2 := d2 % 2 ^ 32 }

/-! ### Interrupt messages (07 R210, R211) -/

/-- Issue an MSI-X message on vector `v` of partition `p`, or set its pending bit while it is masked; none goes out and
none is kept during a teardown of the partition (07 R225). -/
def State.msix (s : State) (p v : Nat) : State :=
  if (s.part p).teardown.isSome then s
  else if (s.part p).funcMask || (s.vec p v).masked then s.adjVec p v fun x => { x with pendingBit := true }
  else s.send (.msix p v)

/-- Record a context fault (02 R64); `addr` is 0 where none applies. -/
def State.ctxFault (s : State) (k : Nat) (status opcode addr : Nat) : State :=
  match s.ctx? k with
  | none => s
  | some c =>
    let s1 := s.adjCtx k fun c =>
      { c with faulted := true, faultCount := satInc 16 c.faultCount,
               faultStatus := if c.faulted then c.faultStatus else status }
    if c.faulted then s1
    else
      let p := keyPart k
      let s2 := s1.adjPart p fun q =>
        { q with fault := true, faultCtx := keyLocal k, faultStatus := status, faultOpcode := opcode,
                 faultAddr := addr, faultFtc := s.ftc % 2 ^ 63 }
      s2.msix p (s2.part p).faultVector

/-- A context fault that is recorded in a tick takes effect at the next boundary (01 R19; 02 R65).
Mark: DEDUCED (notes/assumptions/16.md). -/
def State.faultSoon (s : State) (k status opcode addr : Nat) : State :=
  { s with later := s.later ++ [.ctxFault k status opcode addr] }

/-! ### Objects and pages (06 R194-R199) -/

/-- The device address of a byte of an object. -/
def Obj.addr (o : Obj) (off : Nat) : Nat :=
  match o.pages with
  | [] => off
  | [a] => a + off
  | ps => ps.getD (off / Config.pageBytes) 0 + off % Config.pageBytes

/-- The device address of a resolved place; a host address stays as it is. -/
def State.locAddr (s : State) : Loc → Nat
  | .host a => a
  | .dev o off => match s.obj? o with | some x => x.addr off | none => off

/-- Move a resolved place on by some bytes. -/
def Loc.plus : Loc → Nat → Loc
  | .host a, n => .host (a + n)
  | .dev o off, n => .dev o (off + n)

/-- Is the place in host memory? -/
def Loc.isHost : Loc → Bool
  | .host _ => true
  | .dev _ _ => false

/-! ### Accesses that Mahorn issues (02 R54; 13 R385-R387) -/

/-- Inputs 3 to 7 of the memory port carry restart-class transfers. -/
def arbRestart (k : Nat) : Bool := decide (3 ≤ k)

/-- The most sectors of a transfer at an input. -/
def arbMost (k : Nat) : Nat := if arbRestart k then 32 else 1024

/-- Places of the queue of an input. -/
def arbQueue : Nat := 4

/-- Pending transfers of an input: those of its queue but for one that is granted and moves (13 R387).
Mark: DEDUCED (notes/assumptions/102.md). -/
def Arb.depth (a : Arb) (k : Nat) : Nat := (a.queues.getD k []).length - natOfBool (a.going && a.owner == k)

/-- Transfers that parts wait to present go to the tail of their input's queue while it has room.
Mark: DEDUCED (notes/assumptions/102.md). -/
def Arb.queueUp (a : Arb) : Arb :=
  let room := fun (k : Nat) => arbQueue - a.depth k
  { a with
    queues := (List.range 8).map fun k => a.queues.getD k [] ++ (a.wait.getD k []).take (room k)
    wait := (List.range 8).map fun k => (a.wait.getD k []).drop (room k) }

/-- `n` sectors cut into transfers of at most `most`. -/
def cutXfers (most n : Nat) : List Nat :=
  List.replicate (n / most) most ++ if n % most = 0 then [] else [n % most]

/-- Sectors that `n` bytes from an address touch. -/
def sectorsIn (a n : Nat) : Nat := if n = 0 then 0 else (a + n - 1) / 64 + 1 - a / 64

/-- The transfers of an access of `n` sectors at input `k`. -/
def xfersOf (k : Nat) (write : Bool) (addr : Option Nat) (n : Nat) : List Xfer :=
  let l := cutXfers (arbMost k) n
  (List.range l.length).map fun i =>
    { sectors := l.getD i 0, moved := 0, write := write, addr := addr.map fun a => a / 64 * 64 + 64 * arbMost k * i }

/-- A part of Mahorn presents an access of `n` sectors at an input of the memory port; where the queue is full it waits.
Mark: DEDUCED (notes/assumptions/102.md). -/
def State.presentAt (s : State) (k : Nat) (write : Bool) (addr : Option Nat) (n : Nat) : State :=
  { s with arb := { s.arb with wait := s.arb.wait.set k (s.arb.wait.getD k [] ++ xfersOf k write addr n) }.queueUp }

/-- The PASID of a context. -/
def State.pasidOf (s : State) (ck : Nat) : Nat := match s.ctx? ck with | some c => c.pasid | none => 0

/-- It presents an access to a place that the spec does not lay out.
Mark: DEDUCED (notes/assumptions/102.md). -/
def State.present (s : State) (k n : Nat) : State := s.presentAt k false none n

/-- Mahorn issues a read of `n` bytes for a context: of host memory with the requester ID of the partition and the PASID
of the context, of device memory at an input of its port.
Mark: DEDUCED (notes/assumptions/102.md). -/
def State.issueRead (s : State) (ck k : Nat) (l : Loc) (n : Nat) : State :=
  match l with
  | .host a => s.send (.hostRead (keyPart ck) (s.pasidOf ck) a n)
  | .dev _ _ => s.presentAt k false (some (s.locAddr l)) (sectorsIn (s.locAddr l) n)

/-- Read bytes at a resolved device place, byte by byte through the object's pages. -/
def State.readLoc (s : State) (l : Loc) : Nat → List Byte
  | 0 => []
  | n + 1 => s.readByte (s.locAddr l) :: s.readLoc (l.plus 1) n

/-- Store bytes at a resolved device place. -/
def State.storeLoc (s : State) (l : Loc) : List Byte → State
  | [] => s
  | b :: bs => State.storeLoc (s.store (s.locAddr l) b) (l.plus 1) bs

/-- Bytes of host memory as they are read in this tick: free values.
Mark: DESIGN CHOICE (notes/assumptions/147.md). -/
def State.hostBytes (s : State) (ck a n : Nat) : List Byte := (List.range n).map fun i => Config.hostByte ck s.tick (a + i)

/-- A context uses the translation of a host page of 4 KiB, which is cached while the host has ATS enabled (02 R55).
Mark: DEDUCED (notes/assumptions/24.md). -/
def State.useHost (s : State) (ck a : Nat) : State :=
  let t : Transl := { ctx := ck, page := a / 4096, closing := false }
  if s.atsOn && !s.transl.contains t then { s with transl := s.transl ++ [t] } else s

/-- Write bytes at a place for a context: device memory is stored to, a host write goes out on PP0 with the
partition and PASID of the context (02 R54).
Mark: DESIGN CHOICE (notes/assumptions/54.md). -/
def State.writeLoc (s : State) (ck : Nat) (l : Loc) (bs : List Byte) : State :=
  match l with
  | .dev _ _ => s.storeLoc l bs
  | .host a =>
    (s.useHost ck a).send (.hostWrite (keyPart ck) (s.pasidOf ck) a bs)

/-- A part of Mahorn writes device memory through an input of the memory port.
Mark: DEDUCED (notes/assumptions/102.md). -/
def State.portWrite (s : State) (k : Nat) (l : Loc) (bs : List Byte) : State :=
  (s.presentAt k true (some (s.locAddr l)) (sectorsIn (s.locAddr l) bs.length)).storeLoc l bs

/-- Does a page lie in one of the page ranges (base, pages)? -/
def inPage (rs : List (Nat × Nat)) (i : Nat) : Bool :=
  rs.any fun r => decide (r.1 ≤ i * Config.pageBytes) && decide (i * Config.pageBytes < r.1 + r.2 * Config.pageBytes)

/-- Does every page of a device range lie in the page ranges? Ranges that adjoin count as one (02 R69). -/
def inPages (rs : List (Nat × Nat)) (a n : Nat) : Bool :=
  (List.range ((a + n - 1) / Config.pageBytes + 1 - a / Config.pageBytes)).all fun i => inPage rs (a / Config.pageBytes + i)

/-- Does a device range lie in the partition's pages of one tier (02 R69)? -/
def State.ownsRange (s : State) (p a n : Nat) : Bool :=
  inPages (s.part p).pages0 a n || inPages (s.part p).pages1 a n

/-- Pages of tier 0 with so many stacks of 48 GB, rounded down (14 R412). -/
def tier0Pages (stackCount : Nat) : Nat := 48000000000 * stackCount / Config.pageBytes

/-- Is an address device memory at all (14 R412)? -/
def deviceAddr (c : ChipCfg) (a : Nat) : Bool :=
  decide (a < tier0Pages c.stackCount * Config.pageBytes) ||
    (c.tier1 && decide (Config.tier1Base ≤ a) && decide (a < Config.tier1Base + Config.pages1 * Config.pageBytes))

/-- The objects that a list of places names. -/
def locNums : List Loc → List Nat
  | [] => []
  | .dev o _ :: l => o :: locNums l
  | .host _ :: l => locNums l

/-- The objects that some work, task, image read or table keeps: a pin, or the memory of a table.
Mark: DEDUCED (notes/assumptions/52.md). -/
def State.pinned (s : State) : List Nat :=
  s.works.flatMap (fun e => e.2.pins) ++ (s.tasks.filter fun e => !e.2.queueHost).map (fun e => e.2.queue) ++
    s.imageReads.map (fun r => r.obj) ++
    s.tables.flatMap (fun e => [e.2.slots, e.2.map] ++ locNums e.2.loadSrc.toList ++
      e.2.stages.flatMap fun j => locNums [j.idx, j.data]) ++
    s.launches.flatMap fun e => e.2.nodes.filterMap fun n =>
      match n with | .waiting _ _ _ k => k.pin | _ => none

/-- The objects that some live handle names. -/
def State.handled (s : State) : List Nat :=
  s.ctxs.flatMap fun e => e.2.handles.filterMap fun h => h.2.obj

/-- Return to its partition the memory of every object that no handle and no pin keeps (06 R197, R198).
Mark: DEDUCED (notes/assumptions/52.md). -/
def State.dropObjs (s : State) : State :=
  let keep := s.handled ++ s.pinned
  { s with objs := s.objs.filter fun e => keep.contains e.1 }

/-! ### Espalier (04 R116, 05 R166, R172) -/

/-- Slots a launch holds beyond those of the entry or node that called it: its window, and one for a child or
service launch itself. -/
def Launch.slots (l : Launch) (works : Tbl Work) : Nat :=
  l.window + (match l.owner with
    | .work w => match Tbl.get? works w with
      | some x => match x.phase with | .launching _ => 0 | _ => 1
      | none => 1
    | _ => 1)

/-- Espalier slots held by work of partitions that `f` selects. -/
def State.slotsOf (s : State) (f : Nat → Bool) : Nat :=
  sumNat ((s.works.filter fun e =>
      f e.2.part && (match e.2.site with | .ring _ _ => true | .node _ _ => false)).map fun _ => 1) +
    sumNat ((s.launches.filter fun e => f e.2.part).map fun e => e.2.slots s.works)

/-- Are `n` more slots free within the partition's NODES ceiling and on the chip? -/
def State.slotsFree (s : State) (p n : Nat) : Bool :=
  decide (s.slotsOf (fun q => q == p) + n ≤ (s.part p).quota.nodes) &&
    decide (s.slotsOf (fun _ => true) + n ≤ Config.nodeSlots)

/-! ### Epoch pins and table epochs are in Tables.lean; aborts are queued here -/

/-- Decide an abort: it is applied in step 5 of the next boundary (07 R219). -/
def State.decideAbort (s : State) (whom : AbortTo) (st : Status) (detail : Nat) (urgent : Bool) : State :=
  { s with aborts := s.aborts ++ [{ whom := whom, st := st, detail := detail, urgent := urgent }] }

/-- Is a stop in force, or does it take effect at the boundary under way (11 R341)? -/
def State.cutting (s : State) : Bool :=
  s.stop.stopped || (match s.stop.plan with | some p => decide (p.at_ ≤ s.tick) | none => false)

/-- Send ABORT to an endpoint; one that is due at the cut of a stop is pending until its end (11 R341, R344). -/
def State.sendAbort (s : State) (e : Nat) (urgent : Bool) : State :=
  if s.cutting then { s with stop := { s.stop with aborts := s.stop.aborts ++ [(e, urgent)] } }
  else s.send (.abort e urgent)

/-- Do something unless a global stop is in force: Mahorn then makes no decision (11 R341).
Mark: DEDUCED (notes/assumptions/86.md). -/
def State.unlessStopped (s : State) (f : State → State) : State := if s.stop.stopped then s else f s

/-- Is the launch gate of an endpoint's cluster closed (12 R362)?
Mark: DEDUCED (notes/assumptions/90.md). -/
def State.gateClosed (s : State) (e : Nat) : Bool :=
  decide (e < 512) && (s.fw.procs.getD (11 + e / 64) Proc.reset).gate

/-- May an endpoint be sent a segment: it runs none, its core is not fenced, it has not failed and its clock runs?
Mark: DEDUCED (notes/assumptions/90.md). -/
def State.canTake (s : State) (e : Nat) : Bool :=
  let x := s.ep e
  x.seg.isNone && !x.hung && x.fatal.isNone && !x.clockStopped && !bitOf s.fenced (e / 4)

/-- Queue a host write for the next boundary (01 R23).
Mark: DESIGN CHOICE (notes/assumptions/9.md). -/
def State.hostOp (s : State) (o : HostOp) : State := { s with hostOps := s.hostOps ++ [o] }

/-- Queue a signal that reports Mahorn's own work, on a fence named with its value (06 R178). -/
def State.ownSignal (s : State) (fence : Nat) (value : Option Nat) : State :=
  { s with sigs := s.sigs ++ [{ src := .own, fence := fence, value := value }] }

/-! ### Fault registers (11 R329, R350) -/

/-- Change the fault registers. -/
def State.adjFlt (s : State) (f : Faults → Faults) : State := { s with flt := f s.flt }

/-- Uncorrected errors are counted, whatever their outcome (11 R329). -/
def State.countUe (s : State) (n : Nat) : State := s.adjFlt fun x => { x with ue := (x.ue + n) % Config.two64 }

/-- ARRAY_MAP of a core: all four arrays unless the fuses say otherwise. -/
def ChipCfg.arrays (c : ChipCfg) (core : Nat) : Nat := Tbl.getD c.arrayMap core 0xF % 16

end Sys2Proof.Machine
end

