-- ==== Sys2Proof/Machine/Operands.lean ====
section
/-! DEFINITION. The operand forms of commands: the entry header (03 R82), fields and reserved bits, the
memory reference (04 R109-R111), the predicate (04 R112), the engine target (04 R114, R115), the patch
record (04 R130), and the LEN of every opcode (04 R107, 03 R98). -/
namespace Sys2Proof.Machine

/-- Word `i` of a command; words beyond its end read 0. -/
def cw (e : Cmd) (i : Nat) : Word := e.getD i 0

/-- The field of width `w` at bit `lo` of byte `b` of a command; no field crosses an 8-byte word. -/
def fld (e : Cmd) (b lo w : Nat) : Nat := bitsOf (cw e (b / 8)).toNat (b % 8 * 8 + lo) w

/-- One bit of a command. -/
def flag (e : Cmd) (b lo : Nat) : Bool := fld e b lo 1 == 1

/-- Are the reserved places (byte, bit, width) all zero (00 R16)? -/
def zeros (e : Cmd) (l : List (Nat × Nat × Nat)) : Bool := l.all fun r => fld e r.1 r.2.1 r.2.2 == 0

/-- Are bytes `a` to `b - 1` all zero? Both are bounds within or at the edges of words. -/
def zeroBytes (e : Cmd) (a b : Nat) : Bool := (List.range (b - a)).all fun i => fld e (a + i) 0 8 == 0

/-! ### The header (03 R82) -/

/-- OPCODE. -/
def opcodeOf (e : Cmd) : Nat := fld e 0 0 8
/-- LEN in granules; 0 means 256. -/
def lenOf (e : Cmd) : Nat := if fld e 1 0 8 = 0 then 256 else fld e 1 0 8
/-- IRQ. -/
def irqOf (e : Cmd) : Bool := flag e 2 0
/-- FENCE_AFTER. -/
def fenceAfterOf (e : Cmd) : Bool := flag e 2 1
/-- BARRIER. -/
def barrierOf (e : Cmd) : Bool := flag e 2 2
/-- LOG_OK. -/
def logOkOf (e : Cmd) : Bool := flag e 2 3
/-- CLASS. -/
def classOf (e : Cmd) : Nat := fld e 3 0 4
/-- COOKIE. -/
def cookieOf (e : Cmd) : Nat := fld e 4 0 32
/-- The reserved header bits are zero. -/
def headerOk (e : Cmd) : Bool := zeros e [(2, 4, 4), (3, 4, 4)]

/-- What admin commands that have passed their checks and are not posted have set aside of a chip-wide pool, by what
`f` counts for one (03 R97, R446).
Mark: DEDUCED (notes/assumptions/29.md). -/
def State.aside (s : State) (f : Cmd → Nat) : Nat :=
  (s.works.map fun e => match e.2.phase with
    | .io .admin _ => f e.2.cmd
    | .decided r _ => if r.st = .done then f e.2.cmd else 0
    | _ => 0).foldl (fun a b => a + b) 0

/-- One record for each command of these opcodes. -/
def oneOf (ops : List Nat) (e : Cmd) : Nat := if ops.contains (opcodeOf e) then 1 else 0

/-- A command with its OPCODE field set. -/
def withOpcode (op : Nat) (e : Cmd) : Cmd :=
  match e with
  | [] => [BitVec.ofNat 64 (op + 256)]
  | w :: ws => (w &&& 0xFFFFFFFFFFFFFF00#64 ||| BitVec.ofNat 64 op) :: ws

/-! ### LEN (04 R107; the tables of the admin commands) -/

/-- LEN of the admin commands and of the commands with one LEN; none for NOP and for those that compute it. -/
def fixedLen : Nat → Option Nat
  | 0x02 => some 6 | 0x03 => some 5 | 0x04 => some 5 | 0x05 => some 8 | 0x08 => some 2 | 0x09 => some 2
  | 0x0A => some 3 | 0x0B => some 4 | 0x0C => some 2 | 0x0D => some 4 | 0x0E => some 5 | 0x0F => some 2
  | 0xC0 => some 1 | 0xC1 => some 1 | 0xC2 => some 4 | 0xC3 => some 2 | 0xC4 => some 1 | 0xC5 => some 2
  | 0xC6 => some 2 | 0xC8 => some 3 | 0xCA => some 1 | 0xCB => some 2 | 0xD0 => some 2 | 0xD1 => some 1
  | 0xD2 => some 2 | 0xD3 => some 2 | 0xD4 => some 2 | 0xD8 => some 2 | 0xD9 => some 1 | 0xE0 => some 5
  | 0xE1 => some 4 | 0xE2 => some 2 | 0xE3 => some 1 | 0xE4 => some 2 | 0xE8 => some 2 | 0xE9 => some 1
  | 0xEA => some 3 | 0xEB => some 2
  | _ => none

/-- Is LEN allowed for the opcode?
Mark: DESIGN CHOICE (notes/assumptions/138.md). -/
def lenOk (e : Cmd) : Bool :=
  match opcodeOf e with
  | 0x00 => true
  | 0x01 => lenOf e == 2 + fld e 10 0 8
  | 0xC9 => lenOf e == 2 + fld e 10 0 8
  | 0x10 => (lenOf e - 1) * 16 == fld e 10 0 16 * fld e 12 0 16
  | op => match fixedLen op with | some n => lenOf e == n | none => false

/-- Opcodes that have an entry in the dispatch table as the ROM holds it (04 R107; 03 R96). -/
def romOpcode (op : Nat) : Bool := decide (op = 0 ∨ op = 1 ∨ op = 0x10 ∨ op = 0xC9) || (fixedLen op).isSome

/-- Has the opcode an entry in the dispatch table (03 R83, 13 R376)?
Mark: DESIGN CHOICE (notes/assumptions/138.md). -/
def State.inDispatch (s : State) (op : Nat) : Bool :=
  match Tbl.get? s.dispTable op with
  | some v => bitOf v 15
  | none => romOpcode op

/-- Is it an admin opcode (03 R96)? -/
def isAdmin (op : Nat) : Bool := decide (0xC0 ≤ op)

/-- May a graph node hold the opcode (05 R154)? -/
def isNodeOpcode (op : Nat) : Bool :=
  decide (op = 0x00 ∨ (0x02 ≤ op ∧ op ≤ 0x05) ∨ (0x08 ≤ op ∧ op ≤ 0x10))

/-! ### Memory references (04 R109-R111) -/

/-- Reserved places of an MREF at byte `b`. -/
def mrefResv (b : Nat) : List (Nat × Nat × Nat) := [(b + 12, 1, 7), (b + 13, 0, 24)]

/-- OFFSET. -/
def mrefOff (e : Cmd) (b : Nat) : Nat := fld e b 0 64
/-- HANDLE. -/
def mrefHandle (e : Cmd) (b : Nat) : Nat := fld e (b + 8) 0 32
/-- HOST. -/
def mrefHost (e : Cmd) (b : Nat) : Bool := flag e (b + 12) 0

/-- The object that a handle names in a context, if it is live and of this generation. -/
def State.resolve (s : State) (ck h : Nat) : Option Nat :=
  match s.ctx? ck with
  | none => none
  | some c => match Tbl.get? c.handles (h % 2 ^ 20) with
    | none => none
    | some x => if x.gen = h / 2 ^ 20 then x.obj else none

/-- Has the index ever been allocated in the context? -/
def State.everAllocated (s : State) (ck h : Nat) : Bool :=
  match s.ctx? ck with
  | none => false
  | some c => Tbl.has c.handles (h % 2 ^ 20)

/-- Has the context HOST_ACCESS? -/
def State.hostAccess (s : State) (ck : Nat) : Bool :=
  match s.ctx? ck with | none => false | some c => c.hostAccess

/-- Steps 1 to 4 of 04 R110. -/
def State.mrefA (s : State) (ck : Nat) (e : Cmd) (b : Nat) : Option Res :=
  if mrefHost e b then
    firstOf [need (mrefHandle e b == 0) (mal 0x0102), need (s.hostAccess ck) (acc 0x000B)]
  else
    firstOf [need (s.everAllocated ck (mrefHandle e b)) (acc 0x0207),
             need (s.resolve ck (mrefHandle e b)).isSome (Res.of .staleHandle b)]

/-- The size of the object an MREF names; 0 where it names none. -/
def State.mrefSize (s : State) (ck : Nat) (e : Cmd) (b : Nat) : Nat :=
  match s.resolve ck (mrefHandle e b) with
  | none => 0
  | some o => match s.obj? o with | none => 0 | some x => x.size

/-- Steps 5 and 6 of 04 R110. -/
def State.mrefB (s : State) (ck : Nat) (e : Cmd) (b extent align : Nat) : Option Res :=
  firstOf [need (mrefHost e b || decide (mrefOff e b + extent ≤ s.mrefSize ck e b)) (acc 0x0206),
           need (mrefOff e b % align == 0) (mal 0x0105)]

/-- The place that a checked MREF names. -/
def State.mrefLoc (s : State) (ck : Nat) (e : Cmd) (b : Nat) : Loc :=
  if mrefHost e b then .host (mrefOff e b)
  else match s.resolve ck (mrefHandle e b) with
    | some o => .dev o (mrefOff e b)
    | none => .dev 0 (mrefOff e b)

/-! ### Destinations of admin queries (03 R105) -/

/-- The checks of a query's LOC bit at byte `b` and its DEST at bytes 16-23, for a report of `n` bytes. -/
def State.destChk (s : State) (p : Nat) (e : Cmd) (b n : Nat) : List (Option Res) :=
  [need (!flag e b 0 || s.hostAccess (pkey p 0)) (acc 0x000B),
   need (fld e 16 0 64 % 32 == 0) (mal 0x0105),
   need (flag e b 0 || s.ownsRange p (fld e 16 0 64) n) (acc 0x000C)]

/-! ### Local numbers (02 R67, R69) -/

/-- The fence number is below the FENCES ceiling. -/
def State.fenceBelow (s : State) (p f : Nat) : Bool := decide (f < (s.part p).quota.fences)

/-- The fence is allocated in, or imported into, the partition (not DRAINING: 06 R184). -/
def State.fenceLive (s : State) (p f : Nat) : Bool :=
  match s.fence? (pkey p f) with | some x => !x.draining | none => false

/-- The checks of a fence number that a command waits on or reads. -/
def State.fenceChk (s : State) (p f : Nat) : List (Option Res) :=
  [need (s.fenceBelow p f) (acc 0x0001), need (s.fenceLive p f) (acc 0x0230)]

/-- Has the partition the right to signal the fence: it is its own, or imported with the right? -/
def State.maySignal (s : State) (p f : Nat) : Bool :=
  match s.fence? (pkey p f) with | some x => x.signal | none => false

/-- The uid of the graph that a local number names. -/
def State.graphOf (s : State) (p g : Nat) : Option Nat :=
  (s.graphs.find? fun e => e.2.part == p && e.2.num == some g).map fun e => e.1

/-- The checks of a graph number (04 R129): below the ceiling, existing. -/
def State.graphChk (s : State) (p g : Nat) : List (Option Res) :=
  [need (decide (g < (s.part p).quota.graphs)) (acc 0x0001), need (s.graphOf p g).isSome (acc 0x0251)]

/-! ### Predicates (04 R112): 40 bytes at byte 8 of COND and LOOP -/

/-- OP of the predicate. -/
def predOp (e : Cmd) : Nat := fld e 24 0 3
/-- FENCE of the predicate. -/
def predFence (e : Cmd) : Bool := flag e 24 3
/-- The fence number of a fence predicate. -/
def predFenceNo (e : Cmd) : Nat := fld e 8 0 20

/-- Reserved places of the predicate; those of its MREF count where it holds one. -/
def predResv (e : Cmd) : List (Nat × Nat × Nat) :=
  [(24, 4, 4), (25, 0, 56)] ++ if predFence e = false ∧ predOp e < 4 then mrefResv 8 else []

/-- The checks of a predicate but for steps 5 and 6 of its MREF. -/
def State.predChk (s : State) (p ck : Nat) (e : Cmd) : List (Option Res) :=
  [need (decide (predOp e ≤ 4)) (mal 0x0104)] ++
  if predOp e = 4 then [need (!predFence e && zeroBytes e 8 24) (mal 0x0104)]
  else if predFence e then
    [need (fld e 8 20 12 == 0) (mal 0x0102), need (zeroBytes e 12 24) (mal 0x0104)] ++
      s.fenceChk p (predFenceNo e)
  else [s.mrefA ck e 8]

/-- Steps 5 and 6 of the predicate's MREF. -/
def State.predChkB (s : State) (ck : Nat) (e : Cmd) : List (Option Res) :=
  if predOp e < 4 ∧ predFence e = false then [s.mrefB ck e 8 8 8] else []

/-- The predicate of 04 R113 on a source value: (source AND MASK) OP OPERAND, unsigned. -/
def predHolds (e : Cmd) (v : Word) : Bool :=
  let x := v &&& cw e 5
  let y := cw e 4
  match predOp e with
  | 0 => x == y
  | 1 => x != y
  | 2 => decide (y.toNat ≤ x.toNat)
  | 3 => decide (x.toNat < y.toNat)
  | _ => true

/-! ### Engine targets (04 R114, R115): 32 bytes at byte 8 -/

/-- MODE: 0 CORES, 1 ANY, 2 ENDPOINT. -/
def tgtMode (e : Cmd) : Nat := fld e 8 0 3
/-- ENGINE: 0 MX, 1 VX, 2 GX, 3 DX. -/
def tgtEngine (e : Cmd) : Nat := fld e 9 0 3
/-- COUNT of ANY. -/
def tgtCount (e : Cmd) : Nat := fld e 10 0 16
/-- The endpoint of ENDPOINT. -/
def tgtEp (e : Cmd) : Nat := fld e 10 0 10
/-- CORE_MASK. -/
def tgtMask (e : Cmd) : Nat := fld e 24 0 64 + 2 ^ 64 * fld e 32 0 64

/-- Reserved places of the target block. -/
def tgtResv (e : Cmd) : List (Nat × Nat × Nat) :=
  [(8, 3, 5), (9, 3, 5), (12, 0, 32), (16, 0, 64)] ++ if tgtMode e = 2 then [(11, 2, 6)] else []

/-- The cores that a mask selects, rising. -/
def maskCores (m : Nat) : List Nat := (List.range 128).filter fun c => bitOf m c

/-- Is core `c` fenced? -/
def State.isFenced (s : State) (c : Nat) : Bool := bitOf s.fenced c

/-- Is the endpoint held by a persistent task? -/
def State.isHeld (s : State) (e : Nat) : Bool := (s.ep e).held.isSome

/-- PERSIST of a DISPATCH. -/
def persistOf (e : Cmd) : Bool := opcodeOf e == 0x02 && flag e 82 0

/-- PERSISTs that have been decided CS_DONE and install their task at the next boundary (04 R125). -/
def State.installing (s : State) : List Work :=
  (s.works.filter fun e => persistOf e.2.cmd && (match e.2.phase with | .decided r _ => r.st == .done | _ => false)).map
    fun e => e.2

/-- Is the endpoint held for a command that starts now? A PERSIST counts the endpoints of those of the same tick.
Mark: DESIGN CHOICE (notes/assumptions/143.md). -/
def State.heldFor (s : State) (per : Bool) (e : Nat) : Bool :=
  s.isHeld e || (per && s.installing.any fun x => x.insts.any fun i => i.ep == e)

/-- The eligible endpoints of an engine over the cores of a mask, rising: not fenced, not held. -/
def State.eligibleFor (s : State) (per : Bool) (engine mask : Nat) : List Nat :=
  ((maskCores mask).filter fun c => !s.isFenced c && !s.heldFor per (4 * c + engine)).map fun c => 4 * c + engine

/-- The eligible endpoints of an engine for work that goes on. -/
def State.eligible (s : State) (engine mask : Nat) : List Nat := s.eligibleFor false engine mask

/-- The checks of a target block (04 R114, then R115 in the start tick).
Mark: DEDUCED (notes/assumptions/89.md). -/
def State.tgtChk (s : State) (e : Cmd) : List (Option Res) :=
  let per := persistOf e
  [need (decide (tgtMode e ≤ 2)) (mal 0x0104), need (decide (tgtEngine e ≤ 3)) (mal 0x0104)] ++
  (match tgtMode e with
   | 0 =>
     [need (tgtCount e == 0) (mal 0x0104), need (tgtMask e != 0) (mal 0x0104),
      need ((maskCores (tgtMask e)).all fun c => !s.isFenced c) (Res.of .coreFenced 0x02E4),
      need ((maskCores (tgtMask e)).all fun c => !s.heldFor per (4 * c + tgtEngine e)) (acc 0x0208)]
   | 1 =>
     [need (decide (1 ≤ tgtCount e ∧ tgtCount e ≤ 128)) (mal 0x0104), need (tgtMask e != 0) (mal 0x0104),
      need (decide (s.eligibleFor per (tgtEngine e) (tgtMask e) ≠ [])) (Res.of .coreFenced 0x02E4)]
   | _ =>
     [need (decide (tgtEp e < 526)) (mal 0x0104), need (decide (tgtEp e < 512)) (acc 0x0201),
      need (tgtEp e % 4 == tgtEngine e) (mal 0x0104), need (tgtMask e == 0) (mal 0x0104),
      need (!s.isFenced (tgtEp e / 4)) (Res.of .coreFenced 0x02E4), need (!s.heldFor per (tgtEp e)) (acc 0x0208)])

/-- The endpoints of the instances 0 upward (04 R115). -/
def State.placement (s : State) (e : Cmd) : List Nat :=
  match tgtMode e with
  | 0 => (maskCores (tgtMask e)).map fun c => 4 * c + tgtEngine e
  | 1 =>
    let el := s.eligibleFor (persistOf e) (tgtEngine e) (tgtMask e)
    (List.range (tgtCount e)).map fun i => el.getD (i % el.length) 0
  | _ => [tgtEp e]

/-! ### Patch records (04 R130, R131) -/

/-- Record `j` of a command whose records stand from byte 32. -/
def patchAt (e : Cmd) (j : Nat) : Patch :=
  let b := 32 + 16 * j
  { node := fld e b 0 12, off := fld e (b + 2) 0 12, w64 := flag e (b + 3) 4, val := cw e (b / 8 + 1) }

/-- Reserved places of record `j`: bytes 12-15 must be zero where the patch is 4 bytes wide. -/
def patchResv (e : Cmd) (j : Nat) : List (Nat × Nat × Nat) :=
  let b := 32 + 16 * j
  [(b + 1, 4, 4), (b + 3, 5, 3), (b + 4, 0, 32)] ++ if flag e (b + 3) 4 then [] else [(b + 12, 0, 32)]

/-- The records of a LAUNCH or GRAPH_PATCH. -/
def patchesOf (e : Cmd) : List Patch := (List.range (fld e 10 0 8)).map (patchAt e)

/-- The width of a patch in bytes. -/
def Patch.width (p : Patch) : Nat := if p.w64 then 8 else 4

/-- The checks of a record against the node bodies of a generation. -/
def patchChk (bodies : List Cmd) (p : Patch) : List (Option Res) :=
  [need (decide (p.node < bodies.length)) (mal 0x0260),
   need (decide (8 ≤ p.off) && p.off % p.width == 0 &&
         decide (p.off + p.width ≤ 16 * lenOf (bodies.getD p.node []))) (mal 0x0261)]

/-- Write the patch into a body (04 R131). -/
def Patch.apply (p : Patch) (body : Cmd) : Cmd :=
  let i := p.off / 8
  let old := cw body i
  let new : Word :=
    if p.w64 then p.val
    else if p.off % 8 = 0 then old &&& 0xFFFFFFFF00000000#64 ||| p.val &&& 0xFFFFFFFF#64
    else old &&& 0xFFFFFFFF#64 ||| p.val <<< 32
  body.set i new

/-- Apply, in record order, the records that name node `i` (05 R165). -/
def applyPatches (ps : List Patch) (i : Nat) (body : Cmd) : Cmd :=
  (ps.filter fun p => p.node == i).foldl (fun b p => p.apply b) body

end Sys2Proof.Machine
end

