-- ==== Sys2Proof/Machine/Flags.lean ====
section
/-! DEFINITION. The status words and records that Mahorn shows: state codes and flags put together as the
registers and reports of the spec lay them out (02 R71; 03 R93, R105; 06 R176, R191; 07 R204, R212). -/
namespace Sys2Proof.Machine

/-- STATE of 03 R93. -/
def RingState.code : RingState → Nat
  | .disabled => 0 | .active => 1 | .blocked => 2 | .faulted => 3 | .stopped => 4

/-- STATE of 01 R34. -/
def SyncState.code : SyncState → Nat
  | .free => 0 | .acquiring => 1 | .locked => 2 | .unlocked => 3 | .detached => 4

/-- STATE of 05 R160. -/
def GraphState.code : GraphState → Nat
  | .loading => 1 | .ready => 2 | .loadFailed => 3

/-- MH_RING_STATE, CMD as 0 (03 R93). -/
def Ring.stateWord (r : Ring) : Nat :=
  r.state.code + 8 * natOfBool r.dbPending + 2 ^ 7 * natOfBool r.rejected + 2 ^ 8 * (r.faultStatus % 256) +
    2 ^ 16 * natOfBool r.slot.isSome + 2 ^ 17 * natOfBool r.staged.isSome + 2 ^ 32 * (r.faultIndex % 2 ^ 32)

/-- MH_RING_INFO (03 R93). -/
def Ring.infoWord (r : Ring) : Nat :=
  keyLocal r.ctx % 2 ^ 12 + 2 ^ 16 * (r.sizeLog2 % 32) + 2 ^ 21 * natOfBool r.loc + 2 ^ 31

/-- MH_RING_DROPS (03 R93). -/
def Ring.dropsWord (r : Ring) : Nat := r.piDrops % 2 ^ 16 + 2 ^ 16 * (r.dbIgnored % 2 ^ 16)

/-- The 32-byte report of RING_QUERY (03 R105). -/
def Ring.report (r : Ring) (ftc : Nat) : List Byte :=
  leBytes 4 r.pi ++ leBytes 4 r.ci ++ leBytes 8 r.stateWord ++ leBytes 4 r.infoWord ++ leBytes 4 r.dropsWord ++
    leBytes 8 (ftc % 2 ^ 63)

/-- MH_PART_CTX_STATE (02 R71). -/
def Ctx.stateWord (c : Ctx) : Nat :=
  1 + 2 * natOfBool c.resident + 4 * natOfBool c.faulted + 8 * natOfBool c.hostAccess + 16 * natOfBool c.lost +
    2 ^ 8 * (c.faultStatus % 256) + 2 ^ 16 * (c.faultCount % 2 ^ 16) + 2 ^ 32 * (c.pasid % 2 ^ 20)

/-- MH_PART_STATUS (02 R71). -/
def Part.statusWord (p : Part) : Nat :=
  natOfBool p.up + 2 * natOfBool p.teardown.isSome + 4 * natOfBool p.fault

/-- MH_PART_FAULT_LAST (02 R71). -/
def Part.faultWord (p : Part) : Nat :=
  p.faultCtx % 2 ^ 12 + 2 ^ 16 * (p.faultStatus % 256) + 2 ^ 24 * (p.faultOpcode % 256)

/-- MH_VEC_LAST (07 R212). -/
def Vec.lastWord (v : Vec) : Nat :=
  v.lastCookie % 2 ^ 32 + 2 ^ 32 * (v.lastRing % 2 ^ 14) + 2 ^ 46 * natOfBool v.lastFailed

/-- MH_VEC_CTRL (07 R212). -/
def Vec.ctrlWord (v : Vec) : Nat := v.holdoff % 2 ^ 16 + 2 ^ 16 * (v.batch % 256)

/-! ### Fence views (06 R176, R188) -/

/-- The record that holds a fence's value, state and waits: an import on this chip that has not been marked
FAILED names its home record; every other number names its own. -/
def State.homeOf (s : State) (k : Nat) : Nat :=
  match s.fence? k with
  | some f => match f.kind with
    | .localImport h _ => if f.failed then k else h
    | _ => k
  | none => k

/-- VALUE and FAILED of a fence number as a command sees them. -/
def State.fenceView (s : State) (k : Nat) : Nat × Bool :=
  match s.fence? (s.homeOf k) with
  | some f => (f.value, f.failed)
  | none => (0, true)

/-- The local fence number that a FENCE_WAIT, COND, LOOP or FENCE_SIGNAL names. -/
def fenceNo (e : Cmd) : Nat := fld e 8 0 20

/-- The started commands that wait on a home record and are not decided. -/
def State.waiters (s : State) (home : Nat) : List Nat :=
  s.works.filterMap fun e =>
    match e.2.phase with | .fenceWait h _ _ => if h = home then some e.1 else none | _ => none

/-- Placed waits on a home record, until their completions are applied (06 R180). -/
def State.waits (s : State) (home : Nat) : Nat := (s.works.filter fun e => e.2.waitOn == some home).length

/-- The number of exports of an own fence. -/
def State.exportsOf (s : State) (k : Nat) : Nat := (s.exports.filter fun x => x.fence == k).length

/-- The flags byte of the fence record (06 R176). -/
def State.fenceFlags (s : State) (k : Nat) (f : Fence) : Nat :=
  let imported := match f.kind with | .own => false | _ => true
  let remote := match f.kind with | .remoteImport _ _ _ => true | _ => false
  natOfBool (s.fenceView k).2 + 2 * natOfBool imported + 4 * natOfBool remote +
    8 * natOfBool (s.watch.contains (s.homeOf k)) + 16 * natOfBool f.synced + 32 * natOfBool f.draining

/-- The 32-byte record that FENCE_QUERY writes (06 R176). -/
def State.fenceRecord (s : State) (k : Nat) : List Byte :=
  match s.fence? k with
  | none => leBytes 8 0 ++ leBytes 8 0 ++ leBytes 8 0 ++ leBytes 8 0
  | some f =>
    let h := match s.fence? (s.homeOf k) with | some h => h | none => f
    leBytes 8 (s.fenceView k).1 ++ [BitVec.ofNat 8 (s.fenceFlags k f), BitVec.ofNat 8 (natOfBool f.signal)] ++
      [BitVec.ofNat 8 (s.exportsOf k), 0] ++ leBytes 4 (s.waits (s.homeOf k)) ++
      leBytes 4 h.low ++ leBytes 4 h.sat ++ leBytes 8 h.last

/-- MH_FENCE_STAT (06 R191). -/
def State.fenceStat (s : State) (k : Nat) : Nat :=
  match s.fence? k with
  | none => 0
  | some f =>
    let imported := match f.kind with | .own => false | _ => true
    let remote := match f.kind with | .remoteImport _ _ _ => true | _ => false
    natOfBool (!f.draining) + 2 * natOfBool (s.fenceView k).2 + 4 * natOfBool imported +
      8 * natOfBool remote + 16 * natOfBool (f.signal && !f.draining) + 32 * natOfBool f.synced

/-! ### Error records (07 R204, R205) -/

/-- The 32 bytes of an error record with its RNUM. -/
def ErrRec.bytes (e : ErrRec) (rnum : Nat) : List Byte :=
  leBytes 6 e.seq ++ leBytes 2 rnum ++ leBytes 4 e.cookie ++
    [BitVec.ofNat 8 e.status, BitVec.ofNat 8 e.opcode] ++ leBytes 2 e.detail ++ leBytes 8 e.stamp ++
    leBytes 8 e.addr

/-! ### Flits (01 R36) -/

/-- Bytes 0-43 of a flit. -/
def flitBytes (f : Flit) : List Byte :=
  leBytes 1 f.kind ++ leBytes 1 f.hops ++ leBytes 2 f.src ++ leBytes 2 f.dst ++ leBytes 2 f.seq ++
    leBytes 8 f.eff ++ leBytes 8 f.w0.toNat ++ leBytes 8 f.w1.toNat ++ leBytes 8 f.w2.toNat ++ leBytes 4 f.inc

/-- Does the flit's CRC match? -/
def flitCrcOk (f : Flit) : Bool := f.crc == crc32 (flitBytes f)

/-- The effective lead (01 R38).
Mark: DESIGN CHOICE (notes/assumptions/118.md). -/
def State.lead (s : State) : Nat := max s.fab.leadTicks (s.fab.worstPath + 4)

/-- Originate a flit (01 R36, R41): the next SEQ to its destination, this chip's INCARNATION. It returns the
SEQ it used. -/
def State.sendFlit (s : State) (kind dst eff : Nat) (w0 w1 w2 : Word) : Nat × State :=
  let q := Tbl.getD s.fab.seqTo dst 0
  let f : Flit := { kind := kind, hops := 7, src := s.fab.chip, dst := dst, seq := q, eff := eff, w0 := w0,
                    w1 := w1, w2 := w2, inc := s.fab.incarnation, crc := 0 }
  let f' := { f with crc := crc32 (flitBytes f) }
  (q, { s with fab := { s.fab with seqTo := Tbl.set s.fab.seqTo dst ((q + 1) % 2 ^ 16) } }.send (.flit f'))

/-- Originate a fence flit and note the partition that a REFUSAL of it is counted against (06 R190). -/
def State.sendFenceFlit (s : State) (p kind dst eff : Nat) (w0 w1 w2 : Word) : State :=
  if s.fab.sync = .free then s
  else
    let (q, s') := s.sendFlit kind dst eff w0 w1 w2
    { s' with fab := { s'.fab with origin := Tbl.set s'.fab.origin (dst * 2 ^ 16 + q) p } }

end Sys2Proof.Machine
end

