-- ==== Sys2Proof/Machine/Fences.lean ====
section
/-! DEFINITION. Fences (06): how a signal or a FAILED mark changes a record, exports and imports, watch slots,
and the checks and effects of the fence admin commands. -/
namespace Sys2Proof.Machine

/-! ### Signals (06 R178, R179; 04 R144) -/

/-- Count a low MAX signal against the signalling partition (06 R179). -/
def State.countLow (s : State) (p : Nat) : State :=
  s.adjCounts p fun c => { c with fenceLow := satInc 32 c.fenceLow }

/-- Count a dropped host or peer signal (06 R179, R190, R191).
Mark: DEDUCED (notes/assumptions/21.md). -/
def State.countDrop (s : State) (p : Nat) : State :=
  s.adjCounts p fun c => { c with fenceDrop := satInc 32 c.fenceDrop }

/-- The trace event of a change of a fence (15 R431). -/
def State.fenceEvent (s : State) (f : Fence) : State :=
  s.event 801 0x05 none (f.no % 2 ^ 20 + 2 ^ 20 * natOfBool f.failed) (f.value % 2 ^ 32) (f.value / 2 ^ 32)

/-- A home record takes a new value at this boundary. -/
def State.setFence (s : State) (h v : Nat) : State :=
  let s' := s.adjFence h fun f => { f with value := v, last := s.ftc % 2 ^ 63, changed := true }
  match s'.fence? h with | some f => s'.fenceEvent f | none => s'

/-- A MAX signal by partition `p` through its fence number `k`: it raises the value or counts as low; a FAILED
fence is left as it is. -/
def State.applyMax (s : State) (p k v : Nat) : State :=
  let h := s.homeOf k
  match s.fence? h with
  | none => s
  | some f =>
    if f.failed then s
    else if f.value < v then s.setFence h v
    else (s.adjFence h fun f => { f with low := satInc 32 f.low }).countLow p

/-- An INCREMENT by partition `p`: it adds, saturates with CS_FENCE_SATURATED, or finds the fence FAILED. -/
def State.applyInc (s : State) (p k v : Nat) : Status × State :=
  let h := s.homeOf k
  match s.fence? h with
  | none => (.fenceFailed, s)
  | some f =>
    if f.failed then (.fenceFailed, s)
    else if Config.two64 ≤ f.value + v then
      (.fenceSaturated, (s.adjFence h fun f => { f with sat := satInc 32 f.sat }).adjCounts p fun c =>
        { c with fenceSat := satInc 32 c.fenceSat })
    else if v = 0 then (.done, s)
    else (.done, s.setFence h (f.value + v))

/-- Mark a record FAILED (step 3 of 01 R24); a fence never leaves FAILED (06 R177). -/
def State.markRecord (s : State) (h : Nat) : State :=
  match s.fence? h with
  | none => s
  | some f =>
    if f.failed then s
    else
      let s' := s.adjFence h fun f => { f with failed := true, last := s.ftc % 2 ^ 63, changed := true }
      match s'.fence? h with | some f => s'.fenceEvent f | none => s'

/-- Mark the record that a number names FAILED. -/
def State.applyFail (s : State) (k : Nat) : State := s.markRecord (s.homeOf k)

/-- An import on this chip becomes FAILED by itself: it keeps the value it showed, and its waiters wait on it
alone from now on (06 R187, R188).
Mark: DEDUCED (notes/assumptions/46.md). -/
def State.failImport (s : State) (k : Nat) : State :=
  let old := s.homeOf k
  let s1 := s.adjFence k fun f =>
    let h := (s.fence? old).getD f
    { f with value := h.value, failed := true, low := h.low, sat := h.sat, changed := true
             last := if h.failed then h.last else s.ftc % 2 ^ 63 }
  let s1 := if (s.fenceView k).2 then s1 else match s1.fence? k with | some f => s1.fenceEvent f | none => s1
  if old = k then s1
  else
    let move := fun (_ : Nat) (w : Work) =>
      if opcodeOf w.cmd = 0x08 ∧ pkey w.part (fenceNo w.cmd) = k then
        { w with phase := (match w.phase with | .fenceWait h t pl => .fenceWait (if h = old then k else h) t pl | y => y)
                 waitOn := if w.waitOn = some old then some k else w.waitOn }
      else w
    let s2 : State := { s1 with works := Tbl.mapV s1.works move }
    if s2.watch.contains old ∧ s2.watch.length < Config.watchSlots then { s2 with watch := s2.watch ++ [k] }
    else { s2 with listed := s2.listed ++ [{ fence := k, changed := some s.tick }] }

/-! ### Exports and imports (06 R186-R190) -/

/-- An import on this chip that matches an export: it names the exported fence by the export's key.
Mark: DEDUCED (notes/assumptions/46.md). -/
def Fence.matchesLocal (f : Fence) (x : Export) : Bool :=
  match f.kind with | .localImport h key => h == x.fence && key == x.key && !f.failed | _ => false

/-- The word of bytes 32-39 of a fence flit (06 R189). -/
def fenceFlitWord (sender receiver dir : Nat) : Word :=
  BitVec.ofNat 64 (sender % 128 + 2 ^ 8 * (receiver % 128) + 2 ^ 16 * dir)

/-- An export is revoked or lost at this boundary: a matching import on this chip is marked FAILED, a remote
importer is sent FENCE_FAIL naming the effective lead (06 R187).
Mark: DEDUCED (notes/assumptions/46.md). -/
def State.loseExport (s : State) (x : Export) : State :=
  match x.chip with
  | none =>
    foldS ((s.fences.filter fun e => keyPart e.1 == x.part && e.2.matchesLocal x).map fun e => e.1)
      State.failImport s
  | some c =>
    s.sendFenceFlit (keyPart x.fence) 0x11 c (s.tick + s.lead) 0 (BitVec.ofNat 64 x.key)
      (fenceFlitWord (keyPart x.fence) x.part 1)

/-- Is a fence number homed on another chip? -/
def State.isRemote (s : State) (k : Nat) : Bool :=
  match s.fence? k with
  | some f => match f.kind with | .remoteImport _ _ _ => true | _ => false
  | none => false

/-- A signal by partition `p` to its fence `k` that is homed on another chip: the flit, naming tick `eff`, and
the same change of the mirror at that boundary (06 R190). -/
def State.signalRemote (s : State) (p k : Nat) (v : Option Nat) (eff : Nat) : State :=
  match s.fence? k with
  | some f =>
    match f.kind with
    | .remoteImport chip part key =>
      let s1 := match v with
        | some v => s.sendFenceFlit p 0x10 chip eff (BitVec.ofNat 64 v) (BitVec.ofNat 64 key)
            (fenceFlitWord p part 0)
        | none => s.sendFenceFlit p 0x11 chip eff 0 (BitVec.ofNat 64 key) (fenceFlitWord p part 0)
      { s1 with mirrors := s1.mirrors ++ [(eff, k, v)] }
    | _ => s
  | none => s

/-- A MAX signal, or a FAIL, that takes effect at this boundary on the fence of a number: of a host write, a message or
Mahorn's own work. A fence homed on another chip is signalled there, and its mirror with it (06 R178, R190); an import that
has been freed is not signalled.
Mark: DEDUCED (notes/assumptions/41.md). -/
def State.signalNow (s : State) (k : Nat) (v : Option Nat) : State :=
  if s.isRemote k then
    if s.fenceLive (keyPart k) (keyLocal k) then s.signalRemote (keyPart k) k v (s.tick + s.lead) else s
  else match v with
  | some v => s.applyMax (keyPart k) k v
  | none => s.applyFail k

/-- A FAILED mark for step 3 of this boundary. -/
def State.mark (s : State) (m : FailMark) : State := { s with marks := s.marks ++ [m] }

/-- Apply a FAILED mark.
Mark: DEDUCED (notes/assumptions/21.md). -/
def State.applyMark (s : State) (m : FailMark) : State :=
  match m with
  | .record k => s.applyFail k
  | .imported k => s.failImport k
  | .lost x => s.loseExport x
  | .report k => s.signalNow k none

/-- Revoke every export of a fence: what that does to importers follows in step 3. -/
def State.loseExports (s : State) (k : Nat) : State :=
  { s with exports := s.exports.filter fun x => x.fence != k,
           marks := s.marks ++ (s.exports.filter fun x => x.fence == k).map FailMark.lost }

/-- DIR 1 flits for the remote exports of every fence that changed at this boundary (06 R190): its new value,
or FENCE_FAIL once it is FAILED.
Mark: DEDUCED (notes/assumptions/85.md). -/
def State.sendUpdates (s : State) (b : Nat) : State :=
  foldS s.exports (fun s x =>
    match x.chip, s.fence? x.fence with
    | some c, some f =>
      if f.changed then
        if f.failed then
          s.sendFenceFlit (keyPart x.fence) 0x11 c (b + s.lead) 0 (BitVec.ofNat 64 x.key)
            (fenceFlitWord (keyPart x.fence) x.part 1)
        else
          s.sendFenceFlit (keyPart x.fence) 0x10 c (b + s.lead) (BitVec.ofNat 64 f.value)
            (BitVec.ofNat 64 x.key) (fenceFlitWord (keyPart x.fence) x.part 1)
      else s
    | _, _ => s) s

/-- Every 16,384 ticks each remote export of an unchanged fence is refreshed (06 R190). -/
def State.refreshExports (s : State) : State :=
  foldS s.exports (fun s x =>
    match x.chip, s.fence? x.fence with
    | some c, some f =>
      if f.changed then s
      else s.sendFenceFlit (keyPart x.fence) 0x10 c (s.tick + s.lead) (BitVec.ofNat 64 f.value)
        (BitVec.ofNat 64 x.key) (fenceFlitWord (keyPart x.fence) x.part 1)
    | _, _ => s) s

/-- A fence flit that takes effect: DIR 0 at the home chip, DIR 1 at the importer (06 R190).
Mark: DESIGN CHOICE (notes/assumptions/167.md). -/
def State.applyFenceFlit (s : State) (f : Flit) : State :=
  let sender := bitsOf f.w2.toNat 0 7
  let receiver := bitsOf f.w2.toNat 8 7
  let key := f.w1.toNat
  if bitOf f.w2.toNat 16 then
    foldS ((s.fences.filter fun e => keyPart e.1 == receiver && !e.2.draining &&
        e.2.kind == .remoteImport f.src sender key).map fun e => e.1) (fun s k =>
      let s1 := if f.kind = 0x10 then s.applyMax receiver k f.w0.toNat else s.markRecord k
      s1.adjFence k fun x => { x with synced := true }) s
  else
    match s.exports.find? fun x => x.key == key && x.part == sender && x.chip == some f.src &&
        keyPart x.fence == receiver && x.signal with
    | some x => if f.kind = 0x10 then s.applyMax receiver x.fence f.w0.toNat else s.applyFail x.fence
    | none => s.countDrop receiver

/-! ### Watch slots and the overflow list (06 R180-R182) -/

/-- When the earliest waiter of a home record started. -/
def State.firstWait (s : State) (home : Nat) : Nat :=
  match minBy (fun (x : Work) => x.started) ((s.works.filter fun e => e.2.waitOn == some home).map fun e => e.2) with
  | some x => x.started
  | none => 0

/-- Drop watch slots and list entries of fences without a waiter, then give each free slot to the listed fence
whose earliest waiter started earliest, ties to the lower chip-wide number (06 R182). A promoted fence is
checked once in the tick that follows. -/
def State.placeWatches (s : State) : State :=
  let watch := s.watch.filter fun h => s.waits h != 0
  let listed := s.listed.filter fun x => s.waits x.fence != 0
  promote (Config.watchSlots - watch.length) { s with watch := watch, listed := listed }
where
  /-- Give at most `n` free slots away. -/
  promote : Nat → State → State
    | 0, s => s
    | n + 1, s =>
      match minBy (fun x => s.firstWait x.fence * 2 ^ 21 +
          (match s.fence? x.fence with | some f => f.no | none => 0)) s.listed with
      | none => s
      | some x =>
        promote n { (s.present 4 1).adjFence x.fence fun f => { f with changed := true } with
          watch := s.watch ++ [x.fence], listed := s.listed.filter fun y => y.fence != x.fence }

/-- Place the fence of a wait whose first check did not complete it (06 R180). -/
def State.placeWait (s : State) (home : Nat) : State :=
  if s.watch.contains home || s.listed.any (fun x => x.fence == home) then s
  else if s.watch.length < Config.watchSlots then { s with watch := s.watch ++ [home] }
  else { s.present 4 1 with listed := s.listed ++ [{ fence := home, changed := none }] }

/-- Give back every DRAINING record whose last waiter has completed (06 R184). -/
def State.dropDrained (s : State) : State :=
  { s with fences := s.fences.filter fun e =>
      !(e.2.draining && s.waits e.1 == 0) }

/-! ### The fence admin commands -/

/-- Is a fence number of the partition neither in use nor DRAINING? -/
def State.fenceUnused (s : State) (p f : Nat) : Bool := (s.fence? (pkey p f)).isNone

/-- FENCE_ALLOC (06 R183): its checks. -/
def State.chkFenceAlloc (s : State) (p : Nat) (e : Cmd) : Option Res :=
  firstOf [need (zeros e [(10, 4, 12), (12, 0, 32), (24, 0, 64)]) (mal 0x0102),
           need (s.fenceBelow p (fenceNo e)) (acc 0x0001),
           need (s.fenceUnused p (fenceNo e)) (acc 0x0235),
           need (decide (s.fences.length + s.aside (oneOf [0xD0, 0xD3]) < Config.fenceRecords)) (acc 0x0236)]

/-- FENCE_ALLOC: the fence comes into existence. -/
def State.effFenceAlloc (s : State) (p : Nat) (e : Cmd) : State :=
  match s.takeNumber Config.fenceRecords (s.fences.map fun x => x.2.no) with
  | (none, s1) => s1
  | (some no, s1) =>
    let f : Fence := { no := no, kind := .own, value := fld e 16 0 64, failed := false, signal := true,
                       synced := false, draining := false, low := 0, sat := 0, last := 0, changed := false }
    { s1 with fences := Tbl.set s1.fences (pkey p (fenceNo e)) f }

/-- FENCE_FREE (06 R184): its checks. -/
def State.chkFenceFree (s : State) (p : Nat) (e : Cmd) : Option Res :=
  firstOf ([need (zeros e [(10, 4, 12), (12, 0, 32)]) (mal 0x0102)] ++ s.fenceChk p (fenceNo e))

/-- FENCE_FREE: an own fence is marked FAILED in step 3 and its exports are revoked; an import ceases to exist
and its waiters are released. The number is DRAINING until the last waiter's completion.
Mark: DESIGN CHOICE (notes/assumptions/164.md). -/
def State.effFenceFree (s : State) (p : Nat) (e : Cmd) : State :=
  let k := pkey p (fenceNo e)
  match s.fence? k with
  | none => s
  | some f =>
    let s1 := match f.kind with
      | .own => (s.mark (.record k)).loseExports k
      | _ => s.mark (.imported k)
    ({ s1 with mirrors := s1.mirrors.filter fun m => m.2.1 != k } : State).adjFence k fun f => { f with draining := true }

/-- The chip that a CHIP/LOCAL field pair names: none for this chip (06 R186, R188). -/
def State.chipField (s : State) (e : Cmd) : Option Nat :=
  if flag e 15 7 || fld e 14 0 15 == s.fab.chip then none else some (fld e 14 0 15)

/-- One export for a FENCE_EXPORT that makes one. -/
def newExport (e : Cmd) : Nat := if opcodeOf e = 0xD2 ∧ flag e 12 1 = false then 1 else 0

/-- FENCE_EXPORT (06 R186): its checks. -/
def State.chkFenceExport (s : State) (p : Nat) (e : Cmd) : Option Res :=
  let k := pkey p (fenceNo e)
  let q := fld e 13 0 7
  let chip := s.chipField e
  let revoke := flag e 12 1
  firstOf ([need (zeros e [(10, 4, 12), (12, 2, 6), (13, 7, 1), (24, 0, 64)]) (mal 0x0102)] ++
    s.fenceChk p (fenceNo e) ++
    [need (match s.fence? k with | some f => f.kind == .own | none => false) (acc 0x0238),
     need (chip.isSome || (s.isUp q && q != p)) (acc 0x0239),
     need (!flag e 15 7 || fld e 14 0 15 == 0) (mal 0x0104),
     need (fld e 16 0 64 != 0) (mal 0x0104),
     need (revoke || !(s.exports.any fun x => keyPart x.fence == p && x.key == fld e 16 0 64 && x.part == q &&
        x.chip == chip)) (acc 0x023A),
     need (!revoke || (s.exports.any fun x => x.fence == k && x.key == fld e 16 0 64 && x.part == q &&
        x.chip == chip)) (acc 0x023A),
     need (revoke || (decide (s.exportsOf k < Config.exportsOfFence) &&
        decide (s.exports.length + s.aside newExport < Config.exports))) (acc 0x0237)])

/-- FENCE_EXPORT: the export exists, or is revoked. -/
def State.effFenceExport (s : State) (p : Nat) (e : Cmd) : State :=
  let k := pkey p (fenceNo e)
  let x : Export := { fence := k, key := fld e 16 0 64, part := fld e 13 0 7, chip := s.chipField e,
                      signal := flag e 12 0, no := s.nextExport }
  if flag e 12 1 then
    let gone := s.exports.filter fun y => y.fence == k && y.key == x.key && y.part == x.part && y.chip == x.chip
    { s with exports := s.exports.filter fun y => !(y.fence == k && y.key == x.key && y.part == x.part && y.chip == x.chip),
             marks := s.marks ++ gone.map FailMark.lost }
  else { s with exports := s.exports ++ [x], nextExport := s.nextExport + 1 }

/-- The export that a local import names: of HOME_PARTITION, to this partition, with KEY. -/
def State.homeExport (s : State) (p : Nat) (e : Cmd) : Option Export :=
  s.exports.find? fun x => keyPart x.fence == fld e 13 0 7 && x.part == p && x.chip == none &&
    x.key == fld e 16 0 64

/-- FENCE_IMPORT (06 R188): its checks. -/
def State.chkFenceImport (s : State) (p : Nat) (e : Cmd) : Option Res :=
  let here := (s.chipField e).isNone
  firstOf [need (zeros e [(10, 4, 12), (12, 1, 7), (13, 7, 1), (24, 0, 64)]) (mal 0x0102),
           need (s.fenceBelow p (fenceNo e)) (acc 0x0001),
           need (s.fenceUnused p (fenceNo e)) (acc 0x0235),
           need (decide (s.fences.length + s.aside (oneOf [0xD0, 0xD3]) < Config.fenceRecords)) (acc 0x0236),
           need (!flag e 15 7 || fld e 14 0 15 == 0) (mal 0x0104),
           need (fld e 16 0 64 != 0) (mal 0x0104),
           need (!here || (s.homeExport p e).isSome) (acc 0x0239),
           need (!here || !flag e 12 0 || (match s.homeExport p e with | some x => x.signal | none => false))
             (acc 0x0234)]

/-- FENCE_IMPORT: the import comes into existence; where the export it was checked against, number `bound`, has gone by
now, it is marked FAILED in step 3 of this boundary.
Mark: DEDUCED (notes/assumptions/46.md). -/
def State.effFenceImport (s : State) (p : Nat) (e : Cmd) (bound : Option Nat) : State :=
  match s.takeNumber Config.fenceRecords (s.fences.map fun x => x.2.no) with
  | (none, s1) => s1
  | (some no, s1) =>
    let k := pkey p (fenceNo e)
    let base : Fence := { no := no, kind := .own, value := 0, failed := false, signal := flag e 12 0,
                          synced := false, draining := false, low := 0, sat := 0, last := 0, changed := false }
    let f : Fence :=
      match s.chipField e with
      | some c => { base with kind := .remoteImport c (fld e 13 0 7) (fld e 16 0 64) }
      | none =>
        match s.exports.find? fun x => bound == some x.no with
        | some x => { base with kind := .localImport x.fence x.key }
        | none => { base with kind := .localImport k 0 }
    let s2 : State := { s1 with fences := Tbl.set s1.fences k f }
    if f.kind = .localImport k 0 then s2.mark (.imported k) else s2

/-- FENCE_QUERY (06 R185): its checks; it may name a DRAINING fence. -/
def State.chkFenceQuery (s : State) (p : Nat) (e : Cmd) : Option Res :=
  firstOf ([need (zeros e [(10, 4, 12), (12, 1, 7), (13, 0, 24), (24, 0, 64)]) (mal 0x0102),
    need (s.fenceBelow p (fenceNo e)) (acc 0x0001),
    need (s.fence? (pkey p (fenceNo e))).isSome (acc 0x0230)] ++ s.destChk p e 12 32)

end Sys2Proof.Machine
end

