-- ==== Sys2Proof/Machine/MemObjects.lean ====
section
/-! DEFINITION. Memory objects and handles (06 R194-R199): where an object may be placed, and the checks and
effects of MEM_ALLOC and MEM_FREE. Placement within the rules is not architectural (R196): it is a free value. -/
namespace Sys2Proof.Machine

/-! ### Pages of a partition: ranges of (base, number of pages) -/

/-- The pages in a list of ranges. -/
def pageCount (rs : List (Nat × Nat)) : Nat := sumNat (rs.map fun r => r.2)

/-- The device address of page `i` of the ranges. -/
def pageAt : List (Nat × Nat) → Nat → Nat
  | [], _ => 0
  | (b, n) :: rs, i => if i < n then b + i * Config.pageBytes else pageAt rs (i - n)

/-- The index of the page at a device address in the ranges. -/
def pageIndex : List (Nat × Nat) → Nat → Nat
  | [], _ => 0
  | (b, n) :: rs, a =>
    if b ≤ a ∧ a < b + n * Config.pageBytes then (a - b) / Config.pageBytes else n + pageIndex rs a

/-- The pages of a tier of a partition. -/
def Part.pages (p : Part) (tier : Nat) : List (Nat × Nat) := if tier = 0 then p.pages0 else p.pages1

/-- The objects of a partition in a tier. -/
def State.objsIn (s : State) (p tier : Nat) : List Obj :=
  (s.objs.filter fun e => e.2.part == p && e.2.tier == tier).map fun e => e.2

/-- Bytes that an object of at most 2 MiB takes: whole granules of 4 KiB. -/
def granuleBytes (size : Nat) : Nat := roundUp size 4096

/-- The indices of the pages that objects use, without repeats. -/
def State.usedPages (s : State) (p tier : Nat) : List Nat :=
  dedupNat ((s.objsIn p tier).flatMap fun o => o.pages.map (pageIndex ((s.part p).pages tier)))

/-- The byte ranges (start, end) that small objects take in the page at address `a`, in rising order. -/
def State.takenIn (s : State) (p tier a : Nat) : List (Nat × Nat) :=
  sortBy (fun x y => decide (x.1 ≤ y.1))
    ((s.objsIn p tier).filterMap fun o => match o.pages with
      | [b] => if a ≤ b ∧ b < a + Config.pageBytes then some (b, b + granuleBytes o.size) else none
      | _ => none)

/-- Starts of gaps of at least `n` bytes between rising ranges, from `lo` to `hi`. -/
def gaps (n hi : Nat) : Nat → List (Nat × Nat) → List Nat
  | lo, [] => if lo + n ≤ hi then [lo] else []
  | lo, (a, b) :: rs => (if lo + n ≤ a then [lo] else []) ++ gaps n hi (max lo b) rs

/-- Pages wholly free. -/
def State.freePages (s : State) (p tier : Nat) : Nat :=
  pageCount ((s.part p).pages tier) - (s.usedPages p tier).length

/-- Where a small object fits in pages already in part use.
Mark: DESIGN CHOICE (notes/assumptions/51.md). -/
def State.smallGaps (s : State) (p tier size : Nat) : List Nat :=
  (s.usedPages p tier).flatMap fun i =>
    let a := pageAt ((s.part p).pages tier) i
    if (s.objsIn p tier).any (fun o => decide (1 < o.pages.length) &&
        o.pages.any fun b => b == a) then []
    else gaps (granuleBytes size) (a + Config.pageBytes) a (s.takenIn p tier a)

/-- Does the space fit as 06 R196 states? -/
def State.spaceFits (s : State) (p tier size : Nat) : Bool :=
  if size ≤ Config.pageBytes then s.smallGaps p tier size != [] || decide (0 < s.freePages p tier)
  else decide (ceilDiv size Config.pageBytes ≤ s.freePages p tier)

/-- Take `n` whole free pages; which ones is free.
Mark: DESIGN CHOICE (notes/assumptions/51.md). -/
def State.takePages (s : State) (p tier : Nat) : Nat → List Nat → List Nat × State
  | 0, _ => ([], s)
  | n + 1, used =>
    match s.takeNumber (pageCount ((s.part p).pages tier)) used with
    | (none, s1) => ([], s1)
    | (some i, s1) =>
      let (l, s2) := State.takePages s1 p tier n (i :: used)
      (pageAt ((s.part p).pages tier) i :: l, s2)

/-- Place an object of a size that fits.
Mark: DESIGN CHOICE (notes/assumptions/51.md). -/
def State.placeObj (s : State) (p tier size : Nat) : List Nat × State :=
  if size ≤ Config.pageBytes then
    match s.smallGaps p tier size with
    | [] => s.takePages p tier 1 (s.usedPages p tier)
    | l =>
      match s.takeOne l with
      | (some a, s1) => ([a], s1)
      | (none, s1) => ([], s1)
  else s.takePages p tier (ceilDiv size Config.pageBytes) (s.usedPages p tier)

/-! ### MEM_ALLOC (06 R195) -/

/-- The handle entry of an index of a context. -/
def State.handle? (s : State) (ck i : Nat) : Option Handle :=
  match s.ctx? ck with | none => none | some c => Tbl.get? c.handles i

/-- MEM_ALLOC: its checks. -/
def State.chkMemAlloc (s : State) (p : Nat) (e : Cmd) : Option Res :=
  let ck := pkey p (fld e 8 0 12)
  let tier := fld e 10 0 1
  let twin := flag e 10 1
  let idx := fld e 12 0 20
  let size := fld e 16 0 64
  let src := pkey p (fld e 24 0 12)
  let h := fld e 28 0 32
  firstOf [need (zeros e [(9, 4, 4), (10, 2, 6), (11, 0, 8), (14, 4, 12), (25, 4, 4), (26, 0, 16)]) (mal 0x0102),
    need (s.ctx? ck).isSome (acc 0x0006),
    need (!twin || tier == 0) (mal 0x0104),
    need (tier == 0 || decide (0 < (s.part p).quota.mem1)) (acc 0x0283),
    need (match s.handle? ck idx with | some x => x.obj.isNone | none => true) (acc 0x0280),
    need (match s.handle? ck idx with | some x => !x.retired | none => true) (acc 0x0282),
    need (if twin then size == 0 else decide (1 ≤ size ∧ size ≤ 2 ^ 40)) (mal 0x0104),
    (if twin then need (s.ctx? src).isSome (acc 0x0006) else need (fld e 24 0 12 == 0) (mal 0x0104)),
    (if twin then firstOf [need (s.everAllocated src h) (acc 0x0207),
        need (s.resolve src h).isSome (Res.of .staleHandle 0x001C)] else need (h == 0) (mal 0x0104)),
    need (twin || s.spaceFits p tier size) (acc 0x0281)]

/-- Let an index of a context hold an object. -/
def State.bindHandle (s : State) (ck i o : Nat) : State :=
  s.adjCtx ck fun c =>
    { c with handles := match Tbl.get? c.handles i with
        | some h => Tbl.set c.handles i { h with obj := some o }
        | none => Tbl.set c.handles i { gen := 0, obj := some o, retired := false } }

/-- MEM_ALLOC: the object is live, or the twin names the source's object. -/
def State.effMemAlloc (s : State) (p : Nat) (e : Cmd) : State :=
  let ck := pkey p (fld e 8 0 12)
  let idx := fld e 12 0 20
  if flag e 10 1 then
    match s.resolve (pkey p (fld e 24 0 12)) (fld e 28 0 32) with
    | some o => s.bindHandle ck idx o
    | none => s
  else
    let tier := fld e 10 0 1
    let size := fld e 16 0 64
    let (pages, s1) := s.placeObj p tier size
    let o := s1.nextObj
    let s2 : State := { s1 with objs := Tbl.set s1.objs o { part := p, tier := tier, size := size, pages := pages },
                                nextObj := o + 1 }
    s2.bindHandle ck idx o

/-! ### MEM_FREE (06 R197) and CTX_DESTROY's handles (06 R199) -/

/-- MEM_FREE: its checks. -/
def State.chkMemFree (s : State) (p : Nat) (e : Cmd) : Option Res :=
  let ck := pkey p (fld e 8 0 12)
  let h := fld e 12 0 32
  firstOf [need (zeros e [(9, 4, 4), (10, 0, 16)]) (mal 0x0102), need (s.ctx? ck).isSome (acc 0x0006),
    need (s.everAllocated ck h) (acc 0x0207), need (s.resolve ck h).isSome (Res.of .staleHandle 0x000C)]

/-- A free of a handle: the generation rises by 1; a free that finds 0xFFF retires the index (06 R194). -/
def Handle.freed (h : Handle) : Handle :=
  if h.gen = 0xFFF then { h with obj := none, retired := true } else { h with gen := h.gen + 1, obj := none }

/-- MEM_FREE: the handle is freed; the memory follows once nothing keeps it. -/
def State.effMemFree (s : State) (p : Nat) (e : Cmd) : State :=
  let ck := pkey p (fld e 8 0 12)
  (s.adjCtx ck fun c => { c with handles := Tbl.adjust c.handles (fld e 12 0 20) Handle.freed }).dropObjs

end Sys2Proof.Machine
end

