-- ==== Sys2Proof/Machine/Rings.lean ====
section
/-! DEFINITION. Rings and contexts (02, 03): the admin commands of 03 R100-R105, doorbells and the producer
index, ring state commands, context loads and eviction, and Quickset's fetch slots. -/
namespace Sys2Proof.Machine

/-! ### Chip-wide records (02 R66) -/

/-- The partitions that hold their two reserved records while no context 0 and ring 0 of theirs exist. -/
def State.idleReserved (s : State) : List Part :=
  (s.parts.filter fun e => e.2.reserved && (s.ctx? (pkey e.1 0)).isNone).map fun e => e.2

/-- Chip-wide context numbers in use. -/
def State.ctxNos (s : State) : List Nat := s.ctxs.map (fun e => e.2.no) ++ s.idleReserved.map fun q => q.ctx0No

/-- Chip-wide ring numbers in use. -/
def State.ringNos (s : State) : List Nat := s.rings.map (fun e => e.2.no) ++ s.idleReserved.map fun q => q.ring0No

/-! ### Contexts (03 R100, R101) -/

/-- The rings of a context. -/
def State.ringsOf (s : State) (ck : Nat) : List Nat :=
  (s.rings.filter fun e => e.2.ctx == ck).map fun e => e.1

/-- Does a context of the partition other than `except` use the PASID (02 R58)? -/
def State.pasidUsed (s : State) (p pasid except : Nat) : Bool :=
  s.ctxs.any fun e => keyPart e.1 == p && e.1 != except && e.2.pasid == pasid

/-- CTX_CREATE: its checks. -/
def State.chkCtxCreate (s : State) (p : Nat) (e : Cmd) : Option Res :=
  let c := fld e 8 0 12
  let pasid := fld e 12 0 20
  firstOf [need (zeros e [(9, 4, 4), (10, 1, 7), (11, 0, 8), (14, 4, 12)]) (mal 0x0102),
    need (decide (c < (s.part p).quota.contexts)) (acc 0x0001),
    need (s.ctx? (pkey p c)).isNone (acc 0x0009),
    need (decide (s.ctxNos.length + s.aside (oneOf [0xC0]) < Config.contexts)) (acc 0x000D),
    need (pasid != 0) (acc 0x000A),
    need (!s.pasidUsed p pasid (pkey p c)) (acc 0x0002)]

/-- A context as it is created: not resident (03 R100). -/
def Ctx.fresh (no pasid : Nat) (host : Bool) : Ctx :=
  { no := no, pasid := pasid, hostAccess := host, resident := false, lastUse := 0, faulted := false,
    faultStatus := 0, faultCount := 0, lost := false, handles := [] }

/-- CTX_CREATE: the context exists. -/
def State.effCtxCreate (s : State) (p : Nat) (e : Cmd) : State :=
  match s.takeNumber Config.contexts s.ctxNos with
  | (none, s1) => s1
  | (some no, s1) =>
    { s1 with ctxs := Tbl.set s1.ctxs (pkey p (fld e 8 0 12)) (Ctx.fresh no (fld e 12 0 20) (flag e 10 0)) }

/-- CTX_DESTROY: its checks. -/
def State.chkCtxDestroy (s : State) (p : Nat) (e : Cmd) : Option Res :=
  let c := fld e 8 0 12
  firstOf [need (zeros e [(9, 4, 4), (10, 0, 48)]) (mal 0x0102), need (s.ctx? (pkey p c)).isSome (acc 0x0006),
    need (c != 0 && (s.ringsOf (pkey p c)).isEmpty) (acc 0x0003)]

/-- CTX_DESTROY: the context, its handles and its translations cease to exist (06 R199). -/
def State.effCtxDestroy (s : State) (p : Nat) (e : Cmd) : State :=
  let k := pkey p (fld e 8 0 12)
  State.dropObjs { s with ctxs := Tbl.erase s.ctxs k, loads := s.loads.filter fun l => l.key != k,
                          transl := s.transl.filter fun t => t.ctx != k || t.closing }

/-! ### Rings (03 R102-R105) -/

/-- The bytes of a ring of 2^n granules. -/
def ringBytes (n : Nat) : Nat := 16 * 2 ^ n

/-- RING_CREATE: its checks. -/
def State.chkRingCreate (s : State) (p : Nat) (e : Cmd) : Option Res :=
  let r := fld e 8 0 14
  let ck := pkey p (fld e 10 0 12)
  let size := fld e 12 0 8
  let loc := flag e 13 0
  let cloc := flag e 13 1
  let eloc := flag e 13 2
  let elog := fld e 40 0 8
  firstOf [need (zeros e [(9, 6, 2), (11, 4, 4), (13, 3, 5), (41, 0, 24), (48, 0, 64), (56, 0, 64)]) (mal 0x0102),
    need (decide (r < (s.part p).quota.rings)) (acc 0x0001),
    need (s.ring? (pkey p r)).isNone (acc 0x0004),
    need (decide (s.ringNos.length + s.aside (oneOf [0xC2]) < Config.hardRings)) (acc 0x000D),
    need (s.ctx? ck).isSome (acc 0x0006),
    need (decide (8 ≤ size ∧ size ≤ 20)) (mal 0x0104),
    need (!(loc || cloc || eloc) || s.hostAccess ck) (acc 0x000B),
    need (decide (fld e 15 0 8 ≤ 64)) (mal 0x0104),
    need (fld e 16 0 12 == 0) (mal 0x0105),
    need (fld e 24 0 3 == 0) (mal 0x0105),
    need (fld e 32 0 5 == 0) (mal 0x0105),
    need (decide (6 ≤ elog ∧ elog ≤ 16)) (mal 0x0104),
    need ((loc || s.ownsRange p (fld e 16 0 64) (ringBytes size)) &&
          (cloc || s.ownsRange p (fld e 24 0 64) 8) &&
          (eloc || s.ownsRange p (fld e 32 0 64) (32 * 2 ^ elog))) (acc 0x000C)]

/-- A ring in state DISABLED with CI = PI = 0, SEQ from 1 (03 R102, 07 R201). -/
def Ring.fresh (no ctx : Nat) : Ring :=
  { no := no, ctx := ctx, state := .disabled, before := .disabled, lostStop := false, pi := 0, ci := 0,
    nextCi := 0, sampled := 0, wantSample := false, scanStop := false, base := 0, sizeLog2 := 0, loc := false,
    cseq := 0, cseqLoc := false, err := 0, errLoc := false, errLog2 := 0, vector := 0, slice := 0,
    timeoutUs := 0, dbPending := false, rejected := false, faultStatus := 0, faultIndex := 0, piDrops := 0,
    dbIgnored := 0, slot := none, slotFrom := 0, sliceLeft := 0, fetch := none, staged := none, stall := none, lastSeq := 0,
    posted := 0, written := 0, records := 0, dones := [], newRecs := [], hold := none, stale := 0,
    dropsWas := 0 }

/-- SLICE as a command gives it: 0 takes SLICE_TICKS, in RING_CONFIG too.
Mark: DESIGN CHOICE (notes/assumptions/151.md). -/
def State.sliceOf (s : State) (n : Nat) : Nat := if n = 0 then s.cfg.sliceTicks else n

/-- RING_CREATE: the ring exists. -/
def State.effRingCreate (s : State) (p : Nat) (e : Cmd) : State :=
  match s.takeNumber Config.hardRings s.ringNos with
  | (none, s1) => s1
  | (some no, s1) =>
    let r := { Ring.fresh no (pkey p (fld e 10 0 12)) with
      base := fld e 16 0 64, sizeLog2 := fld e 12 0 8, loc := flag e 13 0, cseq := fld e 24 0 64,
      cseqLoc := flag e 13 1, err := fld e 32 0 64, errLoc := flag e 13 2, errLog2 := fld e 40 0 8,
      vector := fld e 14 0 8, slice := s.sliceOf (fld e 15 0 8), timeoutUs := fld e 44 0 32 }
    { s1 with rings := Tbl.set s1.rings (pkey p (fld e 8 0 14)) r }

/-- RING_CONFIG: its checks. -/
def State.chkRingConfig (s : State) (p : Nat) (e : Cmd) : Option Res :=
  firstOf [need (zeros e [(9, 6, 2), (10, 3, 5), (11, 0, 8), (14, 0, 16), (20, 0, 32), (24, 0, 64)]) (mal 0x0102),
    need (s.ring? (pkey p (fld e 8 0 14))).isSome (acc 0x0005),
    need (!flag e 10 1 || decide (fld e 13 0 8 ≤ 64)) (mal 0x0104)]

/-- RING_CONFIG: the selected fields change; a new SLICE applies from the next grant, a new TIMEOUT_US to
entries started later (03 R88, R103). -/
def State.effRingConfig (s : State) (p : Nat) (e : Cmd) : State :=
  s.adjRing (pkey p (fld e 8 0 14)) fun r =>
    { r with vector := if flag e 10 0 then fld e 12 0 8 else r.vector,
             slice := if flag e 10 1 then s.sliceOf (fld e 13 0 8) else r.slice,
             timeoutUs := if flag e 10 2 then fld e 16 0 32 else r.timeoutUs }

/-- Started entries of a ring that have not completed. -/
def State.ringWorks (s : State) (p r : Nat) : List Nat :=
  (s.works.filter fun e => e.2.site == Site.ring p r).map fun e => e.1

/-- RING_DESTROY: its checks. -/
def State.chkRingDestroy (s : State) (p : Nat) (e : Cmd) : Option Res :=
  let r := fld e 8 0 14
  firstOf [need (zeros e [(9, 6, 2), (10, 0, 48)]) (mal 0x0102),
    need (s.ring? (pkey p r)).isSome (acc 0x0005), need (r != 0) (acc 0x0007),
    need ((match s.ring? (pkey p r) with | some x => x.state == .disabled | none => false) &&
      (s.ringWorks p r).isEmpty) (acc 0x0008)]

/-- RING_DESTROY: the ring ceases to exist. -/
def State.effRingDestroy (s : State) (p : Nat) (e : Cmd) : State :=
  { s with rings := Tbl.erase s.rings (pkey p (fld e 8 0 14)) }

/-- RING_QUERY: its checks. -/
def State.chkRingQuery (s : State) (p : Nat) (e : Cmd) : Option Res :=
  firstOf ([need (zeros e [(9, 6, 2), (10, 1, 7), (11, 0, 40), (24, 0, 64)]) (mal 0x0102),
    need (s.ring? (pkey p (fld e 8 0 14))).isSome (acc 0x0005)] ++ s.destChk p e 10 32)

/-! ### Indices (03 R76-R78) -/

/-- `(a - b) mod 2^32`. -/
def sub32 (a b : Nat) : Nat := (a + 2 ^ 32 - b % 2 ^ 32) % 2 ^ 32

/-- A write of PI: dropped and counted where it would overfill the ring. -/
def Ring.writePi (r : Ring) (v : Nat) : Ring :=
  if 2 ^ r.sizeLog2 < sub32 v r.ci then { r with piDrops := satInc 16 r.piDrops } else { r with pi := v % 2 ^ 32 }

/-- The device or host address of the granule of index `i`. -/
def Ring.granule (r : Ring) (i : Nat) : Nat := r.base + i % 2 ^ r.sizeLog2 * 16

/-! ### Context loads (02 R60-R63) -/

/-- Is the context busy (02 R60)? A fetch that is out counts.
Mark: DESIGN CHOICE (notes/assumptions/149.md). -/
def State.ctxBusy (s : State) (ck : Nat) : Bool :=
  (s.works.any fun e => pkey e.2.part e.2.ctx == ck) || (s.launches.any fun e => pkey e.2.part e.2.ctx == ck) ||
  (s.rings.any fun e => e.2.ctx == ck && (e.2.state == .blocked || e.2.staged.isSome || e.2.fetch.isSome)) ||
  (s.tasks.any fun e => e.2.ctx == ck && s.eps.any fun x =>
    match x.2.seg with | some g => (match g.owner with | .task t _ => t == e.1 | _ => false) | none => false)

/-- The contexts of open listeners hold a resident slot that is never evicted (10 R311). -/
def State.permanent (s : State) : List Nat :=
  (s.svc.listeners.filter fun e => e.2.isOpen).map fun e => pkey e.2.part e.2.ctx

/-- May a resident context be evicted (02 R60, R61; 10 R311)? -/
def State.evictable (s : State) (ck : Nat) : Bool :=
  (match s.ctx? ck with | some c => c.resident | none => false) && !s.ctxBusy ck && !s.permanent.contains ck

/-- Resident slots that a partition holds; loads under way are not among them.
Mark: DESIGN CHOICE (notes/assumptions/150.md). -/
def State.resCount (s : State) (p : Nat) : Nat :=
  (s.ctxs.filter fun e => keyPart e.1 == p && e.2.resident).length

/-- Resident slots in use or promised to loads under way. -/
def State.slotsUsed (s : State) : Nat :=
  (s.ctxs.filter fun e => e.2.resident).length + (s.loads.filter fun l => l.loading).length

/-- The least recently used of a list of contexts, ties to the lower chip-wide number.
Mark: DEDUCED (notes/assumptions/27.md). -/
def State.lru (s : State) (l : List Nat) : Option Nat :=
  minBy (fun k => match s.ctx? k with | some c => c.lastUse * 4096 + c.no | none => 0) l

/-- The victim that a load for partition `p` evicts (02 R61). -/
def State.victim (s : State) (p : Nat) : Option Nat :=
  let ev := (Tbl.keys s.ctxs).filter s.evictable
  match s.lru (ev.filter fun k => decide ((s.part (keyPart k)).quota.resMin < s.resCount (keyPart k))) with
  | some k => some k
  | none => s.lru (ev.filter fun k => keyPart k == p)

/-- Queue a load of a context, unless one is queued (02 R62). -/
def State.queueLoad (s : State) (ck : Nat) : State :=
  if s.loads.any (fun l => l.key == ck) then s
  else { s with loads := s.loads ++ [{ key := ck, loading := false, waited := false }] }

/-- Evict a context: its record is written back; a ring of it that still has published entries queues a load
at once (02 R62). -/
def State.evict (s : State) (ck : Nat) : State :=
  let s1 := s.adjCtx ck fun c => { c with resident := false }
  let owed := fun (r : Ring) => r.ctx == ck && r.state == .active && r.ci != r.sampled && !r.scanStop
  if s1.rings.any (fun e => owed e.2) then
    ({ s1 with rings := Tbl.mapV s1.rings fun _ r => if owed r then { r with wantSample := true } else r } : State).queueLoad ck
  else s1

/-- A context takes a resident slot at this boundary: a free one, or that of a victim; where none can be had, its load is
queued. -/
def State.takeSlot (s : State) (ck : Nat) : State :=
  let hold := fun (s : State) => (({ s.present 4 16 with loads := s.loads.filter fun l => l.key != ck } : State).adjCtx ck fun c =>
    { c with resident := true, lastUse := s.tick }).adjCounts (keyPart ck) fun c => { c with ctxLoads := satInc 32 c.ctxLoads }
  match s.ctx? ck with
  | none => s
  | some c =>
    if c.resident || c.lost then s
    else if s.slotsUsed < Config.residentSlots then hold s
    else match s.victim (keyPart ck) with
      | some v => hold ((s.evict v).present 4 16)
      | none => s.queueLoad ck

/-! ### Sampling, doorbells and state commands (03 R79, R89-R92) -/

/-- Is the context of a ring resident? -/
def State.ringResident (s : State) (r : Ring) : Bool :=
  match s.ctx? r.ctx with | some c => c.resident | none => false

/-- Quickset samples PI of a ring whose context is resident; otherwise the context's load is queued and the
sample follows it. -/
def State.sampleOrLoad (s : State) (k : Nat) : State :=
  match s.ring? k with
  | none => s
  | some r =>
    if s.ringResident r then
      s.adjRing k fun r => { r with sampled := r.pi, scanStop := false, wantSample := false, dbPending := false }
    else (s.adjRing k fun r => { r with wantSample := true }).queueLoad r.ctx

/-- Is a context's record lost (11 R330)? -/
def State.ctxLost (s : State) (k : Nat) : Bool := match s.ctx? k with | some c => c.lost | none => false

/-- A doorbell takes effect on a ring (11 R330; 03 R79, R92; 02 R61: a use of its context). The sample itself is taken
after every write of the boundary. One on ring 0 that the ring does not ignore raises ADMIN_DB (13 R392).
Mark: DEDUCED (notes/assumptions/27.md). -/
def State.doorbell (s0 : State) (k : Nat) : State :=
  match s0.ring? k with
  | none => s0
  | some r =>
    let s := if keyLocal k = 0 ∧ r.state ≠ .disabled then s0.raiseAdminDb (keyPart k) else s0
    match r.state with
    | .active =>
      let s1 := (s.adjRing k fun r => { r with wantSample := true }).adjCtx r.ctx fun c => { c with lastUse := s.tick }
      if s.ringResident r then s1 else s1.queueLoad r.ctx
    | .disabled =>
      if s.ctxLost r.ctx then s.adjRing k fun r => { r with dbPending := true }
      else s.adjRing k fun r => { r with dbIgnored := satInc 16 r.dbIgnored }
    | _ => s.adjRing k fun r => { r with dbPending := true }

/-- An outstanding fetch is discarded: its data is dropped on arrival (03 R91).
Mark: DESIGN CHOICE (notes/assumptions/161.md). -/
def Ring.dropFetch (r : Ring) : Ring := { r with fetch := none, stale := r.stale + natOfBool r.fetch.isSome }

/-- A ring leaves ACTIVE: its staged entry and outstanding fetch are dropped; a slot is released at the end of the tick (03
R86, R91), as one whose slice has run out. -/
def Ring.leaveActive (r : Ring) : Ring := { r.dropFetch with staged := none, sliceLeft := min r.sliceLeft 1, stall := none }

/-- Is an ENABLE of ring 0 rejected by the admin registers (03 R95)? -/
def State.adminBad (s : State) (p : Nat) : Bool :=
  let a := (s.part p).admin
  !(decide (8 ≤ a.sizeLog2 ∧ a.sizeLog2 ≤ 20)) || !(decide (6 ≤ a.errLog2 ∧ a.errLog2 ≤ 16)) ||
  ((a.loc || a.cseqLoc || a.errLoc) && !a.hostAccess) ||
  !((a.loc || s.ownsRange p a.base (ringBytes a.sizeLog2)) && (a.cseqLoc || s.ownsRange p a.cseq 8) &&
    (a.errLoc || s.ownsRange p a.err (32 * 2 ^ a.errLog2))) ||
  s.pasidUsed p a.pasid (pkey p 0)

/-- A successful ENABLE of ring 0 takes the admin registers (03 R95). -/
def State.describeRing0 (s : State) (p : Nat) : State :=
  let a := (s.part p).admin
  let s1 := s.adjRing (pkey p 0) fun r =>
    { r with base := a.base, cseq := a.cseq, err := a.err, sizeLog2 := a.sizeLog2, loc := a.loc,
             cseqLoc := a.cseqLoc, errLoc := a.errLoc, errLog2 := a.errLog2, vector := a.vector }
  s1.adjCtx (pkey p 0) fun c => { c with pasid := a.pasid, hostAccess := a.hostAccess }

/-- A ring returns to ACTIVE: a RESUME acts as a doorbell, and so does an ENABLE or the end of a stop that finds PI ≠ CI (03
R91). -/
def State.activate (s : State) (resume : Bool) (k : Nat) : State :=
  match s.ring? k with
  | none => s
  | some r =>
    let s1 := s.adjRing k fun r => { r with state := .active }
    if resume = true ∨ r.pi ≠ r.ci then s1.doorbell k
    else s1.adjRing k fun r => { r with sampled := r.pi, scanStop := false, dbPending := false }

/-- Refuse a state command: REJECTED is set (03 R89). -/
def State.reject (s : State) (k : Nat) : State := s.adjRing k fun r => { r with rejected := true }

/-- ENABLE takes effect (03 R89, R91, R95; 11 R330 for a lost context). -/
def State.enableRing (s : State) (k : Nat) : State :=
  match s.ring? k with
  | none => s
  | some r =>
    let lost := match s.ctx? r.ctx with | some c => c.lost | none => true
    match r.state with
    | .disabled | .faulted =>
      if lost then s.reject k
      else if keyLocal k = 0 ∧ r.state = .disabled then
        if s.adminBad (keyPart k) then s.reject k else (s.describeRing0 (keyPart k)).activate false k
      else s.activate false k
    | _ => s.reject k

/-- DISABLE takes effect (03 R89, R91). -/
def State.disableRing (s : State) (k : Nat) : State :=
  match s.ring? k with
  | none => s
  | some r =>
    match r.state with
    | .active | .faulted => s.adjRing k fun r => { r.leaveActive with state := .disabled }
    | .disabled => s
    | _ => s.reject k

/-! ### Fetch slots (03 R85-R87) -/

/-- Bytes that the read of the entry at index `i` asks for, never past the sampled PI (03 R77) or the buffer: of a device ring
the entry's own; of a host ring, whose header Mahorn has not seen, up to 4 KiB.
Mark: DESIGN CHOICE (notes/assumptions/148.md). -/
def State.fetchBytes (s : State) (r : Ring) (i : Nat) : Nat :=
  let room := 2 ^ r.sizeLog2 - i % 2 ^ r.sizeLog2
  let len := if r.loc then 256 else lenOf (bytesWords 2 (s.readBytes (r.granule i) 16))
  16 * min (min len (sub32 r.sampled i)) room

/-- The fetch that a ring has out is issued: over PP0 with the requester ID and PASID of its context, or on input 3 of the
memory port (03 R75). -/
def State.issueFetch (s : State) (k : Nat) : State :=
  match s.ring? k with
  | none => s
  | some r => match r.fetch with
    | none => s
    | some i =>
      if r.loc then s.send (.hostRead (keyPart k) (s.pasidOf r.ctx) (r.granule i) (s.fetchBytes r i))
      else s.presentAt 3 false (some (r.granule i)) (sectorsIn (r.granule i) (s.fetchBytes r i))

/-- Fetch slots in use. -/
def State.slotsHeld (s : State) : List Nat := s.rings.filterMap fun e => e.2.slot

/-- The WEIGHT that Quickset uses: 1 for every partition while SCH is down (02 R67, 12 R362). -/
def State.weightOf (s : State) (schDown : Bool) (p : Nat) : Nat := if schDown then 1 else (s.part p).weight

/-- One grant (03 R85): the partition of the largest credit, the head of its ready list, the lowest free
slot. The ring may issue its first fetch in this tick; its context is used (02 R61).
Mark: DEDUCED (notes/assumptions/27.md). -/
def State.grantOne (s : State) (schDown : Bool) : State :=
  let rp := (s.parts.filter fun e => e.2.ready != []).map fun e => e.1
  let total := sumNat (rp.map (s.weightOf schDown))
  let s1 := foldS rp (fun s p => s.adjPart p fun q => { q with credit := q.credit + s.weightOf schDown p }) s
  match rp with
  | [] => s
  | p0 :: _ =>
    let best := rp.foldl (fun b p => if (s1.part b).credit < (s1.part p).credit then p else b) p0
    match (s1.part best).ready with
    | [] => s1
    | r :: rest =>
      let s2 := s1.adjPart best fun q => { q with credit := q.credit - total, ready := rest }
      let k := pkey best r
      match probe Config.fetchSlots s2.slotsHeld (s2.slotsHeld.length + 1) 0 with
      | none => s2
      | some slot =>
        let s3 := s2.adjRing k fun r =>
          { r with slot := some slot, slotFrom := s.tick, sliceLeft := r.slice, fetch := some r.nextCi }
        match s3.ring? k with
        | some x => (s3.adjCtx x.ctx fun c => { c with lastUse := s.tick }).issueFetch k
        | none => s3

/-- Grant every free slot (03 R85), then return to 0 the credit of every partition without a ready ring. -/
def State.grantSlots (s : State) (schDown : Bool) : State :=
  let s1 := go (Config.fetchSlots - s.slotsHeld.length) s
  { s1 with parts := Tbl.mapV s1.parts fun _ q => if q.ready = [] then { q with credit := 0 } else q }
where
  /-- At most `n` grants. -/
  go : Nat → State → State
    | 0, s => s
    | n + 1, s => if s.parts.any fun e => e.2.ready != [] then go n (s.grantOne schDown) else s

end Sys2Proof.Machine
end

