-- ==== Sys2Proof/Machine/Graphs.lean ====
section
/-! DEFINITION. Stored graphs (05): the image and its checks, generations and blocks, patches, and the checks
and effects of the graph admin commands. -/
namespace Sys2Proof.Machine

/-! ### The image (05 R149-R155) -/

/-- A little-endian field of `n` bytes at an offset of an image. -/
def imgNat (img : List Byte) (o n : Nat) : Nat := leNat ((img.drop o).take n)

/-- NNODES. -/
def imgNodes (img : List Byte) : Nat := imgNat img 6 2
/-- NEDGES. -/
def imgEdges (img : List Byte) : Nat := imgNat img 8 4
/-- BODY_BYTES. -/
def imgBodyBytes (img : List Byte) : Nat := imgNat img 12 4
/-- SLOTS. -/
def imgSlots (img : List Byte) : Nat := imgNat img 16 2
/-- The image offset of the edge list. -/
def imgEdgeBase (img : List Byte) : Nat := 64 + 16 * imgNodes img
/-- The image offset of the body area (05 R149). -/
def imgBodyBase (img : List Byte) : Nat := imgEdgeBase img + roundUp (2 * imgEdges img) 16
/-- Entry `j` of the edge list, all 16 bits. -/
def imgEdge (img : List Byte) (j : Nat) : Nat := imgNat img (imgEdgeBase img + 2 * j) 2
/-- A field of node entry `i`. -/
def imgNode (img : List Byte) (i o n : Nat) : Nat := imgNat img (64 + 16 * i + o) n
/-- NSUCC of node `i`. -/
def imgSucc (img : List Byte) (i : Nat) : Nat := imgNode img i 6 2 % 2 ^ 12
/-- The successors of node `i`, from the place that the sum of NSUCC gives them. -/
def imgSuccs (img : List Byte) (i first : Nat) : List Nat :=
  (List.range (imgSucc img i)).map fun j => imgEdge img (first + j) % 2 ^ 12

/-- The words of a body of `len` granules at a body-area offset. -/
def imgBody (img : List Byte) (off len : Nat) : Cmd :=
  bytesWords (2 * len) ((img.drop (imgBodyBase img + off)).take (16 * len))

/-- Strictly ascending? -/
def ascending : List Nat → Bool
  | a :: b :: l => decide (a < b) && ascending (b :: l)
  | _ => true

/-- The checks 5 to 9 of node `i` whose body starts at `off` and whose successors start at `first`. -/
def nodeChk (img : List Byte) (i off first : Nat) : Option Nat :=
  let head := imgBody img off 1
  let body := imgBody img off (lenOf head)
  let succs := imgSuccs img i first
  if imgBodyBytes img < off + 8 then some 0x0274
  else if !(imgNode img i 4 2 / 2 ^ 12 == 0 && imgNode img i 6 2 / 2 ^ 12 == 0 && imgNode img i 12 4 == 0 &&
      headerOk head) then some 0x0273
  else if !isNodeOpcode (opcodeOf head) then some 0x0277
  else if !lenOk body then some 0x0278
  else if !(imgNode img i 0 4 == off && imgNode img i 8 4 == first) then some 0x0274
  else if imgEdges img < first + imgSucc img i then some 0x0275
  else if !(succs.all (fun x => decide (i < x) && decide (x < imgNodes img)) && ascending succs &&
      (List.range (imgSucc img i)).all fun j => imgEdge img (first + j) / 2 ^ 12 == 0) then some 0x0275
  else none

/-- What a pass over the node table gathers. -/
structure ImgWalk where
  off : Nat
  first : Nat
  bodies : List Cmd
  succs : List (List Nat)
  err : Option Nat

/-- Check `n` nodes from node `i` on, gathering bodies and successors. -/
def walkNodes (img : List Byte) : Nat → Nat → ImgWalk → ImgWalk
  | 0, _, w => w
  | n + 1, i, w =>
    match nodeChk img i w.off w.first with
    | some d => { w with err := some d }
    | none =>
      let len := lenOf (imgBody img w.off 1)
      walkNodes img n (i + 1) { w with off := w.off + 16 * len, first := w.first + imgSucc img i,
                                       bodies := w.bodies ++ [imgBody img w.off len],
                                       succs := w.succs ++ [imgSuccs img i w.first] }

/-- The image with its CRC field taken as zero. -/
def imgNoCrc (img : List Byte) : List Byte := img.take 20 ++ [0, 0, 0, 0] ++ img.drop 24

/-- The walk over all nodes. -/
def imgWalk (img : List Byte) : ImgWalk :=
  walkNodes img (imgNodes img) 0 { off := 0, first := 0, bodies := [], succs := [], err := none }

/-- How many edges name node `i`. -/
def indegree (succs : List (List Nat)) (i : Nat) : Nat :=
  sumNat (succs.map fun l => (l.filter fun x => x == i).length)

/-- The checks of an image in order (05 R155): the LOAD_DETAIL of the first that fails. -/
def imageChk (img : List Byte) : Option Nat :=
  let w := imgWalk img
  if !(imgNat img 0 4 == 0x54504F54 && imgNat img 4 2 == 1) then some 0x0270
  else if !(decide (1 ≤ imgNodes img ∧ imgNodes img ≤ 4096) && decide (imgEdges img ≤ 65535) &&
      decide (16 ≤ imgBodyBytes img ∧ imgBodyBytes img ≤ 8388608) && imgBodyBytes img % 16 == 0 &&
      decide (imgSlots img ≤ 4096) && imgBodyBase img + imgBodyBytes img == img.length) then some 0x0271
  else if !(imgNat img 20 4 == (crc32 (imgNoCrc img)).toNat) then some 0x0272
  else if !(imgNat img 18 2 == 0 && ((img.drop 32).take 32).all (fun b => b == 0) &&
      ((img.drop (imgEdgeBase img + 2 * imgEdges img)).take
        (imgBodyBase img - (imgEdgeBase img + 2 * imgEdges img))).all fun b => b == 0) then some 0x0273
  else match w.err with
  | some d => some d
  | none =>
    if !(w.off == imgBodyBytes img && w.first == imgEdges img) then some 0x0274
    else if !((List.range (imgNodes img)).all fun i => imgNode img i 4 2 % 2 ^ 12 == indegree w.succs i)
    then some 0x0276
    else none

/-! ### Graphs of the store -/

/-- The graph of a uid. -/
def State.graph? (s : State) (u : Nat) : Option Graph := Tbl.get? s.graphs u

/-- Change a graph. -/
def State.adjGraph (s : State) (u : Nat) (f : Graph → Graph) : State :=
  { s with graphs := Tbl.adjust s.graphs u f }

/-- Launches that pin generation `g` of graph `u` (05 R161). -/
def State.genPins (s : State) (u g : Nat) : Nat :=
  (s.launches.filter fun e => e.2.graph == u && e.2.gen == g).length

/-- The same as things stood at the boundary of this tick. -/
def State.pinsAtBoundary (s : State) (u g : Nat) : Nat :=
  (s.launches.filter fun e => e.2.graph == u && e.2.gen == g && decide (e.2.started < s.tick)).length

/-- The generation of a number in a graph. -/
def Graph.genOf (x : Graph) (g : Nat) : Option Gen := x.gens.find? fun y => y.no == g

/-- The effective window W (05 R166): the launch window cut to the node count. -/
def Graph.window (x : Graph) : Nat :=
  let n := x.npred.length
  if x.slots = 0 then n else min x.slots n

/-- Blocks that a graph holds: those of its generations, each once, and while it loads those of the image. -/
def Graph.blockCount (x : Graph) : Nat :=
  match x.state with
  | .loading => x.kib
  | _ => (dedupNat (x.gens.flatMap fun g => g.blocks)).length

/-- Blocks charged to partitions that `f` selects (05 R156, R159). -/
def State.blocksOf (s : State) (f : Nat → Bool) : Nat :=
  sumNat ((s.graphs.filter fun e => f e.2.part).map fun e => e.2.blockCount)

/-- The body offset of node `i`: the bodies before it (05 R153). -/
def bodyOffset (bodies : List Cmd) (i : Nat) : Nat := sumNat ((bodies.take i).map fun b => 16 * lenOf b)

/-- The image blocks that the records touch (05 R164). -/
def touched (x : Graph) (bodies : List Cmd) (ps : List Patch) : List Nat :=
  dedupNat (ps.flatMap fun p =>
    let o := x.bodyBase + bodyOffset bodies p.node + p.off
    [o / 1024, (o + p.width - 1) / 1024])

/-- New blocks of a GRAPH_PATCH of a partition (05 R164). -/
def State.newBlocks (s : State) (p : Nat) (e : Cmd) : Nat :=
  match (s.graphOf p (fld e 8 0 13)).bind s.graph? with
  | some x => (touched x (match x.genOf x.cur with | some g => g.bodies | none => []) (patchesOf e)).length
  | none => 0

/-- Blocks that loads which have passed their checks, and patches that have been decided, have set aside. -/
def State.blocksAside (s : State) : Nat :=
  sumNat (s.works.map fun e =>
    let x := e.2
    match x.phase with
    | .io .admin _ => if opcodeOf x.cmd = 0xC8 then ceilDiv (fld x.cmd 32 0 32) 1024 else 0
    | .decided r _ =>
      if r.st ≠ .done then 0
      else if opcodeOf x.cmd = 0xC8 then ceilDiv (fld x.cmd 32 0 32) 1024
      else if opcodeOf x.cmd = 0xC9 then s.newBlocks x.part x.cmd else 0
    | _ => 0)

/-- Do `n` more blocks fit in STORE_KIB, and are they free on the chip? -/
def State.blocksChk (s : State) (p n : Nat) : List (Option Res) :=
  [need (decide (s.blocksOf (fun q => q == p) + n ≤ (s.part p).quota.storeKib)) (acc 0x0001),
   need (decide (s.blocksOf (fun _ => true) + s.blocksAside + n ≤ Config.blocks)) (acc 0x0252)]

/-- Free every generation that is neither current (of a graph that still has its number) nor pinned, and every
graph without a number or generation (05 R158, R161). -/
def State.dropGens (s : State) : State :=
  let live := fun (e : Nat × Graph) (g : Gen) =>
    (e.2.num.isSome && g.no == e.2.cur) || decide (0 < s.genPins e.1 g.no)
  let keep := fun (e : Nat × Graph) => { e.2 with gens := e.2.gens.filter (live e) }
  let all : Tbl Graph := s.graphs.map fun e => (e.1, keep e)
  { s with graphs := all.filter fun e => e.2.num.isSome || e.2.gens != [] }

/-! ### GRAPH_LOAD (05 R156, R157) -/

/-- The checks of a FENCE/NOFENCE field pair at byte `b` (05 R156, 08 R257-R261). -/
def State.optFenceChk (s : State) (p : Nat) (e : Cmd) (b : Nat) : List (Option Res) :=
  if flag e (b + 3) 7 then []
  else
    let f := fld e b 0 20
    s.fenceChk p f ++ [need (s.maySignal p f) (acc 0x0234)]

/-- The fence that such a field pair names, as key. -/
def optFence (p : Nat) (e : Cmd) (b : Nat) : Option Nat :=
  if flag e (b + 3) 7 then none else some (pkey p (fld e b 0 20))

/-- GRAPH_LOAD: its checks. -/
def State.chkGraphLoad (s : State) (p : Nat) (e : Cmd) : Option Res :=
  let g := fld e 8 0 13
  let n := fld e 32 0 32
  let c0 := pkey p 0
  firstOf ([need (zeros e ([(9, 5, 3), (10, 0, 48), (38, 4, 4), (39, 0, 7)] ++ mrefResv 16)) (mal 0x0102),
    need (decide (g < (s.part p).quota.graphs)) (acc 0x0001),
    need (s.graphOf p g).isNone (acc 0x0254),
    need (!mrefHost e 16) (acc 0x0257), s.mrefA c0 e 16,
    need (decide (96 ≤ n ∧ n ≤ 8388608) && n % 16 == 0) (mal 0x0104)] ++
    s.optFenceChk p e 36 ++ [s.mrefB c0 e 16 n 64] ++ s.blocksChk p (ceilDiv n 1024))

/-- The read of the image at the head of the queue is presented at input 1 (05 R157). -/
def State.readImage (s : State) : State :=
  match s.imageReads with
  | rd :: _ =>
    let a := s.locAddr (.dev rd.obj rd.off)
    s.presentAt 1 false (some a) (sectorsIn a rd.bytes)
  | [] => s

/-- GRAPH_LOAD: the graph exists in state LOADING, its blocks are charged, and its image read is queued with a
pin on the source. -/
def State.effGraphLoad (s : State) (p : Nat) (e : Cmd) (loc : Loc) : State :=
  let n := fld e 32 0 32
  let (no, s) := s.takeNumber (2 ^ 16) (s.graphs.map fun x => x.2.no)
  let g : Graph := { part := p, num := some (fld e 8 0 13), state := .loading, loadStatus := 0, loadDetail := 0,
                     slots := 0, tag := 0, npred := [], succ := [], cur := 0, gens := [], kib := ceilDiv n 1024,
                     launchesDone := 0, bodyBase := 0, shownNodes := 0, shownWindow := 0, no := no.getD 0 }
  let rd : ImageRead := { graph := s.nextGraph, obj := (match loc with | .dev o _ => o | .host _ => 0),
                          off := (match loc with | .dev _ f => f | .host a => a), bytes := n,
                          fence := (optFence p e 36).map fun k => (k, fld e 40 0 64) }
  let s1 : State := { s with graphs := Tbl.set s.graphs s.nextGraph g, nextGraph := s.nextGraph + 1,
                             imageReads := s.imageReads ++ [rd] }
  if s.imageReads = [] then s1.readImage else s1

/-- The graph whose image is being read. -/
def State.headGraph (s : State) : Nat := match s.imageReads with | rd :: _ => rd.graph | [] => 0

/-- The bytes of the image that is being read, as they are now.
Mark: DESIGN CHOICE (notes/assumptions/166.md). -/
def State.headImage (s : State) : List Byte :=
  match s.imageReads with | rd :: _ => s.readLoc (.dev rd.obj rd.off) rd.bytes | [] => []

/-- The image of graph `u`, at the head of the read queue, has been read and checked, or its read failed (05 R157). The
outcome is reported to the load's fence at the next boundary.
Mark: DESIGN CHOICE (notes/assumptions/49.md). -/
def State.imageDone (s : State) (u : Nat) (io : Io) (img : List Byte) : State :=
  match s.imageReads with
  | [] => s
  | rd :: rest =>
    if rd.graph ≠ u then s
    else
    let s0 := ({ s with imageReads := rest } : State).readImage
    let p := match s.graph? rd.graph with | some g => g.part | none => 0
    let lost := fun (st d : Nat) =>
      -- NNODES, W and GRAPH_TAG of a LOAD_FAILED graph are not stated: free values
      let k := s.free
      let s1 := { s0 with free := k + 3 }.adjGraph rd.graph fun g =>
        { g with state := .loadFailed, loadStatus := st, loadDetail := d, kib := 0,
                 tag := (Config.word k).toNat, shownNodes := (Config.word (k + 1)).toNat % 2 ^ 16,
                 shownWindow := (Config.word (k + 2)).toNat % 2 ^ 16 }
      (match rd.fence with | some f => s1.ownSignal f.1 none | none => s1).dropObjs
    match io with
    | .fail _ a => (lost Status.memDetected.code 0).ctxFault (pkey p 0) Status.memDetected.code 0xC8 a
    | .ok _ =>
      match imageChk img with
      | some d => lost Status.malformed.code d
      | none =>
        let w := imgWalk img
        let blocks := List.range' s.nextBlock (ceilDiv rd.bytes 1024)
        let s1 := s0.adjGraph rd.graph fun g =>
          { g with state := .ready, slots := imgSlots img, tag := imgNat img 24 8,
                   npred := (List.range (imgNodes img)).map (indegree w.succs), succ := w.succs, cur := 1,
                   gens := [{ no := 1, bodies := w.bodies, blocks := blocks }], bodyBase := imgBodyBase img,
                   shownNodes := imgNodes img,
                   shownWindow := if imgSlots img = 0 then imgNodes img else min (imgSlots img) (imgNodes img) }
        let s2 : State := { s1 with nextBlock := s.nextBlock + blocks.length }
        (match rd.fence with | some f => s2.ownSignal f.1 (some f.2) | none => s2).dropObjs

/-! ### GRAPH_UNLOAD (05 R159) -/

/-- GRAPH_UNLOAD: its checks. -/
def State.chkGraphUnload (s : State) (p : Nat) (e : Cmd) : Option Res :=
  firstOf ([need (zeros e [(9, 5, 3), (10, 0, 48)]) (mal 0x0102)] ++ s.graphChk p (fld e 8 0 13))

/-- GRAPH_UNLOAD: the number is free at once; a read in progress is abandoned and its fence marked FAILED at
this boundary; generations go as their pins drop. -/
def State.effGraphUnload (s : State) (p : Nat) (e : Cmd) : State :=
  match s.graphOf p (fld e 8 0 13) with
  | none => s
  | some u =>
    let s0 : State := { s with imageReads := s.imageReads.filter fun r => r.graph != u }
    let s1 := foldS (s.imageReads.filter fun r => r.graph == u)
      (fun s r => match r.fence with | some f => s.mark (.report f.1) | none => s)
      (if s0.imageReads.head?.map (fun r => r.graph) = s.imageReads.head?.map (fun r => r.graph) then s0 else s0.readImage)
    let st := fun (g : Graph) => if g.state = .loading then GraphState.loadFailed else g.state
    ((s1.adjGraph u fun g => { g with num := none, kib := 0, state := st g }).dropGens).dropObjs

/-! ### GRAPH_PATCH (05 R162-R164) -/

/-- Live generations counted by GRAPH_PATCH (05 R163): the new one, and every one that a launch pins. -/
def State.liveAfterPatch (s : State) (u : Nat) (x : Graph) : Nat :=
  1 + (x.gens.filter fun g => decide (0 < s.genPins u g.no)).length

/-- GRAPH_PATCH: its checks, but for those that it makes when it decides. -/
def State.chkGraphPatch (s : State) (p : Nat) (e : Cmd) : Option Res :=
  let n := fld e 10 0 8
  let resv := [(9, 5, 3), (11, 0, 40), (16, 0, 64), (24, 0, 64)] ++ (List.range n).flatMap (patchResv e)
  firstOf ([need (zeros e resv) (mal 0x0102)] ++ s.graphChk p (fld e 8 0 13) ++
    (match s.graphOf p (fld e 8 0 13) with
     | none => []
     | some u => match s.graph? u with
       | none => []
       | some x =>
         let bodies := match x.genOf x.cur with | some g => g.bodies | none => []
         [need (x.state == .ready) (acc 0x0253), need (decide (1 ≤ n ∧ n ≤ 254)) (mal 0x0104)] ++
         (patchesOf e).flatMap (patchChk bodies) ++ [need (decide (x.cur < 0xFFFFFFFF)) (acc 0x0255)]))

/-- Would a GRAPH_PATCH make a fifth live generation? -/
def State.patchBusy (s : State) (p : Nat) (e : Cmd) : Bool :=
  match s.graphOf p (fld e 8 0 13) with
  | none => false
  | some u => match s.graph? u with
    | none => false
    | some x => decide (Config.liveGens < s.liveAfterPatch u x)

/-- What GRAPH_PATCH decides by in the tick in which it decides (05 R163): its live count, then its new blocks. -/
def State.chkPatchRoom (s : State) (p : Nat) (e : Cmd) : Option Res :=
  firstOf (need (!s.patchBusy p e) (Res.of .graphBusy 0x0256) :: s.blocksChk p (s.newBlocks p e))

/-- GRAPH_PATCH: the patched generation is current. -/
def State.effGraphPatch (s : State) (p : Nat) (e : Cmd) : State :=
  match s.graphOf p (fld e 8 0 13) with
  | none => s
  | some u => match s.graph? u with
    | none => s
    | some x => match x.genOf x.cur with
      | none => s
      | some g =>
        let ps := patchesOf e
        let t := touched x g.bodies ps
        let blocks := (List.range g.blocks.length).map fun i =>
          match t.idxOf? i with
          | some j => s.nextBlock + j
          | none => g.blocks.getD i 0
        let bodies := (List.range g.bodies.length).map fun i => applyPatches ps i (g.bodies.getD i [])
        let s1 := s.adjGraph u fun x =>
          { x with cur := x.cur + 1,
                   gens := x.gens ++ [{ no := x.cur + 1, bodies := bodies, blocks := blocks }] }
        State.dropGens { s1 with nextBlock := s.nextBlock + t.length }

/-! ### GRAPH_QUERY (05 R160) -/

/-- GRAPH_QUERY: its checks. -/
def State.chkGraphQuery (s : State) (p : Nat) (e : Cmd) : Option Res :=
  firstOf ([need (zeros e [(9, 5, 3), (10, 1, 7), (11, 0, 40), (24, 0, 64)]) (mal 0x0102)] ++
    s.graphChk p (fld e 8 0 13) ++ s.destChk p e 10 96)

/-- The 96-byte report. -/
def State.graphReport (s : State) (u : Nat) : List Byte :=
  match s.graph? u with
  | none => []
  | some x =>
    let ready := x.state == .ready
    let shown := x.state != .loading
    let pairs := (x.gens.take 4).flatMap fun g => leBytes 4 g.no ++ leBytes 4 (s.pinsAtBoundary u g.no)
    leBytes 4 (if ready then x.cur else 0) ++ leBytes 2 (if shown then x.shownNodes else 0) ++
      leBytes 2 (if shown then x.shownWindow else 0) ++ leBytes 1 x.state.code ++ leBytes 1 x.gens.length ++
      leBytes 1 (if x.state = .loadFailed then x.loadStatus else 0) ++ leBytes 1 0 ++
      leBytes 2 (if x.state = .loadFailed then x.loadDetail else 0) ++
      leBytes 2 (dedupNat (x.gens.flatMap fun g => g.blocks)).length ++ leBytes 8 x.launchesDone ++
      leBytes 8 (if shown then x.tag else 0) ++ pairs ++ leBytes (32 - pairs.length) 0 ++
      leBytes 8 (s.ftc % 2 ^ 63) ++ leBytes 24 0

end Sys2Proof.Machine
end

