-- ==== Sys2Proof/Machine/Posting.lean ====
section
/-! DEFINITION. Posting completions (07 R201-R217): error records, the completion word, events on vectors and
their coalescing, and postings that cannot be written. -/
namespace Sys2Proof.Machine

/-! ### Vectors (07 R208-R210) -/

/-- An event of a ring reaches its vector: the counts, and MH_VEC_LAST unless a higher ring has had an event at the same
boundary (07 R208). -/
def State.vecEvent (s : State) (k : Nat) (ev : VecEvent) : State :=
  match s.ring? k with
  | none => s
  | some r =>
    s.adjVec (keyPart k) r.vector fun v =>
      let v1 : Vec := { v with events := satInc 16 v.events, pending := v.pending + 1 }
      if v.lastAt = some s.tick ∧ keyLocal k < v.lastRing then v1
      else { v1 with lastCookie := ev.cookie, lastRing := keyLocal k, lastFailed := ev.failed, lastAt := some s.tick }

/-- The coalescing check of one vector at boundary `b` (07 R209). -/
def State.coalesce1 (s : State) (b p v : Nat) : State :=
  let x := s.vec p v
  let first := if 0 < x.pending ∧ x.first = none then some b else x.first
  let due := decide (x.batch ≤ x.pending ∧ 0 < x.pending) ||
    (decide (0 < x.pending) && (match first with | some f => decide (f + x.holdoff ≤ b) | none => false))
  if due then (s.adjVec p v fun x => { x with pending := 0, first := none }).msix p v
  else s.adjVec p v fun x => { x with first := first }

/-- The coalescing check of every vector of a partition. -/
def State.coalescePart (s : State) (b p : Nat) : State :=
  foldS (Tbl.keys (s.part p).vecs) (fun s v => s.coalesce1 b p v) s

/-- The coalescing check at a boundary, of every vector. -/
def State.coalesce (s : State) (b : Nat) : State := foldS (Tbl.keys s.parts) (fun s p => s.coalescePart b p) s

/-- A mask clears: a pending message is sent (07 R210). -/
def State.unmask (s : State) (p v : Nat) : State :=
  if (s.vec p v).pendingBit && !(s.part p).funcMask && !(s.vec p v).masked then
    (s.adjVec p v fun x => { x with pendingBit := false }).send (.msix p v)
  else s

/-! ### Writes (07 R202-R205) -/

/-- Write bytes for a ring: into device memory, or out to the host with the context's PASID (02 R54). -/
def State.ringWrite (s : State) (k : Nat) (host : Bool) (a : Nat) (bs : List Byte) : State :=
  if host then
    match s.ring? k with
    | some r => s.writeLoc r.ctx (.host a) bs
    | none => s
  else (s.presentAt 5 true (some a) (sectorsIn a bs.length)).storeBytes a bs

/-- Write an error record as record n of the ring's area. -/
def State.writeRec (s : State) (k : Nat) (e : ErrRec) : State :=
  match s.ring? k with
  | none => s
  | some r =>
    let n := r.records
    (s.ringWrite k r.errLoc (r.err + n % 2 ^ r.errLog2 * 32) (e.bytes (n % 2 ^ 16))).adjRing k fun r =>
      { r with records := n + 1 }

/-- Write the completion word. -/
def State.writeWord (s : State) (k p : Nat) : State :=
  match s.ring? k with
  | none => s
  | some r => (s.ringWrite k r.cseqLoc r.cseq (leBytes 8 p)).adjRing k fun r => { r with written := p }

/-! ### The posted count (07 R202, R208) -/

/-- Take from `dones` the completions that now follow the posted count without a gap, at most `n`. -/
def advance : Nat → Nat → List Done → Nat × List Done
  | 0, p, _ => (p, [])
  | n + 1, p, ds =>
    match ds.find? fun d => d.seq == p + 1 with
    | none => (p, [])
    | some d =>
      let (q, l) := advance n (p + 1) ds
      (q, d :: l)

/-- The event that posting an entry causes, if it causes one (07 R207, R208). -/
def Done.event (d : Done) : Option VecEvent :=
  if d.irq || (d.st != .done && !d.logOk) then
    some { seq := d.seq, cookie := d.cookie, failed := d.st != .done }
  else none

/-- Add to what waits behind an outstanding write: records, the highest word, the events. -/
def Hold.add (h : Hold) (recs : List ErrRec) (word : Option Nat) (evs : List VecEvent) : Hold :=
  { h with recs := h.recs ++ recs,
           word := (match word with | some p => some p | none => h.word), events := h.events ++ evs }

/-- Add `n` to a count that saturates at 32 bits. -/
def satAdd32 (a n : Nat) : Nat := min Config.max32 (a + n)

/-- The writes that a ring holds back, in the order of R203: records, and counts of the completion word. -/
def Hold.writes (h : Hold) : List (ErrRec ⊕ Nat) :=
  h.lead.toList.map .inr ++ h.recs.map .inl ++ h.word.toList.map .inr

/-- What stays held once `n` of the held writes have gone. -/
def Hold.after (h : Hold) (n : Nat) (st : HoldState) : Hold :=
  let m := n - natOfBool h.lead.isSome
  let recs := h.recs.drop m
  if n = 0 ∧ h.lead.isSome then { h with st := st }
  else if recs = [] then { h with st := st, lead := h.word, recs := [], word := none }
  else { h with st := st, lead := none, recs := recs }

/-- One posting write, and after a count the events of the entries that it covers (07 R203, R208). -/
def State.issueOne (s : State) (k : Nat) (evs : List VecEvent) (x : ErrRec ⊕ Nat) : State :=
  match x with
  | .inl e => s.writeRec k e
  | .inr p =>
    let was := match s.ring? k with | some r => r.written | none => 0
    foldS (evs.filter fun e => decide (was < e.seq ∧ e.seq ≤ p)) (fun s e => s.vecEvent k e) (s.writeWord k p)

/-- Issue what `h` holds, in order. Where the write numbered `n` of them is not answered, it and those behind it stay
held in the state `st`, or from a first failure where an earlier one went through (07 R215, R217).
Mark: DEDUCED (notes/assumptions/53.md). -/
def State.issue (s : State) (k : Nat) (h : Hold) (fails : Option Nat) (st : HoldState) : State :=
  let ws := h.writes
  match fails with
  | some n =>
    if n < ws.length then
      (foldS (ws.take n) (fun s x => s.issueOne k h.events x) s).adjRing k fun r =>
        { r with hold := some { h.after n (if n = 0 then st else .unanswered 0) with
                                events := h.events.filter fun e => decide (r.written < e.seq) } }
    else (foldS ws (fun s x => s.issueOne k h.events x) s).adjRing k fun r => { r with hold := none }
  | none => (foldS ws (fun s x => s.issueOne k h.events x) s).adjRing k fun r => { r with hold := none }

/-- The write that is not answered among those of ring `r` of partition `p`, by its place.
Mark: DEDUCED (notes/assumptions/53.md). -/
def failsAt (un : List (Nat × Nat × Nat)) (k : Nat) : Option Nat :=
  (un.find? fun x => x.1 == keyPart k && x.2.1 == keyLocal k).map fun x => x.2.2

/-- A ring holds back at most 64 records, the first ones; the others are counted (07 R216). -/
def State.cutHold (s : State) (k : Nat) : State :=
  match (s.ring? k).bind fun r => r.hold with
  | none => s
  | some h =>
    (s.adjRing k fun r => { r with hold := some { h with recs := h.recs.take Config.heldRecords } }).adjCounts (keyPart k) fun c =>
      { c with recDrop := satAdd32 c.recDrop (h.recs.length - Config.heldRecords) }

/-- Post what a ring's completions of this boundary call for: written at once, held behind an unanswered write,
or added to what is held already (07 R203, R215).
Mark: DEDUCED (notes/assumptions/53.md). -/
def State.postRing (s : State) (un : List (Nat × Nat × Nat)) (k : Nat) : State :=
  match s.ring? k with
  | none => s
  | some r =>
    let (p, posted) := advance r.dones.length r.posted r.dones
    let recs := sortBy (fun a b => decide (a.seq ≤ b.seq)) r.newRecs
    let word := if p = r.posted then none else some p
    let evs := posted.filterMap Done.event
    let s1 := s.adjRing k fun r =>
      { r with posted := p, newRecs := [], dones := r.dones.filter fun d => decide (p < d.seq) }
    match r.hold with
    | none => s1.issue k { st := .unanswered 0, lead := none, recs := recs, word := word, events := evs } (failsAt un k)
        (.unanswered 0)
    | some h =>
      let h1 := h.add recs word evs
      match h.st with
      | .unanswered 0 => s1.issue k h1 (failsAt un k) h.st
      | .unanswered _ => (s1.issue k h1 (failsAt un k) h.st).cutHold k
      | _ => (s1.adjRing k fun r => { r with hold := some h1 }).cutHold k

/-- The address of the first write that a ring holds back. -/
def Ring.heldAddr (r : Ring) : Nat :=
  match r.hold with
  | some h => if h.lead.isSome || h.recs == [] then r.cseq else r.err + r.records % 2 ^ r.errLog2 * 32
  | none => 0

/-- The ticks from the report of a failure to the next retry (07 R215). -/
def retryDelay : Nat → Nat
  | 0 => 16
  | 1 => 157
  | _ => 1563

/-- The failure of a ring's outstanding posting write is reported (07 R215, R216): the next retry falls due,
or, after the third, the ring blocks at the next boundary.
Mark: DEDUCED (notes/assumptions/53.md). -/
def State.postingFailed (s : State) (k : Nat) (why : IoFail) : State :=
  match s.ring? k with
  | none => s
  | some r => match r.hold with
    | some h => match h.st with
      | .unanswered n =>
        if n < 3 then (s.adjRing k fun r => { r with hold := some { h with st := .retryIn n (retryDelay n) } }).cutHold k
        else s.adjRing k fun r =>
          { r with hold := some { h with st := .blocking (ioStatus why).code r.heldAddr } }
      | _ => s
    | none => s

/-- The retry of a ring's held writes (07 R215): issued once its interval has run out; with every write answered it
lets everything held go, with the interrupt messages; otherwise the report of the write `fails` is awaited.
Mark: DEDUCED (notes/assumptions/6, 53.md). -/
def State.postingRetry (s : State) (k : Nat) (fails : Option Nat) : State :=
  match s.ring? k with
  | none => s
  | some r => match r.hold with
    | some h => match h.st with
      | .retryIn n 0 =>
        (s.issue k h fails (.unanswered (n + 1))).coalesce1 s.tick (keyPart k) r.vector
      | _ => s
    | none => s

/-- One tick outside a global stop passes for the retry intervals. -/
def Ring.retryTick (r : Ring) : Ring :=
  match r.hold with
  | some h => match h.st with
    | .retryIn n (t + 1) => { r with hold := some { h with st := .retryIn n t } }
    | _ => r
  | none => r

/-- The third retry has failed: the ring enters COMPLETION_BLOCKED (07 R216). -/
def State.blockRing (s : State) (k : Nat) : State :=
  match s.ring? k with
  | none => s
  | some r => match r.hold with
    | some h => match h.st with
      | .blocking why addr =>
        let faulted := match s.ctx? r.ctx with | some c => c.faulted | none => false
        let s1 := s.adjRing k fun r => { r.leaveActive with
          state := .blocked, before := r.state,
          hold := some { h with st := .blocked, lead := none, word := if h.word.isSome then h.word else h.lead } }
        let s2 := s1.ctxFault r.ctx why 0 addr
        if faulted then
          let p := keyPart k
          (s2.adjPart p fun q => { q with fault := true }).msix p (s2.part p).faultVector
        else s2
      | _ => s
    | none => s

/-- RESUME takes effect (03 R89, 07 R217): the ring returns to its earlier state and what it holds is issued, up to a
write that stays unanswered. -/
def State.resumeRing (s : State) (fails : Option Nat) (k : Nat) : State :=
  match s.ring? k with
  | none => s
  | some r =>
    if r.state = .blocked then
      let s1 := s.adjRing k fun r => { r with state := r.before }
      let s2 := if r.before = .active then s1.activate true k else s1
      match r.hold with
      | some h => s2.issue k h fails (.unanswered 0)
      | none => s2
    else s.reject k

end Sys2Proof.Machine
end

