-- ==== Sys2Proof/Machine/Float.lean ====
section
/-! DEFINITION. The number formats of 08 R229 and R442 and the fp32 arithmetic of 04 R137 and 09 R276-R289:
values are exact, and each operation rounds once, to nearest with ties to even. -/
namespace Sys2Proof.Machine

/-- A value: a NaN, an infinity, or `m * 2 ^ e` with a sign. -/
inductive Fp where
  | nan
  | inf (neg : Bool)
  | fin (neg : Bool) (m : Nat) (e : Int)
deriving DecidableEq, Repr

/-! ### Reading -/

/-- A value of a format with `eb` exponent bits, `mb` mantissa bits and a bias, whose all-ones exponent holds
the infinities and NaNs. -/
def fpRead (eb mb : Nat) (v : Nat) : Fp :=
  let neg := bitOf v (eb + mb)
  let e := bitsOf v mb eb
  let m := bitsOf v 0 mb
  let bias : Int := 2 ^ (eb - 1) - 1
  if e = 2 ^ eb - 1 then (if m = 0 then .inf neg else .nan)
  else if e = 0 then .fin neg m (1 - bias - mb)
  else .fin neg (2 ^ mb + m) ((e : Int) - bias - mb)

/-- fp32. -/
def rd32 (v : Nat) : Fp := fpRead 8 23 v
/-- bf16. -/
def rdBf16 (v : Nat) : Fp := fpRead 8 7 v
/-- fp16. -/
def rdFp16 (v : Nat) : Fp := fpRead 5 10 v
/-- fp8 e5m2 (08 R442). -/
def rdE5m2 (v : Nat) : Fp := fpRead 5 2 v
/-- fp8 e4m3 (08 R442): no infinity, one NaN pattern. -/
def rdE4m3 (v : Nat) : Fp :=
  let neg := bitOf v 7
  let e := bitsOf v 3 4
  let m := bitsOf v 0 3
  if e = 15 ∧ m = 7 then .nan
  else if e = 0 then .fin neg m (-9)
  else .fin neg (8 + m) ((e : Int) - 10)

/-- A signed number of `w` bits. -/
def signedOf (w v : Nat) : Int := if v % 2 ^ w < 2 ^ (w - 1) then ((v % 2 ^ w : Nat) : Int) else (v % 2 ^ w : Nat) - 2 ^ w

/-- An integer as a value. -/
def rdInt (i : Int) : Fp := .fin (decide (i < 0)) i.natAbs 0

/-! ### Rounding -/

/-- `m / 2 ^ k` rounded to nearest, ties to even. -/
def rne (m k : Nat) : Nat :=
  let q := m / 2 ^ k
  let r := m % 2 ^ k
  if 2 * r > 2 ^ k ∨ (2 * r = 2 ^ k ∧ q % 2 = 1) then q + 1 else q

/-- The bits of a finite value rounded into a format with `eb` exponent bits and `mb` mantissa bits. -/
def fpRound (eb mb : Nat) (neg : Bool) (m : Nat) (e : Int) : Nat :=
  let sign := natOfBool neg * 2 ^ (eb + mb)
  if m = 0 then sign
  else
    let least : Int := 2 - 2 ^ (eb - 1) - mb
    let lsb : Int := max (e + (Nat.log2 m : Nat) - mb) least
    let q := if lsb ≤ e then m * 2 ^ (e - lsb).toNat else rne m (lsb - e).toNat
    if q < 2 ^ mb then sign + q
    else
      let bits := ((lsb - least).toNat + 1) * 2 ^ mb + (q - 2 ^ mb)
      sign + min bits ((2 ^ eb - 1) * 2 ^ mb)

/-- A quiet NaN of a format; its sign and payload are free.
Mark: DESIGN CHOICE (notes/assumptions/68.md). -/
def fpNan (eb mb : Nat) (k : Nat) : Nat :=
  (2 ^ eb - 1) * 2 ^ mb + 2 ^ (mb - 1) + k % 2 ^ (mb - 1) + bitsOf k (mb - 1) 1 * 2 ^ (eb + mb)

/-- A value written in a format; `k` chooses among NaNs.
Mark: DESIGN CHOICE (notes/assumptions/68.md). -/
def fpWrite (eb mb : Nat) (k : Nat) : Fp → Nat
  | .nan => fpNan eb mb k
  | .inf neg => natOfBool neg * 2 ^ (eb + mb) + (2 ^ eb - 1) * 2 ^ mb
  | .fin neg m e => fpRound eb mb neg m e

/-- A value as fp32. -/
def wr32 (k : Nat) (x : Fp) : Nat := fpWrite 8 23 k x

/-- A value as OUT_FORMAT (04 R136): 0 fp32, 1 bf16, 2 fp16. -/
def wrOut (fmt k : Nat) (x : Fp) : Nat :=
  match fmt with
  | 0 => fpWrite 8 23 k x
  | 1 => fpWrite 8 7 k x
  | _ => fpWrite 5 10 k x

/-! ### Arithmetic on values -/

/-- A signed integer as sign and magnitude; `neg` where it is zero. -/
def finOf (i : Int) (e : Int) (neg : Bool) : Fp :=
  if i = 0 then .fin neg 0 e else .fin (decide (i < 0)) i.natAbs e

/-- The signed mantissa of a finite value at exponent `e0`, which is not above its own. -/
def scaled (neg : Bool) (m : Nat) (e e0 : Int) : Int :=
  let x : Int := (m * 2 ^ (e - e0).toNat : Nat)
  if neg then -x else x

/-- The exact sum. -/
def Fp.add : Fp → Fp → Fp
  | .nan, _ => .nan
  | _, .nan => .nan
  | .inf a, .inf b => if a = b then .inf a else .nan
  | .inf a, _ => .inf a
  | _, .inf b => .inf b
  | .fin a m e, .fin b n f =>
    let e0 := min e f
    finOf (scaled a m e e0 + scaled b n f e0) e0 (a && b)

/-- The exact product. -/
def Fp.mul : Fp → Fp → Fp
  | .nan, _ => .nan
  | _, .nan => .nan
  | .inf a, .inf b => .inf (a != b)
  | .inf a, .fin b n _ => if n = 0 then .nan else .inf (a != b)
  | .fin a m _, .inf b => if m = 0 then .nan else .inf (a != b)
  | .fin a m e, .fin b n f => .fin (a != b) (m * n) (e + f)

/-- The quotient with at least 40 bits and a sticky bit, so that one rounding to fp32 is right. -/
def Fp.div : Fp → Fp → Fp
  | .nan, _ => .nan
  | _, .nan => .nan
  | .inf _, .inf _ => .nan
  | .inf a, .fin b _ _ => .inf (a != b)
  | .fin a _ _, .inf b => .fin (a != b) 0 0
  | .fin a m e, .fin b n f =>
    if n = 0 then (if m = 0 then .nan else .inf (a != b))
    else
      let k := 40 + (Nat.log2 n + 1)
      let x := m * 2 ^ k
      .fin (a != b) (2 * (x / n) + (if x % n = 0 then 0 else 1)) (e - f - k - 1)

/-! ### fp32 operations on bit patterns -/

/-- a + b, rounded to fp32. -/
def add32 (a b : Nat) : Nat := wr32 (Config.nan a b) ((rd32 a).add (rd32 b))
/-- a * b, rounded to fp32. -/
def mul32 (a b : Nat) : Nat := wr32 (Config.nan a b) ((rd32 a).mul (rd32 b))
/-- a / b, rounded to fp32. -/
def div32 (a b : Nat) : Nat := wr32 (Config.nan a b) ((rd32 a).div (rd32 b))
/-- a - b, rounded to fp32. -/
def sub32f (a b : Nat) : Nat := add32 a (if b < 2 ^ 31 then b + 2 ^ 31 else b - 2 ^ 31)
/-- A whole number as fp32, rounded. -/
def nat32 (n : Nat) : Nat := wr32 0 (.fin false n 0)
/-- A conversion to fp32; every format of R229 converts exactly. -/
def to32 (x : Fp) (k : Nat) : Nat := wr32 (Config.nan k k) x

/-- Is the fp32 pattern a NaN? -/
def isNan32 (a : Nat) : Bool := rd32 a == .nan
/-- Is the fp32 pattern finite? -/
def isFin32 (a : Nat) : Bool := match rd32 a with | .fin _ _ _ => true | _ => false
/-- Is the fp32 pattern a zero? -/
def isZero32 (a : Nat) : Bool := a % 2 ^ 31 == 0
/-- The sign of an fp32 pattern. -/
def neg32 (a : Nat) : Bool := bitOf a 31

/-- A number whose order is that of fp32 values; equal zeros are equal, and a NaN lies below every number. -/
def key32 (a : Nat) : Nat :=
  if isNan32 a then 0 else if neg32 a then 2 ^ 31 - a % 2 ^ 31 else 2 ^ 31 + a % 2 ^ 31

/-- Is a product exact in fp32?
Mark: DESIGN CHOICE (notes/assumptions/69.md). -/
def exact32 (x : Fp) : Bool :=
  match x with
  | .fin neg m e =>
    (match rd32 (wr32 0 x) with
     | .fin neg' m' e' => neg == neg' && decide (scaled neg m e (min e e') = scaled neg' m' e' (min e e'))
     | _ => false)
  | _ => true

/-- The product of two elements in fp32 (09 R289): exact where fp32 holds it, else a free value.
Mark: DESIGN CHOICE (notes/assumptions/69.md). -/
def prod32 (x y : Fp) (a b : Nat) : Nat :=
  let p := x.mul y
  if exact32 p then wr32 (Config.nan a b) p else Config.product a b % 2 ^ 32

/-! ### Elements (08 R229; 04 R140) -/

/-- An element of a row: bits `v` of the format, before any scale. -/
def elemFp (format v : Nat) : Fp :=
  match format with
  | 0 => rd32 v
  | 1 => rdBf16 v
  | 2 => rdFp16 v
  | 3 => rdE4m3 v
  | 4 => rdE5m2 v
  | 5 => rdInt (signedOf 8 v)
  | _ => rdInt (signedOf 4 v)

/-- Bytes of an element of formats 0 to 5. -/
def elemBytes (format : Nat) : Nat := match format with | 0 => 4 | 1 => 2 | 2 => 2 | _ => 1

/-- Elements of a row (08 R229). -/
def rowElems (format bytes : Nat) : Nat :=
  match format with
  | 5 => bytes - 4
  | 6 => 2 * (bytes - 4)
  | f => bytes / elemBytes f

/-- Element `j` of a row as fp32, with its row's scale for formats 5 and 6. -/
def rowElem (format : Nat) (row : List Byte) (j : Nat) : Nat :=
  let at_ := fun (o n : Nat) => leNat ((row.drop o).take n)
  let scale := at_ (row.length - 4) 4
  match format with
  | 5 => mul32 (to32 (elemFp 5 (at_ j 1)) 0) scale
  | 6 => mul32 (to32 (elemFp 6 (at_ (j / 2) 1 / 16 ^ (j % 2))) 0) scale
  | f => let v := at_ (j * elemBytes f) (elemBytes f); to32 (elemFp f v) v

end Sys2Proof.Machine
end

