-- ==== Sys2Proof/Machine/Tables.lean ====
section
/-! DEFINITION. Embedding tables and their row maps (08 R228-R232, R257-R263), refresh sets (R246, R260, R261),
and the table epoch cycle of Coppice (R244-R255). -/
namespace Sys2Proof.Machine

/-! ### Tables by number -/

/-- The table of a uid. -/
def State.table? (s : State) (u : Nat) : Option Table := Tbl.get? s.tables u

/-- Change a table. -/
def State.adjTable (s : State) (u : Nat) (f : Table → Table) : State := { s with tables := Tbl.adjust s.tables u f }

/-- The uid of the table that a local number names. -/
def State.tableOf (s : State) (p t : Nat) : Option Nat :=
  (s.tables.find? fun e => e.2.part == p && e.2.num == some t).map fun e => e.1

/-- Tables that have a number. -/
def State.liveTables (s : State) : List (Nat × Table) := s.tables.filter fun e => e.2.num.isSome

/-- Local rows of a shard (08 R230). -/
def localRows (rows shards shard : Nat) : Nat := (rows - 1 - shard) / shards + 1

/-- LROWS of a table. -/
def Table.lrows (t : Table) : Nat := localRows t.rows t.shards t.shard

/-- The checks of a table number (08 R257-R263). -/
def State.tableChk (s : State) (p t : Nat) : List (Option Res) :=
  [need (decide (t < (s.part p).quota.tables)) (acc 0x0001), need (s.tableOf p t).isSome (acc 0x0211)]

/-- Is the table READY? -/
def State.tableReady (s : State) (p t : Nat) : Bool :=
  match s.tableOf p t with
  | none => false
  | some u => match s.table? u with | some x => x.state == .ready | none => false

/-! ### Where the slots and the map lie -/

/-- Starts of runs of whole free pages of a tier that hold `bytes` contiguously. -/
def State.runStarts (s : State) (p tier bytes : Nat) : List Nat :=
  let ranges := (s.part p).pages tier
  let used := (s.objsIn p tier).flatMap fun o => o.pages.map fun a => a / Config.pageBytes * Config.pageBytes
  ranges.flatMap fun r =>
    let taken := sortBy (fun x y => decide (x.1 ≤ y.1))
      ((dedupNat (used.filter fun a => decide (r.1 ≤ a) && decide (a < r.1 + r.2 * Config.pageBytes))).map
        fun a => (a, a + Config.pageBytes))
    gaps (roundUp bytes Config.pageBytes) (r.1 + r.2 * Config.pageBytes) r.1 taken

/-- Where a contiguous area of a tier may start (08 R231): within one page as 06 R196 has it, or at a run.
Mark: DESIGN CHOICE (notes/assumptions/51.md). -/
def State.areaStarts (s : State) (p tier bytes : Nat) : List Nat :=
  (if bytes ≤ Config.pageBytes then s.smallGaps p tier bytes else []) ++ s.runStarts p tier bytes

/-- Memory of the partition that an area takes.
Mark: DEDUCED (notes/assumptions/31.md). -/
def areaBytes (bytes : Nat) : Nat :=
  if bytes ≤ Config.pageBytes then granuleBytes bytes else roundUp bytes Config.pageBytes

/-- An area as an object. -/
def areaObj (p tier bytes a : Nat) : Obj :=
  { part := p, tier := tier, size := bytes,
    pages := if bytes ≤ Config.pageBytes then [a]
             else (List.range (ceilDiv bytes Config.pageBytes)).map fun i => a + i * Config.pageBytes }

/-- Add an object. -/
def State.addObj (s : State) (o : Obj) : Nat × State :=
  (s.nextObj, { s with objs := Tbl.set s.objs s.nextObj o, nextObj := s.nextObj + 1 })

/-- Starts of the slots after which the map still fits. -/
def State.tableStarts (s : State) (p tier slotBytes mapBytes : Nat) : List Nat :=
  (s.areaStarts p tier slotBytes).filter fun a =>
    (s.addObj (areaObj p tier slotBytes a)).2.areaStarts p 0 mapBytes != []

/-! ### The row map (08 R231, R232) -/

/-- The half that belongs to a live epoch. -/
def State.halfOf (s : State) (e : Nat) : Nat := if e = s.epoch then s.cop.half else 1 - s.cop.half

/-- The next half, which no live epoch owns once the previous epoch is retired. -/
def State.nextHalf (s : State) : Nat := 1 - s.cop.half

/-- The place of a half of the entry of a local row. -/
def Table.entry (t : Table) (i half : Nat) : Loc := .dev t.map (8 * i + 4 * half)

/-- The value of a half of an entry. -/
def State.mapHalf (s : State) (t : Table) (i half : Nat) : Nat := leNat (s.readLoc (t.entry i half) 4)

/-- Write a half of an entry. -/
def State.setHalf (s : State) (t : Table) (half : Nat) (r : Nat × Nat) : State :=
  s.storeLoc (t.entry r.1 half) (leBytes 4 r.2)

/-- The slot that a half's value names for a local row. -/
def Table.slotOf (t : Table) (i v : Nat) : Nat := if v = 0 then i else t.lrows + v - 1

/-- The half value that names a slot. -/
def Table.valueOf (t : Table) (slot : Nat) : Nat := if slot < t.lrows then 0 else slot - t.lrows + 1

/-- The place of a slot. -/
def Table.slotLoc (t : Table) (slot : Nat) : Loc := .dev t.slots (slot * t.rowBytes)

/-- The halves that keep slots from being free: the current one, and the other while a previous epoch is live or
CATCHUP runs (08 R246). -/
def State.keptHalves (s : State) : List Nat :=
  if s.cop.prev.isSome || s.cop.phase == .catchup then [0, 1] else [s.cop.half]

/-- The slots that are not free, but for the committed and open sets. -/
def State.mappedSlots (s : State) (t : Table) : List Nat :=
  s.keptHalves.flatMap fun h => (List.range t.lrows).map fun i => t.slotOf i (s.mapHalf t i h)

/-- The slots that the committed and open sets name. -/
def Table.setSlots (t : Table) : List Nat :=
  (t.openRows ++ (match t.committed with | some c => c.rows | none => [])).map fun r => t.slotOf r.1 r.2

/-- Is a slot free (08 R246)? -/
def State.slotFree (s : State) (t : Table) (slot : Nat) : Bool :=
  !(s.mappedSlots t).contains slot && !t.setSlots.contains slot

/-- The lowest-numbered free shadow slot. -/
def State.freeShadow (s : State) (t : Table) : Option Nat :=
  let used := s.mappedSlots t ++ t.setSlots
  ((List.range (used.length + 1)).find? fun k => decide (k < t.shadow) && !used.contains (t.lrows + k)).map
    fun k => t.lrows + k

/-- The number of free shadow slots. -/
def State.shadowFree (s : State) (t : Table) : Nat :=
  t.shadow - (dedupNat ((s.mappedSlots t ++ t.setSlots).filter fun j => decide (t.lrows ≤ j))).length

/-- Invalidate the cache lines of slots of a table (08 R241). -/
def State.dropRowLines (s : State) (u : Nat) (slots : List Nat) : State :=
  { s with marshal := { s.marshal with lines := s.marshal.lines.filter fun l =>
      !(l.table == u && !l.isMap && slots.contains l.idx) } }

/-- Invalidate every cache line of a table. -/
def State.dropTableLines (s : State) (u : Nat) : State :=
  { s with marshal := { s.marshal with lines := s.marshal.lines.filter fun l => l.table != u } }

/-- A destroyed table's memory returns once the last GATHER that started before the destroy is gone
(08 R262). -/
def State.dropTables (s : State) : State :=
  State.dropObjs { s with tables := s.tables.filter fun e =>
    e.2.num.isSome || s.marshal.gathers.any fun g => g.2.tables.any fun t => t.2 == e.1 }

/-! ### The epoch domain (08 R252) -/

/-- Does a chip lie in the epoch domain, found at bring-up or not?
Mark: DESIGN CHOICE (notes/assumptions/12.md). -/
def State.inDomain (s : State) (c : Nat) : Bool :=
  match s.cfg.domain with
  | 0 => c == s.fab.chip
  | 1 => c / 64 == s.fab.chip / 64
  | _ => decide (c < 2 ^ 15)

/-- The chips of the domain at fabric bring-up, this one among them.
Mark: DESIGN CHOICE (notes/assumptions/12.md). -/
def State.domainChips (s : State) : List Nat :=
  if s.cfg.domain = 0 ∨ s.cfg.fabric = false then [s.fab.chip]
  else s.fab.chip :: (s.fab.found.filter s.inDomain)

/-- Is the domain this chip alone?
Mark: DESIGN CHOICE (notes/assumptions/12.md). -/
def State.soleDomain (s : State) : Bool := s.domainChips == [s.fab.chip]

/-- Is this chip the coordinator? None is before fabric bring-up (08 R252, R265).
Mark: DEDUCED (notes/assumptions/72.md). -/
def State.coordinates (s : State) : Bool := s.cop.coord == some s.fab.chip

/-! ### TABLE_CREATE (08 R257, R258) -/

/-- A fence of a table command with its value, which stands at byte `v`. -/
def tableFence (p : Nat) (e : Cmd) (b v : Nat) : Option (Nat × Nat) :=
  (optFence p e b).map fun k => (k, fld e v 0 64)

/-- The shard that this chip holds. -/
def State.shardOf (s : State) (e : Cmd) : Nat :=
  if fld e 14 0 8 = 0 then 0 else s.fab.chip - fld e 16 0 15

/-- LROWS of a TABLE_CREATE. -/
def State.createRows (s : State) (e : Cmd) : Nat :=
  localRows (fld e 32 0 64) (2 ^ fld e 14 0 8) (s.shardOf e)

/-- Bytes of the slots of a TABLE_CREATE. -/
def State.slotBytes (s : State) (e : Cmd) : Nat := (s.createRows e + fld e 40 0 32) * fld e 10 0 16

/-- TABLE_CREATE: its checks. -/
def State.chkTableCreate (s : State) (p : Nat) (e : Cmd) : Option Res :=
  let c0 := pkey p 0
  let t := fld e 8 0 12
  let rb := fld e 10 0 16
  let tier := fld e 13 0 1
  let zero := flag e 13 3
  let lg := fld e 14 0 8
  let sh := 2 ^ lg
  let chip0 := fld e 16 0 15
  let rows := fld e 32 0 64
  let key := fld e 64 0 64
  firstOf ([need (zeros e ([(9, 4, 4), (13, 4, 4), (15, 0, 8), (17, 7, 1), (18, 0, 16), (22, 4, 4), (23, 0, 7),
      (44, 0, 32), (72, 0, 64)] ++ if zero then [] else mrefResv 48)) (mal 0x0102),
    need (decide (t < (s.part p).quota.tables)) (acc 0x0001),
    need (s.tableOf p t).isNone (acc 0x02A0),
    need (decide (s.liveTables.length + s.aside (oneOf [0xE0]) < Config.tables)) (acc 0x02A1),
    need (decide (32 ≤ rb ∧ rb ≤ 1024) && rb % 32 == 0) (mal 0x0104),
    need (decide (fld e 12 0 8 ≤ 6)) (mal 0x0104),
    need (fld e 13 1 2 != 3) (mal 0x0104),
    need (tier == 0 || decide (0 < (s.part p).quota.mem1)) (acc 0x0283),
    need (decide (lg ≤ 15)) (mal 0x0104),
    (if lg = 0 then need (chip0 == 0) (mal 0x0104)
     else firstOf [need (decide (chip0 ≤ s.fab.chip) && decide (s.fab.chip - chip0 < sh)) (mal 0x02A4),
       need ((List.range sh).all fun i => s.inDomain (chip0 + i)) (acc 0x02A8)])] ++
    s.optFenceChk p e 20 ++
    [need (decide (1 ≤ rows ∧ rows ≤ 2 ^ 40 ∧ sh ≤ rows)) (mal 0x0104),
     need (decide (fld e 40 0 32 ≤ 0xFFFFFFFE)) (mal 0x0104),
     (if zero then need (zeroBytes e 48 64) (mal 0x0104)
      else firstOf [need (!mrefHost e 48) (acc 0x02AF), s.mrefA c0 e 48]),
     (if lg = 0 then need (key == 0) (mal 0x0104)
      else firstOf [need (key != 0) (acc 0x02A8), need (s.liveTables.all fun x => x.2.key != key) (acc 0x02AB)]),
     (if zero then none else s.mrefB c0 e 48 (s.createRows e * rb) 64),
     need (s.tableStarts p tier (s.slotBytes e) (8 * s.createRows e) != []) (acc 0x02A2)])

/-- TABLE_CREATE: the table exists in state LOADING and its memory is charged; every map entry is zero. -/
def State.effTableCreate (s : State) (p : Nat) (e : Cmd) (loc : Loc) : State :=
  let tier := fld e 13 0 1
  let n := s.slotBytes e
  let m := 8 * s.createRows e
  let (a, s1) := s.takeOne (s.tableStarts p tier n m)
  let (so, s2) := s1.addObj (areaObj p tier n (a.getD 0))
  let (b, s3) := s2.takeOne (s2.areaStarts p 0 m)
  let (mo, s4) := s3.addObj (areaObj p 0 m (b.getD 0))
  let t : Table :=
    { part := p, num := some (fld e 8 0 12), state := .loading, rowBytes := fld e 10 0 16, format := fld e 12 0 8,
      rows := fld e 32 0 64, shards := 2 ^ fld e 14 0 8,
      chip0 := (if fld e 14 0 8 = 0 then s.fab.chip else fld e 16 0 15), shard := s.shardOf e, tier := tier,
      cache := fld e 13 1 2, shadow := fld e 40 0 32, key := fld e 64 0 64, slots := so, map := mo,
      loadSrc := (if flag e 13 3 then none else some loc), loadFence := tableFence p e 20 24, loadStatus := 0,
      loadDetail := 0, openRows := [], openFailed := false, committed := none, stages := [], stageStatus := 0,
      stageDetail := 0, stageElem := 0, lastEpoch := 0 }
  { s4 with tables := Tbl.set s4.tables s4.nextTable t, nextTable := s4.nextTable + 1 }

/-- Clear an area page by page. -/
def State.clearObj (s : State) (o : Nat) : State :=
  match s.obj? o with
  | none => s
  | some x => match x.pages with
    | [a] => s.clearBytes a x.size
    | ps => foldS ps (fun s a => s.clearBytes a Config.pageBytes) s

/-- A fence of background work: signalled where it succeeded, marked FAILED where it did not (08 R258, R260). -/
def State.workFence (s : State) (f : Option (Nat × Nat)) (ok : Bool) : State :=
  match f with
  | none => s
  | some x => s.ownSignal x.1 (if ok then some x.2 else none)

/-- The creation work of a table has ended (08 R258): home slots hold the source or zeros, the map is zero.
Mark: DEDUCED (notes/assumptions/50.md). -/
def State.tableLoaded (s : State) (u : Nat) (io : Io) : State :=
  match s.table? u with
  | none => s
  | some t =>
    if t.state ≠ .loading then s
    else match io with
    | .fail why a =>
      State.dropObjs ((((s.adjTable u fun t =>
        { t with state := .loadFailed, loadStatus := (ioStatus why).code, loadDetail := ioDetail why,
                 loadSrc := none }).ctxFault (pkey t.part 0) (ioStatus why).code 0xE0 a)).workFence t.loadFence false)
    | .ok _ =>
      let s1 := (s.clearObj t.map).clearObj t.slots
      let s2 := match t.loadSrc with
        | some src => s1.storeLoc (t.slotLoc 0) (s.readLoc src (t.lrows * t.rowBytes))
        | none => s1
      State.dropObjs ((s2.adjTable u fun t => { t with state := .ready, loadSrc := none }).workFence t.loadFence true)

/-! ### TABLE_STAGE (08 R259, R260) -/

/-- TABLE_STAGE: its checks. -/
def State.chkTableStage (s : State) (p : Nat) (e : Cmd) : Option Res :=
  let c0 := pkey p 0
  let t := fld e 8 0 12
  let n := fld e 12 0 24
  let rb := match s.tableOf p t with
    | some u => (match s.table? u with | some x => x.rowBytes | none => 0)
    | none => 0
  firstOf ([need (zeros e ([(9, 4, 4), (10, 0, 16), (15, 0, 8), (50, 4, 4), (51, 0, 7), (52, 0, 32)] ++ mrefResv 16 ++
      mrefResv 32)) (mal 0x0102)] ++
    s.tableChk p t ++
    [need (s.tableReady p t) (acc 0x02A3), need (n != 0) (mal 0x0104),
     need (!mrefHost e 16) (acc 0x02AF), s.mrefA c0 e 16, need (!mrefHost e 32) (acc 0x02AF), s.mrefA c0 e 32] ++
    s.optFenceChk p e 48 ++ [s.mrefB c0 e 16 (8 * n) 8, s.mrefB c0 e 32 (rb * n) 32])

/-- TABLE_STAGE: the stage is posted behind the earlier ones of its table. -/
def State.effTableStage (s : State) (p : Nat) (e : Cmd) (locs : List Loc) : State :=
  match s.tableOf p (fld e 8 0 12) with
  | none => s
  | some u => s.adjTable u fun t =>
      { t with stages := t.stages ++ [{ idx := locs.getD 0 (.dev 0 0), data := locs.getD 1 (.dev 0 0),
                                        n := fld e 12 0 24, fence := tableFence p e 48 56 }] }

/-- Target of a local row that is staged (08 R246). -/
def State.stageTarget (s : State) (t : Table) (i : Nat) : Option Nat :=
  match Tbl.get? t.openRows i with
  | some v => some (t.slotOf i v)
  | none => if s.slotFree t i then some i else s.freeShadow t

/-- Why a stage stopped: status, DETAIL, element. -/
abbrev StageStop := Option (Status × Nat × Nat)

/-- Stage one element; `none` where it went well. -/
def State.stageElem (s : State) (u : Nat) (j : StageJob) (k : Nat) : Option (Status × Nat) × State :=
  match s.table? u with
  | none => (none, s)
  | some t =>
    let x := leNat (s.readLoc (j.idx.plus (8 * k)) 8)
    let r := x % 2 ^ 40
    let i := r / t.shards
    if x / 2 ^ 40 ≠ 0 then (some (.malformed, 0x0102), s)
    else if t.rows ≤ r ∨ r % t.shards ≠ t.shard then (some (.malformed, 0x02A9), s)
    else match s.stageTarget t i with
    | none => (some (.access, 0x02A5), s)
    | some slot =>
      let s1 := s.storeLoc (t.slotLoc slot) (s.readLoc (j.data.plus (k * t.rowBytes)) t.rowBytes)
      (none, s1.adjTable u fun t => { t with openRows := Tbl.set t.openRows i (t.valueOf slot) })

/-- Stage elements from `k` on, at most `n`, until one fails. -/
def State.stageElems (s : State) (u : Nat) (j : StageJob) : Nat → Nat → StageStop × State
  | 0, _ => (none, s)
  | n + 1, k =>
    match s.stageElem u j k with
    | (some (st, d), s1) => (some (st, d, k), s1)
    | (none, s1) => State.stageElems s1 u j n (k + 1)

/-- The element whose index or data a failed access concerns; where the address does not tell, a free one. -/
def State.stageErr (s : State) (t : Table) (j : StageJob) (a : Nat) : Nat × State :=
  let hit := fun (l : Loc) (n : Nat) => (List.range n).any fun i => s.locAddr (l.plus i) / 64 == a / 64
  match (List.range j.n).find? fun k => hit (j.idx.plus (8 * k)) 8 || hit (j.data.plus (k * t.rowBytes)) t.rowBytes with
  | some k => (k, s)
  | none => let (f, s1) := s.takeFree; (f % max 1 j.n, s1)

/-- The stage at the head of a table's queue has ended (08 R260). -/
def State.stageEnded (s : State) (u : Nat) (io : Io) : State :=
  match s.table? u with
  | none => s
  | some t => match t.stages with
    | [] => s
    | j :: rest =>
      let (stop, s1) : StageStop × State := match io with
        | .ok _ => s.stageElems u j j.n 0
        | .fail why a =>
          let (k, s1) := s.stageErr t j a
          let (st, s2) := s1.stageElems u j k 0
          match st with
          | some x => (some x, s2)
          | none => (some (ioStatus why, ioDetail why, k),
                     s2.ctxFault (pkey t.part 0) (ioStatus why).code 0xE1 a)
      let s2 := match stop with
        | some (st, d, k) => s1.adjTable u fun t =>
            { t with stages := rest, openFailed := true, stageStatus := st.code, stageDetail := d, stageElem := k }
        | none => s1.adjTable u fun t => { t with stages := rest }
      (s2.workFence j.fence stop.isNone).dropObjs

/-! ### TABLE_COMMIT (08 R261) -/

/-- TABLE_COMMIT: its checks. -/
def State.chkTableCommit (s : State) (p : Nat) (e : Cmd) : Option Res :=
  let t := fld e 8 0 12
  let x := match s.tableOf p t with | some u => s.table? u | none => none
  let discard := flag e 10 1
  firstOf ([need (zeros e [(9, 4, 4), (10, 2, 6), (11, 0, 8), (14, 4, 4), (15, 0, 7), (24, 0, 64)]) (mal 0x0102)] ++
    s.tableChk p t ++
    [need (s.tableReady p t) (acc 0x02A3), need (!(flag e 10 0 && discard)) (mal 0x0104)] ++ s.optFenceChk p e 12 ++
    (match x with
     | none => []
     | some x =>
       [need (x.stages == []) (acc 0x02A7), need (discard || x.committed.isNone) (acc 0x02A6),
        need (discard || !x.openFailed) (acc 0x02AA)]))

/-- A flip is requested; a request already pending takes it in. -/
def State.requestFlip (s : State) : State :=
  { s with cop := { s.cop with request := some (s.cop.request.getD s.tick) } }

/-- TABLE_COMMIT: the open set is discarded, or becomes the committed set. -/
def State.effTableCommit (s : State) (p : Nat) (e : Cmd) : State :=
  match s.tableOf p (fld e 8 0 12) with
  | none => s
  | some u =>
    let f := tableFence p e 12 16
    if flag e 10 1 then
      (s.adjTable u fun t => { t with openRows := [], openFailed := false }).workFence f true
    else
      let s1 := s.adjTable u fun t =>
        let c : RowSet := { rows := t.openRows, fence := f, at_ := s.tick, order := s.cop.sets, filled := false,
                            carried := false }
        { t with openRows := [], committed := some c }
      let s2 : State := { s1 with cop := { s1.cop with sets := s1.cop.sets + 1 } }
      if flag e 10 0 then s2.requestFlip else s2

/-! ### TABLE_DESTROY (08 R262) and TABLE_QUERY (08 R263) -/

/-- TABLE_DESTROY: its checks. -/
def State.chkTableDestroy (s : State) (p : Nat) (e : Cmd) : Option Res :=
  firstOf ([need (zeros e [(9, 4, 4), (10, 0, 48)]) (mal 0x0102)] ++ s.tableChk p (fld e 8 0 12))

/-- The next half of every entry that the fill of a set has written has the value of the current half again (08 R250). -/
def State.restoreHalf (s : State) (t : Table) (c : RowSet) : State :=
  if c.filled then
    foldS (Tbl.keys c.rows) (fun s i => s.setHalf t s.nextHalf (i, s.mapHalf t i s.cop.half)) s
  else s

/-- Mark the fence of abandoned work FAILED at this boundary. -/
def State.failFence (s : State) (f : Option (Nat × Nat)) : State :=
  match f with | some x => s.mark (.report x.1) | none => s

/-- A table is destroyed: its number is free, unfinished work is abandoned, its committed set dropped. -/
def State.destroyTable (s : State) (u : Nat) : State :=
  match s.table? u with
  | none => s
  | some t =>
    let s1 := foldS t.stages (fun s j => s.failFence j.fence) s
    let s2 := if t.state = .loading then s1.failFence t.loadFence else s1
    let s3 := match t.committed with | some c => (s2.restoreHalf t c).failFence c.fence | none => s2
    let s4 := (s3.adjTable u fun t =>
      { t with num := none, stages := [], loadSrc := none, committed := none, openRows := [] }).dropTableLines u
    s4.dropTables

/-- TABLE_DESTROY: its effect. -/
def State.effTableDestroy (s : State) (p : Nat) (e : Cmd) : State :=
  match s.tableOf p (fld e 8 0 12) with
  | none => s
  | some u => s.destroyTable u

/-- TABLE_QUERY: its checks. -/
def State.chkTableQuery (s : State) (p : Nat) (e : Cmd) : Option Res :=
  firstOf ([need (zeros e [(9, 4, 4), (10, 1, 7), (11, 0, 40), (24, 0, 64)]) (mal 0x0102)] ++
    s.tableChk p (fld e 8 0 12) ++ s.destChk p e 10 64)

/-- The code of a table's state. -/
def TableState.code : TableState → Nat | .loading => 1 | .ready => 2 | .loadFailed => 3

/-- The 64-byte report.
Mark: DEDUCED (notes/assumptions/31.md). -/
def State.tableReport (s : State) (u : Nat) : List Byte :=
  match s.table? u with
  | none => []
  | some t =>
    let flags := natOfBool t.openFailed + 2 * natOfBool t.committed.isSome + 4 * natOfBool (t.stages != [])
    let com := match t.committed with | some c => c.rows.length | none => 0
    leBytes 1 t.state.code ++ leBytes 1 flags ++ leBytes 1 t.loadStatus ++ leBytes 1 t.stageStatus ++
      leBytes 2 t.loadDetail ++ leBytes 2 t.stageDetail ++ leBytes 8 t.lrows ++ leBytes 4 (s.shadowFree t) ++
      leBytes 4 t.openRows.length ++ leBytes 4 com ++ leBytes 4 t.lastEpoch ++
      leBytes 8 ((t.lrows + t.shadow) * t.rowBytes + 8 * t.lrows) ++
      leBytes 8 t.stageElem ++ leBytes 8 t.key ++ leBytes 8 (s.ftc % 2 ^ 63)

/-! ### The epoch cycle (08 R247-R251) -/

/-- Change Coppice. -/
def State.adjCop (s : State) (f : Coppice → Coppice) : State := { s with cop := f s.cop }

/-- The tables with a committed set, in commit order. -/
def State.committedSets (s : State) : List (Nat × RowSet) :=
  sortBy (fun a b => decide (a.2.order ≤ b.2.order))
    (s.tables.filterMap fun e => e.2.committed.map fun c => (e.1, c))

/-- The set that Coppice fills: in OPEN the first in commit order, in PREPARE the first that is carried. -/
def State.filling (s : State) : Option Nat :=
  ((s.committedSets.filter fun c => !c.2.filled && (s.cop.phase == .opening || c.2.carried)).head?).map fun c => c.1

/-- The fill of a table's committed set: the half value of each row into the next half of its entry. -/
def State.fillSet (s : State) (u : Nat) : State :=
  match s.table? u with
  | none => s
  | some t => match t.committed with
    | none => s
    | some c =>
      (foldS c.rows (fun s r => s.setHalf t s.nextHalf r) (s.presentAt 2 true none c.rows.length)).adjTable u fun t =>
        { t with committed := some { c with filled := true } }

/-- A fill fails (08 R250): the set is dropped and its fence marked FAILED; nothing of it has been written. -/
def State.dropSet (s : State) (u : Nat) (why : IoFail) (a : Nat) : State :=
  match s.table? u with
  | none => s
  | some t => match t.committed with
    | none => s
    | some c =>
      ((s.adjTable u fun t => { t with committed := none }).ctxFault (pkey t.part 0) (ioStatus why).code 0xE2 a).workFence
        c.fence false

/-- The fill of a set has ended. -/
def State.fillEnded (s : State) (u : Nat) (io : Io) : State :=
  match io with
  | .ok _ => s.fillSet u
  | .fail why a => s.dropSet u why a

/-- The code of a phase (08 R265). -/
def EpochPhase.code : EpochPhase → Nat
  | .opening => 0 | .prepare => 1 | .drain => 2 | .catchup => 3

/-- The EPOCH trace event of a new phase (15 R431). -/
def State.epochEvent (s : State) : State := s.event 805 0x09 none s.epoch s.cop.phase.code 0

/-- The sets committed by now are carried by the flip that is being prepared. -/
def State.carrySets (s : State) : State :=
  { s with tables := Tbl.mapV s.tables fun _ t => { t with committed := t.committed.map fun c => { c with carried := true } } }

/-- PREPARE is entered, with the sets that are marked as carried. -/
def State.beginPrepare (s : State) : State :=
  (s.adjCop fun c => { c with phase := .prepare, readyDue := false, readySent := false, waited := 0,
                              prepareHeld := false }).epochEvent

/-- PREPARE is entered: the sets committed by now are carried. -/
def State.enterPrepare (s : State) : State := s.carrySets.beginPrepare

/-- The fences of the carried commits are signalled in step 2 of the flip's boundary. -/
def State.flipFences (s : State) : State :=
  foldS (s.committedSets.filter fun c => c.2.carried) (fun s c => s.workFence c.2.fence true) s

/-- The epoch that follows (08 R244). -/
def nextEpoch (e : Nat) : Nat := if e = 0xFFFFFFFF then 1 else e + 1

/-- The flip of step 4 (08 R248). -/
def State.flip (s : State) : State :=
  let carried := s.committedSets.filter fun c => c.2.carried
  let new := nextEpoch s.epoch
  let s1 : State := { s with
    epoch := new
    tables := Tbl.mapV s.tables fun _ t =>
      match t.committed with
      | some c => if c.carried then { t with committed := none, lastEpoch := new } else t
      | none => t }
  (s1.adjCop fun c =>
    { c with half := 1 - c.half, prev := some s.epoch, phase := .drain, request := none, flipDue := false, ran := 0,
             graceDone := false, carriedRows := carried.map fun x => (x.1, Tbl.keys x.2.rows),
             lastFlip := s.ftc % 2 ^ 63, requestSent := false, readyDue := false, readySent := false,
             flipSent := false, readyFrom := [], clearFrom := [], clearSent := false, retireDue := false, waited := 0 }).epochEvent

/-- The previous epoch is retired and CATCHUP begins. -/
def State.retire (s : State) : State :=
  (s.adjCop fun c => { c with prev := none, phase := .catchup, retireDue := false, clearFrom := [], waited := 0 }).epochEvent

/-- The slots that only the retired epoch named, of one table. -/
def State.retiredSlots (s : State) (t : Table) : List Nat :=
  let old := (List.range t.lrows).map fun i => t.slotOf i (s.mapHalf t i s.nextHalf)
  let cur := (List.range t.lrows).map fun i => t.slotOf i (s.mapHalf t i s.cop.half)
  old.filter fun j => !cur.contains j && !t.setSlots.contains j

/-- CATCHUP ends (08 R247): the next half of every carried row equals the current half, and the slots that only
the retired epoch named are free. A PREPARE that came meanwhile is entered now (08 R254). -/
def State.catchupDone (s : State) : State :=
  let s1 := foldS s.cop.carriedRows (fun s c =>
    match s.table? c.1 with
    | none => s
    | some t =>
      let free := s.retiredSlots t
      (foldS c.2 (fun s i => s.setHalf t s.nextHalf (i, s.mapHalf t i s.cop.half))
        (s.presentAt 2 true none c.2.length)).dropRowLines c.1 free) s
  let s2 := (s1.adjCop fun c => { c with phase := .opening, carriedRows := [] }).epochEvent
  if s.cop.prepareHeld then s2.beginPrepare else s2

/-! ### Epochs across chips (08 R253, R254) -/

/-- Originate an EPOCH_FLIP flit to a chip or a group. -/
def State.sendEpoch (s : State) (op dst : Nat) : State :=
  (s.sendFlit 0x30 dst (s.tick + s.lead) (BitVec.ofNat 64 (s.epoch + 2 ^ 32 * op)) 0 0).2

/-- The DST that names the domain. -/
def State.domainDst (s : State) : Nat :=
  if s.cfg.domain = 1 then 2 ^ 15 + s.fab.chip / 64 else 0xFFFF

/-- The coordinator sends to the domain, and takes part itself at the same effective tick. -/
def State.sendDomain (s : State) (op : Nat) : State :=
  let f : Flit := { kind := 0x30, hops := 7, src := s.fab.chip, dst := s.fab.chip, seq := 0, eff := s.tick + s.lead,
                    w0 := BitVec.ofNat 64 (s.epoch + 2 ^ 32 * op), w1 := 0, w2 := 0, inc := s.fab.incarnation, crc := 0 }
  let s1 := s.sendEpoch op s.domainDst
  { s1 with fab := { s1.fab with hold := s1.fab.hold ++ [(s.tick, f)] } }

/-- A chip's READY or CLEAR reaches the coordinator, or its own counts at once. -/
def State.toCoordinator (s : State) (op : Nat) : State :=
  if s.coordinates then
    s.adjCop fun c =>
      if op = 3 then { c with readyFrom := dedupNat (s.fab.chip :: c.readyFrom) }
      else if op = 5 then { c with clearFrom := dedupNat (s.fab.chip :: c.clearFrom) } else c
  else s.sendEpoch op (s.cop.coord.getD 0)

/-- Has every chip of the domain answered?
Mark: DESIGN CHOICE (notes/assumptions/12.md). -/
def State.allIn (s : State) (l : List Nat) : Bool := s.domainChips.all fun c => l.contains c

/-- The strict flits that the phases call for, originated only while LOCKED (08 R254).
Mark: DEDUCED (notes/assumptions/72.md). -/
def State.epochFlits (s : State) : State :=
  if s.soleDomain || s.fab.sync != .locked then s
  else
    let s1 := match s.cop.request with
      | some t =>
        if s.cop.phase == .opening && !s.cop.requestSent && decide (t < s.tick) then
          (if s.coordinates then s.sendDomain 2 else s.sendEpoch 1 (s.cop.coord.getD 0)).adjCop fun c =>
            { c with requestSent := true, waited := 0 }
        else s
      | none => s
    let s2 := if s1.cop.phase == .prepare && s1.cop.readyDue && !s1.cop.readySent then
        (s1.toCoordinator 3).adjCop fun c => { c with readySent := true } else s1
    let s3 := if s2.coordinates && s2.cop.requestSent && !s2.cop.flipSent && s2.cop.phase == .prepare &&
        s2.allIn s2.cop.readyFrom then (s2.sendDomain 4).adjCop fun c => { c with flipSent := true } else s2
    if s3.coordinates && s3.cop.prev.isSome && !s3.cop.retireDue && s3.cop.phase == .drain &&
        s3.allIn s3.cop.clearFrom then
      (s3.sendDomain 6).adjCop fun c => { c with clearFrom := [], waited := 0 }
    else s3

end Sys2Proof.Machine
end

