-- ==== Sys2Proof/Machine/Marshal.lean ====
section
/-! DEFINITION. The lookup marshal's parts that started work shares: the hot-row cache (08 R240-R242), which
positions a gather segment serves, exchanges (09 R296-R300), and how a GATHER leaves the marshal. -/
namespace Sys2Proof.Machine

/-- Change the marshal. -/
def State.adjMarshal (s : State) (f : Marshal → Marshal) : State := { s with marshal := f s.marshal }

/-- The GATHER of a started command. -/
def State.gather? (s : State) (w : Nat) : Option Gather := Tbl.get? s.marshal.gathers w

/-- Change a GATHER. -/
def State.adjGather (s : State) (w : Nat) (f : Gather → Gather) : State :=
  s.adjMarshal fun m => { m with gathers := Tbl.adjust m.gathers w f }

/-- Set a position. -/
def State.setPos (s : State) (w i : Nat) (p : PosSt) : State :=
  s.adjGather w fun g => { g with pos := g.pos.set i p }

/-! ### The hot-row cache -/

/-- Sectors that the lines of a partition take. -/
def State.linesOf (s : State) (p : Nat) : Nat :=
  sumNat ((s.marshal.lines.filter fun l => l.part == p).map fun l => l.sectors)

/-- Sectors in use in the whole cache. -/
def State.linesUsed (s : State) : Nat := sumNat (s.marshal.lines.map fun l => l.sectors)

/-- Sectors that a partition may hold: HOTROW_MIB (02 R67). -/
def State.lineCeiling (s : State) (p : Nat) : Nat := (s.part p).quota.hotrowMib * 16384

/-- One pass of the clock over a partition's lines until `need` sectors are free under `ceil` (08 R242): a line
that survives moves behind the others. -/
def clockPass (p ceil need : Nat) : Nat → List CacheLine → List CacheLine
  | 0, ls => ls
  | n + 1, ls =>
    if sumNat ((ls.filter fun l => l.part == p).map fun l => l.sectors) + need ≤ ceil then ls
    else match ls.find? fun l => l.part == p with
      | none => ls
      | some l =>
        let rest := ls.erase l
        if l.left = 0 then clockPass p ceil need n rest
        else clockPass p ceil need n (rest ++ [{ l with left := l.left - 1 }])

/-- Admit a line, making room by the clock; a line that cannot fit is not admitted. -/
def State.admitLine (s : State) (l : CacheLine) : State :=
  let ceil := s.lineCeiling l.part
  let ls := clockPass l.part ceil l.sectors (4 * s.marshal.lines.length + 4) s.marshal.lines
  if sumNat ((ls.filter fun x => x.part == l.part).map fun x => x.sectors) + l.sectors ≤ ceil then
    let s1 := s.adjMarshal fun m => { m with lines := ls ++ [l] }
    if Config.cacheSectors * 9 ≤ s1.linesUsed * 10 then s1.adjMarshal fun m => { m with hotWarm := true } else s1
  else s.adjMarshal fun m => { m with lines := ls }

/-- Passes that a line survives without a hit (08 R242). -/
def Table.survives (t : Table) (isMap : Bool) : Nat :=
  if !isMap && (t.cache == 2 || t.tier == 1) then 2 else 1

/-- Does the cache hold a line? -/
def State.hasLine (s : State) (u : Nat) (isMap : Bool) (i : Nat) : Bool :=
  s.marshal.lines.any fun l => l.table == u && l.isMap == isMap && l.idx == i

/-- A hit on a line. -/
def State.hitLine (s : State) (u : Nat) (t : Table) (isMap : Bool) (i : Nat) : State :=
  s.adjMarshal fun m => { m with lines := m.lines.map fun l =>
    if l.table = u ∧ l.isMap = isMap ∧ l.idx = i then { l with left := t.survives isMap } else l }

/-- The map line of a local row is used: a hit, or a miss that admits it.
Mark: DEDUCED (notes/assumptions/60.md). -/
def State.useMapLine (s : State) (u : Nat) (t : Table) (i : Nat) : State :=
  if s.lineCeiling t.part = 0 then s
  else if s.hasLine u true (i / 8) then s.hitLine u t true (i / 8)
  else s.admitLine { part := t.part, table := u, isMap := true, idx := i / 8, sectors := 1, left := t.survives true }

/-- The line of a slot. -/
def State.rowLine (s : State) (u : Nat) (t : Table) (slot : Nat) : CacheLine :=
  { part := t.part, table := u, isMap := false, idx := slot,
    sectors := sectorsIn (s.locAddr (t.slotLoc slot)) t.rowBytes, left := t.survives false }

/-- A row line is looked up (08 R242): was it a hit, and if not, is the row to be admitted when it arrives?
Mark: DESIGN CHOICE (notes/assumptions/62.md). -/
def State.useRowLine (s : State) (u : Nat) (t : Table) (slot : Nat) : Bool × Bool × State :=
  if s.hasLine u false slot then
    (true, false, (s.hitLine u t false slot).adjMarshal fun m => { m with hits := (m.hits + 1) % Config.two64 })
  else
    let k := Config.sketch u slot % 1048576
    let n := Tbl.getD s.marshal.sketch k 0
    let counted := t.cache == 0 && t.tier == 0
    let admitted := decide (0 < s.lineCeiling t.part) &&
      (t.cache == 2 || (t.cache == 0 && t.tier == 1) || (counted && decide (1 ≤ n)))
    (false, admitted, s.adjMarshal fun m =>
      { m with misses := (m.misses + 1) % Config.two64,
               sketch := if counted then Tbl.set m.sketch k (min 3 (n + 1)) else m.sketch })

/-! ### Which GATHERs a segment serves -/

/-- The positions that a gather segment serves. -/
def GatherSeg.users (g : GatherSeg) : List (Nat × Nat) := g.sectors.flatMap fun x => x.2

/-- The gather segments that run on endpoints. -/
def State.runningGathers (s : State) : List Nat :=
  s.eps.filterMap fun e => match e.2.seg with
    | some g => (match g.owner with | .gather n => some n | _ => none)
    | none => none

/-- Does an endpoint's segment belong to a started command? -/
def State.segFor (s : State) (o : SegOwner) (w : Nat) : Bool :=
  match o with
  | .work w' _ => w' == w
  | .task _ _ => false
  | .gather n => match Tbl.get? s.marshal.segs n with
    | some g => g.users.any fun u => u.1 == w
    | none => false

/-! ### Exchanges (09 R298, R299) -/

/-- The header of an exchange segment (09 R298). -/
def xchgHeader (xid src dir : Nat) (last : Bool) (part rows epoch key status rowBytes no : Nat) : List Word :=
  [BitVec.ofNat 64 (xid % 2 ^ 32 + 2 ^ 32 * (src % 2 ^ 15) + 2 ^ 48 * (dir + 2 * natOfBool last) + 2 ^ 56 * part),
   BitVec.ofNat 64 (rows % 2 ^ 32 + 2 ^ 32 * (epoch % 2 ^ 32)), BitVec.ofNat 64 key,
   BitVec.ofNat 64 (status % 256 + 2 ^ 16 * (rowBytes % 2 ^ 16) + 2 ^ 32 * (no % 2 ^ 32)), 0, 0, 0, 0]

/-- Send COLLECTIVE CANCEL to every chip of the peer set. -/
def State.cancelXchg (s : State) (part : Nat) (g : Gather) : State :=
  foldS g.allPeers (fun s c => (s.sendFlit 0x40 c (s.tick + s.lead)
    (BitVec.ofNat 64 (g.xid % 2 ^ 32 + 2 ^ 32 + 2 ^ 40 * part)) 0 0).2) s

/-- The frames of at most 2 KiB that a segment travels as (09 R298). -/
def cutFrames : Nat → List Word → List (List Word)
  | 0, _ => []
  | _, [] => []
  | n + 1, l => l.take 256 :: cutFrames n (l.drop 256)

/-- A segment leaves for a chip as a run of frames. -/
def State.sendFrames (s : State) (chip xid : Nat) (ws : List Word) : State :=
  s.send (.xchg chip xid (cutFrames ws.length ws))

/-- A GATHER leaves the marshal: no batch, waiting segment or reply serves it any more; where it is aborted, or a LAST reply
is still awaited, its peers are sent CANCEL (09 R299). Segments that run keep their entries until they end. -/
def State.leaveMarshal (s : State) (w part : Nat) (aborted : Bool) : State :=
  match s.gather? w with
  | none => s
  | some g =>
    let running := s.runningGathers
    let s1 := if g.peers = [] && !aborted then s else s.cancelXchg part g
    (s1.adjMarshal fun m =>
      { m with
        gathers := Tbl.erase m.gathers w
        batch := m.batch.map fun b =>
          { b with entries := b.entries.filter fun e => e.work != w }
        remotes := (m.remotes.map fun b => { b with rows := b.rows.filter fun e => e.work != w }).filter fun b => b.rows != []
        asked := m.asked.filter fun a => a.work != w
        segs := (Tbl.mapV m.segs fun n g =>
          if running.contains n then g
          else { g with sectors := (g.sectors.map fun x => (x.1, x.2.filter fun u => u.1 != w)).filter fun x => x.2 != [] }).filter
            fun e => running.contains e.1 || e.2.sectors != [] }).dropTables

/-- A started command leaves Pleach and the walker. -/
def State.leavePleach (s : State) (w : Nat) : State :=
  { s with pleach := { s.pleach with routings := Tbl.erase s.pleach.routings w,
                                     lists := Tbl.erase s.pleach.lists w,
                                     outs := Tbl.erase s.pleach.outs w,
                                     grouped := Tbl.erase s.pleach.grouped w } }

end Sys2Proof.Machine
end

