-- ==== Sys2Proof/Machine/Layers.lean ====
section
/-! DEFINITION. Expert layers (09 R269-R274) and the bias loop (R284-R286): the checks and effects of the layer
commands, and the arithmetic of the loop. -/
namespace Sys2Proof.Machine

/-- The layer of a key. -/
def State.layer? (s : State) (k : Nat) : Option Layer := Tbl.get? s.pleach.layers k

/-- Change Pleach. -/
def State.adjPleach (s : State) (f : Pleach → Pleach) : State := { s with pleach := f s.pleach }

/-- Change a layer. -/
def State.adjLayer (s : State) (k : Nat) (f : Layer → Layer) : State :=
  s.adjPleach fun p => { p with layers := Tbl.adjust p.layers k f }

/-- The layer that a command of a partition names in bytes 8 and 9. -/
def layerKey (p : Nat) (e : Cmd) : Nat := pkey p (fld e 8 0 12)

/-- A parameter of the loop: 0, or finite, above 0 and at most `top`. -/
def paramOk (v top : Nat) : Bool := isZero32 v || (isFin32 v && !neg32 v && decide (key32 v ≤ key32 top))

/-! ### The flash (12 R355, R356; 09 R286) -/

/-- A region of the flash, by offset in it. -/
def Flash.region (f : Flash) (off size : Nat) : List Host.Cell :=
  (f.cells.filter fun c => decide (off ≤ c.1) && decide (c.1 < off + size)).map fun c => (c.1 - off, c.2)

/-- The bytes of a region are replaced. -/
def Flash.put (f : Flash) (off size : Nat) (t : List Host.Cell) : Flash :=
  { f with cells := (f.cells.filter fun c => decide (c.1 < off)) ++ (t.map fun c => (off + c.1, c.2)) ++
      f.cells.filter fun c => decide (off + size ≤ c.1) }

/-- Bytes as cells. -/
def bytesCells (bs : List Byte) : List Host.Cell := (bs.zipIdx.map fun c => (c.2, c.1)).filter fun c => c.2 != 0

/-- The number in `n` bytes of the flash. -/
def Flash.num (f : Flash) (o n : Nat) : Nat := leNat ((List.range n).map fun i => Mem.get f.cells (o + i))

/-- Bytes of a copy of the bias area, which the two copies share. -/
def biasCopy : Nat := 0x100000

/-- Offset of a copy of the bias area. -/
def biasOff (i : Nat) : Nat := 0x3C10000 + biasCopy * i

/-- The snapshots that a copy lays out from an offset: LAYER_KEY, NEXP and the vector. -/
def Flash.snapsAt (f : Flash) : Nat → Nat → List BiasSnap
  | 0, _ => []
  | n + 1, o =>
    let k := f.num (o + 8) 4
    { key := f.num o 8, bias := (List.range k).map fun i => f.num (o + 12 + 4 * i) 4 } :: f.snapsAt n (o + 12 + 4 * k)

/-- The copy that holds: that with the higher sequence number. -/
def Flash.biasHolder (f : Flash) : Nat := if f.num (biasOff 0) 4 < f.num (biasOff 1) 4 then 1 else 0

/-- The snapshots in the bias area. -/
def Flash.snaps (f : Flash) : List BiasSnap :=
  let o := biasOff f.biasHolder
  if f.num o 4 = 0 then [] else f.snapsAt (f.num (o + 4) 4) (o + 8)

/-- The bytes of a snapshot. -/
def BiasSnap.bytes (b : BiasSnap) : List Byte := leBytes 8 b.key ++ leBytes 4 b.bias.length ++ b.bias.flatMap (leBytes 4)

/-- The snapshots that find room in so many bytes. -/
def fitSnaps : Nat → List BiasSnap → List BiasSnap
  | _, [] => []
  | room, b :: bs => if 12 + 4 * b.bias.length ≤ room then b :: fitSnaps (room - (12 + 4 * b.bias.length)) bs else []

/-- Snapshots go into the other copy, in place of older ones of the same keys (09 R286; 12 R356).
Mark: DESIGN CHOICE (notes/assumptions/156.md). -/
def Flash.putSnaps (f : Flash) (l : List BiasSnap) : Flash :=
  let all := fitSnaps (biasCopy - 8) (l ++ f.snaps.filter fun b => !(l.any fun n => n.key == b.key))
  let h := f.biasHolder
  let seq := (f.num (biasOff h) 4 + 1) % 2 ^ 32
  f.put (biasOff (1 - h)) biasCopy (bytesCells (leBytes 4 seq ++ leBytes 4 all.length ++ all.flatMap BiasSnap.bytes))

/-! ### EXPERT_LAYER_CREATE -/

/-- EXPERT_LAYER_CREATE: its checks. -/
def State.chkLayerCreate (s : State) (p : Nat) (e : Cmd) : Option Res :=
  let n := fld e 10 0 9
  firstOf [need (zeros e [(9, 4, 4), (11, 1, 7), (12, 1, 7), (13, 0, 24)]) (mal 0x0102),
    need (s.layer? (layerKey p e)).isNone (acc 0x0224),
    need (decide (s.pleach.layers.length + s.aside (oneOf [0xE8]) < Config.layers)) (acc 0x0225),
    need (decide (1 ≤ n ∧ n ≤ 256)) (mal 0x0104),
    need (paramOk (fld e 24 0 32) 0x3F800000) (mal 0x0104), need (paramOk (fld e 28 0 32) 0x44800000) (mal 0x0104)]

/-- EXPERT_LAYER_CREATE: the layer exists, its bias from a snapshot with its key or zero (09 R271). -/
def State.effLayerCreate (s : State) (p : Nat) (e : Cmd) : State :=
  let n := fld e 10 0 9
  let key := fld e 16 0 64
  let rate := fld e 24 0 32
  let limit := fld e 28 0 32
  let snap := if key = 0 then none else s.fw.flash.snaps.find? fun b => b.key == key && b.bias.length == n
  let use := match snap with | some b => b.bias.all isFin32 | none => false
  let l : Layer :=
    { nexp := n, bias := (match snap with | some b => if use then b.bias else List.replicate n 0 | none => List.replicate n 0),
      frozen := flag e 12 0, snapshot := use, rate := (if isZero32 rate then 0x3A83126F else rate),
      limit := (if isZero32 limit then 0x3F800000 else limit), key := key, gen := 1, offered := List.replicate n 0,
      spilled := List.replicate n 0, lastOffered := List.replicate n 0, ran := false, routes := 0, spills := 0,
      residual := 0, periods := 0, born := s.tick }
  s.adjPleach fun q => { q with layers := Tbl.set q.layers (layerKey p e) l, snapLoaded := q.snapLoaded || use }

/-- EXPERT_LAYER_DESTROY: its checks. -/
def State.chkLayerDestroy (s : State) (p : Nat) (e : Cmd) : Option Res :=
  firstOf [need (zeros e [(9, 4, 4), (10, 0, 48)]) (mal 0x0102), need (s.layer? (layerKey p e)).isSome (acc 0x0220)]

/-- EXPERT_LAYER_DESTROY: the layer is gone; ROUTEs under way keep the bias they copied. -/
def State.effLayerDestroy (s : State) (p : Nat) (e : Cmd) : State :=
  s.adjPleach fun q => { q with layers := Tbl.erase q.layers (layerKey p e) }

/-- NEXP of a layer; 0 where it does not exist. -/
def State.nexpOf (s : State) (k : Nat) : Nat := match s.layer? k with | some l => l.nexp | none => 0

/-- EXPERT_BIAS_SET: its checks.
Mark: DEDUCED (notes/assumptions/75.md). -/
def State.chkBiasSet (s : State) (p : Nat) (e : Cmd) : Option Res :=
  firstOf [need (zeros e ([(9, 4, 4), (10, 1, 7), (11, 0, 40), (32, 0, 64), (40, 0, 64)] ++ mrefResv 16)) (mal 0x0102),
    need (s.layer? (layerKey p e)).isSome (acc 0x0220), s.mrefA (pkey p 0) e 16,
    s.mrefB (pkey p 0) e 16 (4 * s.nexpOf (layerKey p e)) 4]

/-- EXPERT_BIAS_SET completes: its vector replaces the bias (09 R273).
Mark: DEDUCED (notes/assumptions/75.md). -/
def State.effBiasSet (s : State) (w p : Nat) (e : Cmd) : State :=
  match Tbl.get? s.pleach.routings w with
  | none => s
  | some r => s.adjLayer (layerKey p e) fun l =>
      { l with bias := r.bias, frozen := flag e 10 0, gen := (l.gen + 1) % 2 ^ 32,
               offered := List.replicate l.nexp 0, spilled := List.replicate l.nexp 0, ran := false }

/-- EXPERT_LAYER_QUERY: its checks. -/
def State.chkLayerQuery (s : State) (p : Nat) (e : Cmd) : Option Res :=
  firstOf ([need (zeros e [(9, 4, 4), (10, 1, 7), (11, 0, 40), (24, 0, 64)]) (mal 0x0102),
    need (s.layer? (layerKey p e)).isSome (acc 0x0220)] ++
    s.destChk p e 10 (64 + 8 * s.nexpOf (layerKey p e)))

/-- The report of 64 + 8 * NEXP bytes (09 R274). -/
def State.layerReport (s : State) (k : Nat) : List Byte :=
  match s.layer? k with
  | none => []
  | some l =>
    leBytes 2 l.nexp ++ leBytes 1 (natOfBool l.frozen + 2 * natOfBool l.snapshot) ++ leBytes 1 0 ++ leBytes 4 l.gen ++
      leBytes 4 l.rate ++ leBytes 4 l.limit ++ leBytes 8 l.key ++ leBytes 8 l.routes ++ leBytes 8 l.spills ++
      leBytes 8 l.residual ++ leBytes 8 l.periods ++ leBytes 8 (s.ftc % 2 ^ 63) ++
      (List.range l.nexp).flatMap fun i => leBytes 4 (l.bias.getD i 0) ++ leBytes 4 (l.lastOffered.getD i 0)

/-! ### The bias loop (09 R284-R286) -/

/-- The lesser and the greater of two fp32 values. -/
def min32 (a b : Nat) : Nat := if key32 b < key32 a then b else a
/-- The greater of two fp32 values. -/
def max32f (a b : Nat) : Nat := if key32 a < key32 b then b else a
/-- The negation of an fp32 value. -/
def negate32 (a : Nat) : Nat := if a < 2 ^ 31 then a + 2 ^ 31 else a - 2 ^ 31

/-- The new bias of one expert. -/
def biasStep (rate limit mean b offered : Nat) : Nat :=
  let err := div32 (sub32f mean (nat32 offered)) mean
  min32 limit (max32f (negate32 limit) (add32 b (mul32 rate err)))

/-- One period of the loop on a layer. -/
def Layer.period (l : Layer) : Layer :=
  let n := sumNat l.offered
  let mean := div32 (nat32 n) (nat32 l.nexp)
  let clear := fun (l : Layer) =>
    { l with lastOffered := l.offered, offered := List.replicate l.nexp 0, spilled := List.replicate l.nexp 0, ran := false }
  if l.frozen = false ∧ l.ran = true ∧ 1 ≤ n then
    clear { l with bias := List.zipWith (biasStep l.rate l.limit mean) l.bias l.offered, gen := (l.gen + 1) % 2 ^ 32,
                   periods := l.periods + 1 }
  else clear l

/-- A period of the loop ends and its vectors are published; a missed period leaves every count in place.
Mark: DEDUCED (notes/assumptions/74.md). -/
def State.biasLoop (s : State) (missed : Bool) : State :=
  if s.pleach.loopOff || missed then s
  else s.adjPleach fun q => { q with layers := Tbl.mapV q.layers fun _ l => l.period, warmPeriods := q.warmPeriods + 1 }

/-- The snapshot of every layer with a key (09 R286). -/
def State.biasSnaps (s : State) : List BiasSnap :=
  s.pleach.layers.filterMap fun e => if e.2.key = 0 then none else some { key := e.2.key, bias := e.2.bias }

/-- A ROUTE completes with CS_DONE: its counts go to the layer it started with, if that still exists, and to the
chip (09 R274, R278, R301). -/
def State.countRoute (s : State) (w : Nat) (x : Work) : State :=
  match Tbl.get? s.pleach.routings w with
  | none => s
  | some r =>
    let sp := sumNat r.spilled
    let s1 := s.adjPleach fun q =>
      { q with routes := (q.routes + 1) % Config.two64, spills := (q.spills + sp) % Config.two64,
               residual := (q.residual + r.residual) % Config.two64, nans := min Config.max32 (q.nans + r.nans) }
    s1.adjLayer r.layer fun l =>
      if l.born ≤ x.started then
        { l with routes := l.routes + 1, spills := l.spills + sp, residual := l.residual + r.residual, ran := true,
                 offered := List.zipWith (· + ·) l.offered r.offered,
                 spilled := List.zipWith (· + ·) l.spilled r.spilled }
      else l

end Sys2Proof.Machine
end

