-- ==== Sys2Proof/Machine/Requests.lean ====
section
/-! DEFINITION. Requests of the request service that started work touches: estimates and the estimator (10 R318),
refusals, and what the end of a service launch does (10 R317, R322). -/
namespace Sys2Proof.Machine

/-- The request of a number. -/
def State.request? (s : State) (q : Nat) : Option Request := Tbl.get? s.svc.requests q

/-- Who holds a duty of the firmware, and whether it is WAITING (12 R353, R364): 0-7 ADMIN, 8 BIAS, 9 EPOCH, 10 SERVICE,
11 TELEMETRY, 12 PTP, 13 FLASH. -/
def State.duty (s : State) (d : Nat) : Nat × Bool := s.fw.duties.getD d (0, false)

/-- Change the service. -/
def State.adjSvc (s : State) (f : Svc → Svc) : State := { s with svc := f s.svc }

/-- Change a request. -/
def State.adjRequest (s : State) (q : Nat) (f : Request → Request) : State :=
  s.adjSvc fun v => { v with requests := Tbl.adjust v.requests q f }

/-- Change the counters of a listener. -/
def State.adjList (s : State) (l : Nat) (f : ListCount → ListCount) : State :=
  s.adjSvc fun v => { v with counts := Tbl.set v.counts l (f (Tbl.getD v.counts l ListCount.zero)) }

/-- The class entry of a class number. -/
def State.svcClass (s : State) (c : Nat) : SvcClass := s.svc.classes.getD c SvcClass.reset

/-- The key of the estimator of a model's graph on a listener. -/
def estKey (l : Listener) (m : Model) : Nat := pkey l.part m.graph

/-- The estimator of a key; one that was never made stands at the prior. -/
def State.est (s : State) (k prior : Nat) : Est := Tbl.getD s.svc.ests k { q := prior * 1000, n := 0 }

/-- Clipper's estimate for a request, in ns (10 R318). -/
def State.estimate (s : State) (r : Request) : Nat :=
  match r.model with
  | none => 0
  | some m =>
    let e := s.est (estKey r.lst m) m.priorUs
    if 256 ≤ e.n then e.q else max e.q (m.priorUs * 1000)

/-- The update of an estimator by a duration `d` (10 R318). -/
def Est.update (e : Est) (d : Nat) : Est :=
  let step := max 99 (e.q / 64)
  { q := if e.q < d then e.q + step else e.q - step / 99, n := min 256 (e.n + 1) }

/-- A request is answered with a status: the response is written in tick `at_`. -/
def State.answer (s : State) (q : Nat) (r : Res) (opcode node at_ : Nat) : State :=
  s.adjRequest q fun x => { x with st := .respond r opcode node at_ }

/-- The REQUEST trace event of a decision on a request (15 R431).
Mark: DEDUCED (notes/assumptions/81.md). -/
def State.requestEvent (s : State) (q code : Nat) : State :=
  match s.request? q with
  | some r => s.event 804 0x08 (some r.lst.part) (r.lno % 2 ^ 8 + r.cls % 2 ^ 8 * 2 ^ 8 + code * 2 ^ 16) r.num (s.estimate r / 1000)
  | none => s

/-- A request is refused; it is no longer held, and its response goes out in the next tick (10 R322).
Mark: DEDUCED (notes/assumptions/81.md). -/
def State.refuse (s : State) (q : Nat) (st : Status) (detail : Nat) : State :=
  ((s.adjRequest q fun x => { x with held := false }).answer q (Res.of st detail) 0 0xFFFF (s.tick + 1)).requestEvent q st.code

/-- A service launch has ended (10 R317, R318, R322): CS_DONE updates the estimator; the response is written in
the tick that begins at this boundary; a torn-down request has none (10 R321). -/
def State.requestEnded (s : State) (q : Nat) (y : Launch) (opcode : Nat) (r : Res) : State :=
  match s.request? q with
  | none => s
  | some x =>
    if r.st = .teardown then s.adjSvc fun v => { v with requests := Tbl.erase v.requests q }
    else
      let s1 := match r.st, x.model with
        | .done, some m =>
          let k := estKey x.lst m
          if Tbl.has s.svc.ests k then
            s.adjSvc fun v => { v with ests := Tbl.adjust v.ests k fun e => e.update (s.tick * 64 - x.admitted) }
          else s
        | _, _ => s
      let node := match y.fail with | some _ => y.failNode | none => 0xFFFF
      s1.answer q r (if y.fail.isSome then opcode else 0) node s.tick

/-- Epoch pins of requests (08 R245). -/
def State.requestPins (s : State) (e : Nat) : Nat :=
  (s.svc.requests.filter fun r => match r.2.st with | .launched _ _ e' => e' == e | _ => false).length

end Sys2Proof.Machine
end

