-- ==== Sys2Proof/Machine/AdminEffects.lean ====
section
/-! DEFINITION. What an admin command that ends with CS_DONE changes, at the boundary at which its completion is
applied (03 R97, R446): one operation over the families' effects. -/
namespace Sys2Proof.Machine

/-- The effect of a completed admin command of partition `p`; `w` is its number, `locs` are
the places its MREFs resolved to, `bound` is the export that it was checked against. -/
def State.adminEffect (s : State) (w p : Nat) (e : Cmd) (locs : List Loc) (bound : Option Nat) : State :=
  match opcodeOf e with
  | 0xC0 => s.effCtxCreate p e
  | 0xC1 => s.effCtxDestroy p e
  | 0xC2 => s.effRingCreate p e
  | 0xC3 => s.effRingConfig p e
  | 0xC4 => s.effRingDestroy p e
  | 0xC8 => s.effGraphLoad p e (locs.headD (.dev 0 0))
  | 0xC9 => s.effGraphPatch p e
  | 0xCA => s.effGraphUnload p e
  | 0xD0 => s.effFenceAlloc p e
  | 0xD1 => s.effFenceFree p e
  | 0xD2 => s.effFenceExport p e
  | 0xD3 => s.effFenceImport p e bound
  | 0xD8 => s.effMemAlloc p e
  | 0xD9 => s.effMemFree p e
  | 0xE0 => s.effTableCreate p e (locs.headD (.dev 0 0))
  | 0xE1 => s.effTableStage p e locs
  | 0xE2 => s.effTableCommit p e
  | 0xE3 => s.effTableDestroy p e
  | 0xE8 => s.effLayerCreate p e
  | 0xE9 => s.effLayerDestroy p e
  | 0xEA => s.effBiasSet w p e
  | _ => s

end Sys2Proof.Machine
end

