-- ==== Sys2Proof/Machine/Works.lean ====
section
/-! DEFINITION. The life of started work: how a command's completion is applied (03 R81, 04 R116, 05 R170,
07 R204), how launches end, and how an abort acts (07 R219-R223). -/
namespace Sys2Proof.Machine

/-! ### Predecessors and flags of nodes (05 R154, R168) -/

/-- The bodies of the generation that a launch pins. -/
def State.bodiesOf (s : State) (l : Launch) : List Cmd :=
  match s.graph? l.graph with
  | some x => (match x.genOf l.gen with | some g => g.bodies | none => [])
  | none => []

/-- The body of node `i` for a launch: the pinned generation's with the launch's patches (05 R165). -/
def State.effBody (s : State) (l : Launch) (i : Nat) : Cmd :=
  applyPatches l.patches i ((s.bodiesOf l).getD i [])

/-- Has node `i` ended? -/
def Launch.nodeEnded (l : Launch) (i : Nat) : Bool :=
  match l.nodes.getD i .outside with | .ended _ => true | _ => false

/-- Have all nodes ended? -/
def Launch.allEnded (l : Launch) : Bool :=
  l.nodes.all fun n => match n with | .ended _ => true | _ => false

/-- Does the launch release no further node (05 R170, 07 R220)? -/
def Launch.stopped (l : Launch) : Bool := l.fail.isSome || l.killed || l.abort.isSome

/-- Retire every node not yet released (05 R170). -/
def Launch.retire (l : Launch) (tick : Nat) : Launch :=
  { l with nodes := l.nodes.map fun n =>
      match n with | .outside => .ended tick | .waiting _ _ _ _ => .ended tick | x => x }

/-- A launch whose nodes have all ended completes at the boundary that follows (05 R170). -/
def State.checkEnd (s : State) (l : Nat) : State :=
  s.adjLaunch l fun x => if x.allEnded && x.endAt.isNone then { x with endAt := some (s.tick + 1) } else x

/-- The child launches of a launch's nodes. -/
def State.childrenOf (s : State) (l : Nat) : List Nat :=
  (s.launches.filter fun e => match e.2.owner with
    | .work w => (match s.work? w with
      | some x => (match x.site with | .node l' _ => l' == l | _ => false)
      | none => false)
    | _ => false).map fun e => e.1

/-- The launches at most `n` levels below a launch. -/
def State.below (s : State) : Nat → Nat → List Nat
  | 0, _ => []
  | n + 1, l => (s.childrenOf l).flatMap fun c => c :: s.below n c

/-- A launch has failed or been ended from above: it and every child launch below it release nothing more,
and the children complete with CS_ABORTED (05 R170). -/
def State.stopReleasing (s : State) (l : Nat) : State :=
  let s1 := (s.adjLaunch l fun x => x.retire s.tick).checkEnd l
  foldS (s.below Config.nesting l) (fun s c =>
    (s.adjLaunch c fun x => { x.retire s.tick with killed := true }).checkEnd c) s1

/-! ### Records (05 R171; 07 R204, R206) -/

/-- The ring entry at the root of a piece of work, through the launches above it.
Mark: DEDUCED (notes/assumptions/56.md). -/
def State.rootWork (s : State) : Nat → Nat → Option Nat
  | 0, _ => none
  | n + 1, w =>
    match s.work? w with
    | none => none
    | some x => match x.site with
      | .ring _ _ => some w
      | .node l _ => match s.launch? l with
        | some y => (match y.owner with | .work w' => s.rootWork n w' | _ => none)
        | none => none

/-- Add an error record to those that a ring writes in this tick. -/
def State.addRec (s : State) (k : Nat) (e : ErrRec) : State :=
  s.adjRing k fun r => { r with newRecs := r.newRecs ++ [e] }

/-- The stamp of a failure: the endpoint's, or the FTC of this boundary (07 R204).
Mark: DESIGN CHOICE (notes/assumptions/59.md). -/
def State.stampOf (s : State) (r : Res) : Nat := match r.stamp with | some t => t | none => s.ftc % 2 ^ 63

/-- The record of a node's failure, at most 16 for one ring entry; further ones are counted (05 R171, 07 R206). -/
def State.nodeRecord (s : State) (w : Nat) (x : Work) (r : Res) : State :=
  match s.rootWork (Config.nesting + 2) w with
  | none => s
  | some root => match s.work? root with
    | none => s
    | some y => match y.site with
      | .ring p n =>
        if y.recs < Config.nodeRecords then
          (s.adjWork root fun y => { y with recs := y.recs + 1 }).addRec (pkey p n)
            { seq := y.seq, cookie := cookieOf x.cmd, status := r.st.code, opcode := opcodeOf x.cmd,
              detail := r.detail, stamp := s.stampOf r, addr := (match r.addr with | some a => a | none => 0) }
        else s.adjCounts p fun c => { c with recDrop := satInc 32 c.recDrop }
      | _ => s

/-- Does the end of a command record a context fault (02 R64, 07 R213)? -/
def Res.faults (r : Res) : Bool :=
  r.st == .pageFault || r.st == .memDetected || (r.st == .access && r.io)

/-- Record the context fault of a command's end. -/
def State.resFault (s : State) (x : Work) (r : Res) : State :=
  if r.faults then
    s.ctxFault (pkey x.part x.ctx) r.st.code (opcodeOf x.cmd) (match r.addr with | some a => a | none => 0)
  else s

/-! ### Completion of a node (05 R170, R171) -/

/-- A failure of node `i` without LOG_OK: the first to be applied decides the launch's status, at one boundary
that of the lowest node; the launch releases nothing more. -/
def State.nodeFails (s : State) (l i : Nat) (r : Res) : State :=
  match s.launch? l with
  | none => s
  | some y =>
    if y.killed || y.abort.isSome then s
    else match y.fail with
      | some _ =>
        if y.failTick = s.tick ∧ i < y.failNode then
          s.adjLaunch l fun y => { y with fail := some r, failNode := i }
        else s
      | none => (s.adjLaunch l fun y => { y with fail := some r, failTick := s.tick, failNode := i }).stopReleasing l

/-- Apply the completion of node `i` of launch `l`; `quiet` where R170 or an abort ended it. -/
def State.endNode (s : State) (l i : Nat) (x : Work) (r : Res) (quiet : Bool) : State :=
  let s1 := s.adjLaunch l fun y => { y with nodes := y.nodes.set i (.ended s.tick) }
  let s2 := if r.st = .done ∨ quiet ∨ logOkOf x.cmd then s1 else s1.nodeFails l i r
  s2.checkEnd l

/-! ### Completion of an entry (03 R81; 07 R201-R208) -/

/-- The address of an entry's first granule in the ring's address space (07 R204). -/
def State.entryAddr (s : State) (k idx : Nat) : Nat :=
  match s.ring? k with | some r => r.granule idx | none => 0

/-- Apply the completion of an entry of a ring. -/
def State.endEntry (s : State) (p n : Nat) (x : Work) (r : Res) : State :=
  let k := pkey p n
  let recs : List ErrRec := if r.st = .done then [] else
    [{ seq := x.seq, cookie := cookieOf x.cmd, status := r.st.code, opcode := opcodeOf x.cmd, detail := r.detail,
       stamp := s.stampOf r, addr := (match r.addr with | some a => a | none => s.entryAddr k x.idx) }]
  let d : Done := { seq := x.seq, cookie := cookieOf x.cmd, st := r.st, irq := irqOf x.cmd, logOk := logOkOf x.cmd }
  (s.adjRing k fun y => { y with newRecs := y.newRecs ++ recs, dones := y.dones ++ [d] }).event 806 0x04 (some p)
    (x.ringNo + 2 ^ 16 * r.st.code + 2 ^ 24 * opcodeOf x.cmd) (x.seq % 2 ^ 32) (x.seq / 2 ^ 32)

/-! ### Undefined output (07 R214) -/

/-- Bytes at a device place become undefined: free values. A host place is not Mahorn's to hold.
Mark: DEDUCED (notes/assumptions/55.md). -/
def State.spoil (s : State) (l : Loc) : Nat → State
  | 0 => s
  | n + 1 =>
    if l.isHost then s
    else
      let s1 : State := { s.store (s.locAddr l) ((Config.word s.free).setWidth 8) with free := s.free + 1 }
      State.spoil s1 (l.plus 1) n

/-- The places that a command may write, within the extents of its MREFs, once it has started work. A FEED has no MREF.
Mark: DEDUCED (notes/assumptions/55.md). -/
def State.outputs (s : State) (w : Nat) (x : Work) (r : Res) : List (Loc × Nat) :=
  let e := x.cmd
  let at_ := fun (i n : Nat) => (x.locs[i]?).toList.map fun l => (l, n)
  match opcodeOf e with
  | 0x02 => if x.segUs = 0 then [] else at_ 1 (fld e 88 0 32)
  | 0x03 =>
    let n := if fld e 64 0 2 = 0 then fld e 56 0 24 else fld e 60 0 32
    let stride := fld e 68 0 32
    let cut := match s.gather? w with | some g => g.noEndpoint | none => false
    if x.abort.isSome ∨ r.detail = 0x0210 then at_ 1 (stride * n)
    else if cut then
      let served := fun (i : Nat) => fld e 64 0 2 == 0 && (match s.gather? w with
        | some g => (match g.pos.getD i .unresolved with | .served => true | .bad _ _ => true | _ => false)
        | none => false)
      ((List.range n).filter fun i => !served i).flatMap fun i => (x.locs[1]?).toList.map fun l => (l.plus (i * stride), stride)
    else []
  | 0x04 => at_ 1 (32 * fld e 60 0 9) ++ at_ 2 (8 * fld e 62 0 8 * fld e 56 0 17)
  | 0x05 => at_ 3 (fld e 120 0 32 * fld e 116 0 16 * 4)
  | 0x0A => at_ 0 (if flag e 24 0 then 8 else 4)
  | 0x0B => at_ 1 (fld e 40 0 64)
  | 0x0C => at_ 0 8
  | _ => []

/-- The outputs of a command that does not end with CS_DONE become undefined.
Mark: DEDUCED (notes/assumptions/55.md). -/
def State.spoilOutputs (s : State) (w : Nat) (x : Work) (r : Res) : State :=
  if r.st = .done then s else foldS (s.outputs w x r) (fun s o => s.spoil o.1 o.2) s

/-- The journal record of an admin command that is posted (12 R354): that of its duty is replaced.
Mark: DEDUCED (notes/assumptions/66.md). -/
def State.journalize (s : State) (x : Work) (r : Res) : State :=
  match x.site with
  | .ring p 0 =>
    if isAdmin (opcodeOf x.cmd) then
      let j : JournalRec := { part := p, seq := x.seq, cmd := x.cmd, status := r.st.code }
      { s with fw := { s.fw with journal := Tbl.set s.fw.journal (p % 8) j } }
    else s
  | _ => s

/-- Apply the completion of a started command: it leaves Espalier, its pins drop, an admin command that is done
takes effect, and the end is recorded where the command stood. -/
def State.finish (s : State) (w : Nat) (r : Res) : State :=
  match s.work? w with
  | none => s
  | some x =>
    let quiet := match x.abort with | some a => a.quiet | none => false
    -- the record of a node needs the work above it, so it is written first
    let s0 := match x.site with
      | .node _ _ => if r.st = Status.done ∨ quiet = true then s else s.nodeRecord w x r
      | .ring _ _ => s
    let s0 := s0.spoilOutputs w x r
    let s1 := State.dropObjs (State.leaveMarshal { s0 with works := Tbl.erase s0.works w } w x.part x.abort.isSome)
    let s2 := if r.st = .done ∧ isAdmin (opcodeOf x.cmd) then s1.adminEffect w x.part x.cmd x.locs x.bound else s1
    let s2' := if r.st = .done ∧ opcodeOf x.cmd = 0x04 then s2.countRoute w x else s2
    let s3 := ((s2'.leavePleach w).resFault x r).journalize x r
    match x.site with
    | .ring p n => s3.endEntry p n x r
    | .node l i => s3.endNode l i x r quiet

/-- Decide the end of a command: it is applied at the next boundary (01 R19). -/
def State.decideEnd (s : State) (w : Nat) (r : Res) : State :=
  s.adjWork w fun x => { x with phase := .decided r (s.tick + 1) }

/-! ### The end of a launch (05 R170) -/

/-- The status of a launch that ends. -/
def Launch.result (l : Launch) : Res :=
  match l.abort with
  | some a => { Res.of a.st a.detail with addr := none }
  | none => if l.killed then Res.of .aborted 0 else match l.fail with | some r => r | none => Res.ok

/-- A child launch of a COND, LOOP or CALL_GRAPH has ended (04 R133-R135). -/
def State.childEnded (s : State) (w : Nat) (killed : Bool) (r : Res) : State :=
  match s.work? w with
  | none => s
  | some x =>
    match x.abort with
    | some a => s.finish w (Res.of a.st a.detail)
    | none =>
      let s1 := if killed then
          s.adjWork w fun x => { x with abort := some { st := .aborted, detail := 0, urgent := false, quiet := true } }
        else s
      if opcodeOf x.cmd = 0x0E ∧ r.st = .done then
        s1.adjWork w fun x => { x with iter := x.iter + 1, phase := .predDue s.tick }
      else s1.finish w { r with addr := none, stamp := none, io := false }

/-- Remove a launch and drop its pins. -/
def State.dropLaunch (s : State) (l : Nat) : State :=
  State.dropObjs (State.dropGens { s with launches := Tbl.erase s.launches l })

/-- Count a launch that completed with CS_DONE (05 R160). -/
def State.countLaunch (s : State) (u : Nat) : State :=
  s.adjGraph u fun g => { g with launchesDone := (g.launchesDone + 1) % Config.two64 }

/-- A launch or child launch whose owner is a command completes. -/
def State.endLaunch (s : State) (l : Nat) : State :=
  match s.launch? l with
  | none => s
  | some y =>
    let r := y.result
    let s1 := (if r.st = .done then s.countLaunch y.graph else s).dropLaunch l
    match y.owner with
    | .work w => match s1.work? w with
      | some x => match x.phase with
        | .launching _ => s1.finish w { r with addr := none, stamp := none, io := false }
        | _ => s1.childEnded w y.killed r
      | none => s1
    | .request q => s1.requestEnded q y (opcodeOf (s.effBody y y.failNode)) r
    | .start => s1

/-! ### Aborts (07 R219-R223) -/

/-- Is the command done, for Shears (07 R221)?
Mark: DEDUCED (notes/assumptions/162.md). -/
def State.isDone (s : State) (x : Work) : Bool :=
  match x.phase with
  | .signal _ => true
  | .launching l => (match s.launch? l with | some y => y.allEnded | none => true)
  | .io _ _ => decide (opcodeOf x.cmd = 0x0A ∨ opcodeOf x.cmd = 0x0C)
  | .decided _ _ => decide (opcodeOf x.cmd = 0x09 ∨ opcodeOf x.cmd = 0x0A ∨ opcodeOf x.cmd = 0x0C)
  | _ => false

/-- Send ABORT to every endpoint that runs a segment of a command. -/
def State.abortSegs (s : State) (w : Nat) (urgent : Bool) : State :=
  foldS (Tbl.keys s.eps) (fun s e =>
    match (s.ep e).seg with
    | some g =>
      if s.segFor g.owner w then
        (s.adjEp e fun x => { x with abort := some (urgent || (match x.abort with | some a => a.1 | none => false), s.tick) }).sendAbort e
          urgent
      else s
    | none => s) s

/-- Does an endpoint run a segment of the command? -/
def State.segRuns (s : State) (w : Nat) : Bool :=
  s.eps.any fun e => match e.2.seg with
    | some g => s.segFor g.owner w
    | none => false

/-- The items of a FEED that no instance has taken leave the queue; their space is free at once, and the task
continues, an END of that FEED included (07 R220). -/
def State.unfeed (s : State) (w : Nat) : State :=
  { s with tasks := Tbl.mapV s.tasks fun _ t =>
      { t with items := t.items.filter (fun q => !(q.feed == w && q.inst.isNone))
               ending := if t.ending = some w then none else t.ending } }

/-- Does a task still hold items of a FEED? -/
def State.feedLeft (s : State) (w : Nat) : Bool := s.tasks.any fun e => e.2.items.any fun q => q.feed == w

/-- The abort of a command that has not been aborted before (07 R220). -/
def State.abortFirst (s : State) (w : Nat) (x : Work) (a : AbortInfo) : State :=
  let s1 := s.adjWork w fun x => { x with abort := some a }
  let ends := fun (s : State) => s.decideEnd w (Res.of a.st a.detail)
  match x.phase with
  | .child _ => s1
  | .launching _ => s1
  | .feeding _ => let s2 := s1.unfeed w; if s2.feedLeft w then s2 else ends s2
  | .marshal =>
    let s2 := s1.leaveMarshal w x.part true
    if s2.segRuns w then s2.abortSegs w a.urgent else ends s2
  | _ => if s.segRuns w then s1.abortSegs w a.urgent else ends s1

/-- A later abort: it keeps the first status and may make it urgent; a teardown replaces it (07 R223). -/
def State.abortAgain (s : State) (w : Nat) (old a : AbortInfo) : State :=
  let st := if a.st = .teardown then a.st else old.st
  let det := if a.st = .teardown then a.detail else old.detail
  let s1 := s.adjWork w fun x =>
    { x with abort := some { old with st := st, detail := det, urgent := old.urgent || a.urgent },
             phase := (match x.phase with
               | .decided _ d => if a.st = .teardown then .decided (Res.of st det) d else x.phase
               | p => p) }
  if a.urgent && !old.urgent then s1.abortSegs w true else s1

/-- Abort one command, without the launches below it. -/
def State.abortOne (s : State) (w : Nat) (a : AbortInfo) : State :=
  match s.work? w with
  | none => s
  | some x =>
    if s.isDone x then s
    else match x.abort with
      | some old => s.abortAgain w old a
      | none => s.abortFirst w x a

/-- The launches that a command runs, and those below them. -/
def State.launchesOf (s : State) (w : Nat) : List Nat :=
  (s.launches.filter fun e => e.2.owner == .work w).flatMap fun e => e.1 :: s.below Config.nesting e.1

/-- Abort a launch and those of a list: nothing more is released, released nodes are aborted as their own
commands, quietly (07 R220). -/
def State.abortLaunches (s : State) (ls : List Nat) (a : AbortInfo) : State :=
  foldS ls (fun s l =>
    match s.launch? l with
    | none => s
    | some y =>
      let a' := match y.abort with
        | some old => { old with st := (if a.st = .teardown then a.st else old.st), urgent := old.urgent || a.urgent }
        | none => a
      let s1 := s.adjLaunch l fun y => if y.allEnded then y else { y.retire s.tick with abort := some a' }
      let s2 := foldS (y.nodes.filterMap fun n => match n with | .running w => some w | _ => none)
        (fun s w => s.abortOne w { a with quiet := true }) s1
      s2.checkEnd l) s

/-- Apply an abort to a started command with everything below it. -/
def State.abortWork (s : State) (w : Nat) (a : AbortInfo) : State :=
  match s.work? w with
  | none => s
  | some x =>
    if s.isDone x then s
    else
      let ls := s.launchesOf w
      (s.abortOne w a).abortLaunches ls a

/-! ### Persistent tasks (04 R125-R128) -/

/-- The task of a key. -/
def State.task? (s : State) (t : Nat) : Option Task := Tbl.get? s.tasks t

/-- Change a task. -/
def State.adjTask (s : State) (t : Nat) (f : Task → Task) : State := { s with tasks := Tbl.adjust s.tasks t f }

/-- Does an endpoint run a segment of the task? -/
def State.taskRuns (s : State) (t : Nat) : Bool :=
  s.eps.any fun e => match e.2.seg with
    | some g => (match g.owner with | .task t' _ => t' == t | _ => false)
    | none => false

/-- Free a task's endpoints, record and number, and its pin. -/
def State.freeTask (s : State) (t : Nat) : State :=
  let s1 : State := { s with tasks := Tbl.erase s.tasks t,
                             eps := Tbl.mapV s.eps fun _ e => if e.held = some t then { e with held := none } else e }
  s1.dropObjs

/-- A failed task whose last running segment has ended: every FEED of it completes with its status, and the
task is freed (04 R128). -/
def State.settleTask (s : State) (t : Nat) : State :=
  match s.task? t with
  | none => s
  | some x => match x.failed with
    | none => s
    | some r =>
      if s.taskRuns t then s
      else
        let feeds := (s.works.filter fun e => e.2.phase == .feeding t).map fun e => e.1
        foldS feeds (fun s w => s.finish w (match s.work? w with
          | some y => (match y.abort with | some a => Res.of a.st a.detail | none => r)
          | none => r)) (s.freeTask t)

/-- A task fails (04 R128): no further item is dispatched.
Mark: DEDUCED (notes/assumptions/56.md). -/
def State.failTask (s : State) (t : Nat) (r : Res) : State :=
  (s.adjTask t fun x => if x.failed.isSome then x else { x with failed := some r }).settleTask t

/-- Send ABORT to the endpoints that run segments of a task. -/
def State.abortTaskSegs (s : State) (t : Nat) (urgent : Bool) : State :=
  foldS (Tbl.keys s.eps) (fun s e =>
    match (s.ep e).seg with
    | some g => (match g.owner with
      | .task t' _ => if t' = t then
          (s.adjEp e fun x => { x with abort := some (urgent, s.tick) }).sendAbort e urgent else s
      | _ => s)
    | none => s) s

/-- The scope of an abort request, applied in step 5: DISABLE for rings, then every started entry (07 R219). -/
def State.abortRing (s : State) (k : Nat) (a : AbortInfo) : State :=
  let s1 := match s.ring? k with
    | some r => if r.state = .active ∨ r.state = .faulted then s.disableRing k else s
    | none => s
  foldS (s1.ringWorks (keyPart k) (keyLocal k)) (fun s w => s.abortWork w a) s1

/-- Apply one abort request. -/
def State.applyAbort (s : State) (q : AbortReq) : State :=
  let a : AbortInfo := { st := q.st, detail := q.detail, urgent := q.urgent, quiet := false }
  match q.whom with
  | .work w => s.abortWork w a
  | .ring k => s.abortRing k a
  | .ctx k =>
    let s1 := foldS ((s.ringsOf k).filter fun r => keyLocal r != 0) (fun s r => s.abortRing r a) s
    foldS ((s1.tasks.filter fun e => e.2.ctx == k).map fun e => e.1)
      (fun s t => (s.abortTaskSegs t q.urgent).failTask t (Res.of q.st q.detail)) s1
  | .task t => (s.abortTaskSegs t q.urgent).failTask t (Res.of q.st q.detail)
  | .launch l => s.abortLaunches (l :: s.below Config.nesting l) a

/-- Apply the aborts of a boundary: the status that ranks highest first (07 R223). -/
def State.applyAborts (s : State) : State :=
  let l := sortBy (fun a b => decide (a.st.rank ≤ b.st.rank)) s.aborts
  foldS l State.applyAbort { s with aborts := [] }

end Sys2Proof.Machine
end

