-- ==== Sys2Proof/Machine/Commands.lean ====
section
/-! DEFINITION. The commands of 04 that run on engines or in Mahorn itself: the checks of each in the order of
its field table, and what its start does. GATHER, ROUTE and GROUPED_MM are in Lookups.lean and Experts.lean. -/
namespace Sys2Proof.Machine

/-- The context key of a piece of work. -/
def Work.ck (w : Work) : Nat := pkey w.part w.ctx

/-- Set the phase of a started command. -/
def State.phase (s : State) (w : Nat) (ph : Phase) : State := s.adjWork w fun x => { x with phase := ph }

/-- A place in host memory is used for a context.
Mark: DEDUCED (notes/assumptions/24.md). -/
def State.useLoc (ck : Nat) (s : State) (l : Loc) : State :=
  match l with
  | .host a => s.useHost ck a
  | .dev _ _ => s

/-- The context key of a started command. -/
def State.ckOf (s : State) (w : Nat) : Nat := match s.work? w with | some x => x.ck | none => 0

/-- Record the places that a command's MREFs resolve to, and pin their objects until it completes (04 R111). -/
def State.hold (s : State) (w : Nat) (locs : List Loc) : State :=
  (foldS locs (State.useLoc (s.ckOf w)) s).adjWork w fun x => { x with locs := locs, pins := x.pins ++ locNums locs }

/-- Pin the table epoch for a command that stands on a ring; a node uses the epoch of its launch (04 R136). -/
def Work.pinEpoch (epoch : Nat) (x : Work) : Work :=
  match x.site with
  | .ring _ _ => { x with epochPin := some epoch }
  | .node _ _ => x

/-- Pin the current table epoch for a command. -/
def State.pinEpoch (s : State) (w : Nat) : State := s.adjWork w (Work.pinEpoch s.epoch)

/-- The epoch that a command uses. -/
def State.epochOf (s : State) (x : Work) : Nat :=
  match x.site with
  | .ring _ _ => (match x.epochPin with | some e => e | none => s.epoch)
  | .node l _ => (match s.launch? l with | some y => y.epoch | none => s.epoch)

/-! ### Segments (04 R122) -/

/-- seg_us of a command whose SEG_US is `n`. -/
def State.segUs (s : State) (n : Nat) : Nat := if n ≠ 0 ∧ n < s.cfg.segMaxUs then n else s.cfg.segMaxUs

/-- per_seg (04 R122); an estimate of 0 stands for work that only time cuts (04 R146).
Mark: DEDUCED (notes/assumptions/37.md). -/
def perSeg (segUs itemNs items : Nat) : Nat := if itemNs = 0 then items else max 1 (segUs * 1000 / itemNs)

/-- Instances on a list of endpoints with the items of each, eligible from this tick. -/
def State.makeInsts (s : State) (eps : List Nat) (items : Nat → Nat) : List Inst :=
  (List.range eps.length).map fun i =>
    { no := i, ep := eps.getD i 0, items := items i, next := 0, since := s.tick, running := false, ended := false }

/-! ### DISPATCH (04 R120, R121, R125) -/

/-- The extent of ARGS. -/
def argsExtent (e : Cmd) : Nat :=
  if persistOf e then fld e 84 0 16 * 2 ^ fld e 86 0 8 else fld e 88 0 32

/-- Is a task number of the partition in use, or taken by a PERSIST of this tick (04 R120)?
Mark: DESIGN CHOICE (notes/assumptions/143.md). -/
def State.taskTaken (s : State) (p t : Nat) : Bool :=
  Tbl.has s.tasks (pkey p t) || s.installing.any fun x => x.part == p && fld x.cmd 83 0 8 == t

/-- Task records in use, with those that PERSISTs of this tick have taken. -/
def State.taskCount (s : State) : Nat := s.tasks.length + s.installing.length

/-- Steps 3 and 4 of R110 for KERNEL, made where it is resolved (06 R198). -/
def State.kernA (s : State) (x : Work) : Option Res :=
  match x.kern with
  | .atStart => s.mrefA x.ck x.cmd 40
  | .object _ => none
  | .bad r => some r

/-- The place of the kernel descriptor. -/
def State.kernLoc (s : State) (x : Work) : Loc :=
  match x.kern with
  | .object o => .dev o (mrefOff x.cmd 40)
  | _ => s.mrefLoc x.ck x.cmd 40

/-- Steps 5 and 6 of R110 for KERNEL. -/
def State.kernB (s : State) (x : Work) : Option Res :=
  match x.kern with
  | .object o =>
    firstOf [need (decide (mrefOff x.cmd 40 + 64 ≤ (match s.obj? o with | some y => y.size | none => 0))) (acc 0x0206),
      need (mrefOff x.cmd 40 % 64 == 0) (mal 0x0105)]
  | _ => s.mrefB x.ck x.cmd 40 64 64

/-- DISPATCH: its checks. -/
def State.chkDispatch (s : State) (x : Work) : Option Res :=
  let e := x.cmd
  let per := persistOf e
  let items := fld e 72 0 32
  let ns := fld e 76 0 32
  let us := fld e 80 0 16
  let task := fld e 83 0 8
  let qb := fld e 84 0 16
  let qd := fld e 86 0 8
  firstOf ([need (zeros e (tgtResv e ++ mrefResv 40 ++ mrefResv 56 ++ [(82, 1, 7), (87, 0, 8), (92, 0, 32)])) (mal 0x0102)] ++
    s.tgtChk e ++
    [need (!mrefHost e 40) (acc 0x0202), s.kernA x, s.mrefA x.ck e 56,
     need (if per then items == 0 else items != 0) (mal 0x0104),
     need (decide (1 ≤ ns ∧ ns ≤ s.segUs us * 1000)) (mal 0x0104),
     need (decide (us ≤ 1000)) (mal 0x0104),
     (if per then firstOf [need (!s.taskTaken x.part task) (acc 0x020C),
                           need (decide (s.taskCount < Config.taskRecords)) (acc 0x0209)]
      else need (task == 0) (mal 0x0104)),
     need (if per then decide (16 ≤ qb ∧ qb ≤ 4080) && qb % 16 == 0 else qb == 0) (mal 0x0104),
     need (if per then decide (4 ≤ qd ∧ qd ≤ 16) else qd == 0) (mal 0x0104),
     need (if per then fld e 88 0 32 == 0 else decide (fld e 88 0 32 ≤ 65536)) (mal 0x0104),
     s.kernB x, s.mrefB x.ck e 56 (argsExtent e) 64])

/-- A descriptor's byte 0 has been seen: it must equal ENGINE; the instances, placed when the command started, then
become eligible (04 R121). A PERSIST is done. -/
def State.descriptorSeen (s : State) (w engine : Nat) : State :=
  match s.work? w with
  | none => s
  | some x =>
    if engine ≠ tgtEngine x.cmd then s.decideEnd w (mal 0x0203)
    else if persistOf x.cmd then s.decideEnd w Res.ok
    else
      let us := s.segUs (fld x.cmd 80 0 16)
      s.adjWork w fun x =>
        { x with phase := .running, segUs := us, itemNs := fld x.cmd 76 0 32,
                 insts := x.insts.map fun (i : Inst) => { i with since := s.tick } }

/-- DISPATCH starts: its instances are placed (04 R115). A ring command's descriptor is read now; a node's is at hand (05
R168). A PERSIST on a ring, which completes at the boundary after its start (04 R125), sees its descriptor at once.
Mark: DEDUCED (notes/assumptions/32.md). -/
def State.beginDispatch (s : State) (w : Nat) (x : Work) (desc : DescSt) : State :=
  let k := s.kernLoc x
  let a := s.mrefLoc x.ck x.cmd 56
  let s1 := (s.hold w [k, a]).adjWork w fun x => { x with insts := s.makeInsts (s.placement x.cmd) fun _ => fld x.cmd 72 0 32 }
  match desc with
  | .here n => s1.descriptorSeen w n
  | .failed r => s1.decideEnd w r
  | _ =>
    if persistOf x.cmd then s1.descriptorSeen w (s.readByte (s.locAddr k)).toNat else s1.phase w .descriptor

/-- A PERSIST completes with CS_DONE: its task is installed and holds its endpoints (04 R125).
Mark: DEDUCED (notes/assumptions/32.md); DESIGN CHOICE (notes/assumptions/144.md). -/
def State.installTask (s : State) (x : Work) : State :=
  let t := pkey x.part (fld x.cmd 83 0 8)
  let eps := x.insts.map fun i => i.ep
  let a := x.locs.getD 1 (.dev 0 0)
  let task : Task :=
    { ctx := x.ck, eps := eps, queue := (match a with | .dev o _ => o | .host _ => 0),
      queueOff := (match a with | .dev _ f => f | .host f => f), queueHost := a.isHost,
      idle := List.replicate eps.length s.tick, kernel := s.locAddr (x.locs.getD 0 (.dev 0 0)),
      itemBytes := fld x.cmd 84 0 16, depth := 2 ^ fld x.cmd 86 0 8, itemNs := fld x.cmd 76 0 32,
      segUs := s.segUs (fld x.cmd 80 0 16), tail := 0, items := [], failed := none,
      ending := none }
  foldS eps (fun s e => s.adjEp e fun y => { y with held := some t }) { s with tasks := Tbl.set s.tasks t task }

/-! ### FEED (04 R126, R127) -/

/-- The key of the task that a FEED names. -/
def feedTask (p : Nat) (e : Cmd) : Nat := pkey p (fld e 8 0 8)

/-- The place in a task's queue of the `j`th item to come. -/
def Task.place (t : Task) (j : Nat) : Nat := (t.tail + j) % t.depth

/-- Where an item of a task's queue lies.
Mark: DESIGN CHOICE (notes/assumptions/144.md). -/
def Task.itemLoc (t : Task) (pos : Nat) : Loc :=
  if t.queueHost then .host (t.queueOff + pos * t.itemBytes) else .dev t.queue (t.queueOff + pos * t.itemBytes)

/-- Are the next `n` places of a task's queue free: each is freed when the item in it has been consumed (04 R127)?
Mark: DEDUCED (notes/assumptions/36.md). -/
def Task.hasRoom (t : Task) (n : Nat) : Bool :=
  decide (n ≤ t.depth) && (List.range n).all fun j => !t.items.any fun q => q.pos == t.place j

/-- Has the task's queue room for the items of a FEED (04 R117)? A FEED whose own checks will fail has no such
condition.
Mark: DEDUCED (notes/assumptions/36.md); DESIGN CHOICE (notes/assumptions/163.md). -/
def State.feedRoom (s : State) (p : Nat) (e : Cmd) : Bool :=
  match s.task? (feedTask p e) with
  | some t => t.hasRoom (fld e 10 0 16) || decide (t.depth < fld e 10 0 16) || t.failed.isSome
  | none => true

/-- FEED: its checks. A task that ends with an END takes no further FEED.
Mark: DESIGN CHOICE (notes/assumptions/146.md). -/
def State.chkFeed (s : State) (x : Work) : Option Res :=
  let e := x.cmd
  let n := fld e 10 0 16
  let t := s.task? (feedTask x.part e)
  firstOf [need (zeros e [(9, 1, 7), (14, 0, 16)]) (mal 0x0102),
    need (match t with | some t => t.ctx == x.ck && t.failed.isNone && t.ending.isNone | none => false) (acc 0x020A),
    need (n != 0 || flag e 9 0) (mal 0x0104), need (decide (n ≤ 255)) (mal 0x0104),
    need (match t with | some t => decide (n ≤ t.depth) | none => false) (mal 0x0104),
    need (match t with | some t => fld e 12 0 16 == t.itemBytes | none => false) (mal 0x020B)]

/-- The bytes of item `j` of a FEED. -/
def feedItem (e : Cmd) (j : Nat) : List Byte :=
  let n := fld e 12 0 16
  ((wordBytes e).drop (16 + j * n)).take n

/-- FEED starts: its items go into the queue in this tick. -/
def State.beginFeed (s : State) (w : Nat) (x : Work) : State :=
  let t := feedTask x.part x.cmd
  match s.task? t with
  | none => s
  | some y =>
    let n := fld x.cmd 10 0 16
    let s1 := foldS (List.range n) (fun s j => s.writeLoc y.ctx (y.itemLoc (y.place j)) (feedItem x.cmd j)) s
    let s2 := s1.adjTask t fun y =>
      { y with tail := (y.tail + n) % y.depth, items := y.items ++ (List.range n).map fun j =>
                 { feed := w, pos := y.place j, inst := none, since := s.tick },
               ending := if flag x.cmd 9 0 then some w else y.ending }
    s2.phase w (.feeding t)

/-! ### LAUNCH (04 R129, R131; 05 R166) -/

/-- Slots that a LAUNCH needs (05 R166): 1 + W, or 1 where the graph does not exist or is not READY. -/
def State.launchSlots (s : State) (p : Nat) (e : Cmd) : Nat :=
  match s.graphOf p (fld e 8 0 13) with
  | none => 1
  | some u => match s.graph? u with
    | some x => if x.state = .ready then 1 + x.window else 1
    | none => 1

/-- LAUNCH: its checks. -/
def State.chkLaunch (s : State) (x : Work) : Option Res :=
  let e := x.cmd
  let n := fld e 10 0 8
  let resv := [(9, 5, 3), (11, 0, 40), (16, 0, 64), (24, 0, 64)] ++ (List.range n).flatMap (patchResv e)
  firstOf ([need (zeros e resv) (mal 0x0102)] ++ s.graphChk x.part (fld e 8 0 13) ++
    (match s.graphOf x.part (fld e 8 0 13) with
     | none => []
     | some u => match s.graph? u with
       | none => []
       | some g =>
         [need (g.state == .ready) (acc 0x0253)] ++
         (patchesOf e).flatMap (patchChk (match g.genOf g.cur with | some y => y.bodies | none => []))))

/-- Start a launch of a READY graph: its current generation is pinned, its nodes enter at the next boundary. -/
def State.newLaunch (s : State) (owner : Owner) (p c u : Nat) (cls ringNo seq depth epoch root : Nat)
    (ps : List Patch) : Nat × State :=
  match s.graph? u with
  | none => (0, s)
  | some g =>
    let l : Launch :=
      { owner := owner, part := p, ctx := c, graph := u, gen := g.cur, window := g.window, cls := cls,
        ringNo := ringNo, seq := seq, root := root, depth := depth, order := s.nextLaunch, patches := ps,
        epoch := epoch, nodes := List.replicate g.npred.length .outside, failTick := 0, failNode := 0,
        fail := none, killed := false, abort := none, endAt := none, started := s.tick }
    (s.nextLaunch, { s with launches := Tbl.set s.launches s.nextLaunch l, nextLaunch := s.nextLaunch + 1 })

/-- LAUNCH starts: it pins the generation and the table epoch. -/
def State.beginLaunch (s : State) (w : Nat) (x : Work) : State :=
  match s.graphOf x.part (fld x.cmd 8 0 13) with
  | none => s
  | some u =>
    let (l, s1) := s.newLaunch (.work w) x.part x.ctx u x.cls x.ringNo x.seq 0 s.epoch w (patchesOf x.cmd)
    (s1.pinEpoch w).phase w (.launching l)

/-! ### Child launches (04 R132, 05 R172) -/

/-- The depth of a child launch of a piece of work. -/
def State.childDepth (s : State) (x : Work) : Nat :=
  match x.site with
  | .ring _ _ => 1
  | .node l _ => (match s.launch? l with | some y => y.depth + 1 | none => 1)

/-- Does the launch of a calling node release nothing more (05 R170)? -/
def State.callerStopped (s : State) (x : Work) : Bool :=
  match x.site with
  | .ring _ _ => false
  | .node l _ => (match s.launch? l with | some y => y.stopped | none => false)

/-- End a calling node under 05 R170: CS_ABORTED, without a record. -/
def State.endQuietly (s : State) (w : Nat) : State :=
  (s.adjWork w fun x => { x with abort := some { st := .aborted, detail := 0, urgent := false, quiet := true } }).decideEnd
    w (Res.of .aborted 0)

/-- A child of graph number `g` would be launched now: the graph is checked again, then the nesting, then
1 + W slots are reserved; a reservation that cannot be had is retried in each later tick (05 R172).
Mark: DEDUCED (notes/assumptions/33.md). -/
def State.tryChild (s : State) (w g : Nat) (counted : Bool) : State :=
  match s.work? w with
  | none => s
  | some x =>
    if s.callerStopped x then s.endQuietly w
    else match s.graphOf x.part g with
    | none => s.decideEnd w (acc 0x0251)
    | some u => match s.graph? u with
      | none => s.decideEnd w (acc 0x0251)
      | some y =>
        if y.state ≠ .ready then s.decideEnd w (acc 0x0253)
        else if Config.nesting < s.childDepth x then s.decideEnd w (mal 0x0205)
        else if s.slotsFree x.part (1 + y.window) then
          let (l, s1) := s.newLaunch (.work w) x.part x.ctx u x.cls x.ringNo x.seq (s.childDepth x) (s.epochOf x) w []
          s1.phase w (.child l)
        else
          let s1 : State := if counted then s else { s with espWaits := satInc 32 s.espWaits }
          s1.phase w (.reserve g true)

/-! ### COND, LOOP, CALL_GRAPH (04 R112, R113, R133-R135) -/

/-- A graph field with NONE in its top bit. -/
def State.armChk (s : State) (p : Nat) (e : Cmd) (b : Nat) : List (Option Res) :=
  if flag e (b + 1) 7 then [] else s.graphChk p (fld e b 0 13)

/-- COND: its checks. -/
def State.chkCond (s : State) (x : Work) : Option Res :=
  let e := x.cmd
  firstOf ([need (zeros e (predResv e ++ [(49, 5, 2), (51, 5, 2), (52, 0, 32), (56, 0, 64)])) (mal 0x0102)] ++
    s.predChk x.part x.ck e ++ s.armChk x.part e 48 ++ s.armChk x.part e 50 ++ s.predChkB x.ck e)

/-- LOOP: its checks. -/
def State.chkLoop (s : State) (x : Work) : Option Res :=
  let e := x.cmd
  let n := fld e 52 0 32
  firstOf ([need (zeros e (predResv e ++ [(49, 5, 3), (50, 0, 16), (56, 0, 64), (64, 0, 64), (72, 0, 64)])) (mal 0x0102)] ++
    s.predChk x.part x.ck e ++ s.graphChk x.part (fld e 48 0 13) ++
    [need (decide (1 ≤ n ∧ n ≤ 1048576)) (mal 0x0104)] ++ s.predChkB x.ck e)

/-- CALL_GRAPH: its checks; on a ring it is a bad opcode before any other check of its own. -/
def State.chkCall (s : State) (x : Work) : Option Res :=
  let e := x.cmd
  firstOf ([need (match x.site with | .ring _ _ => false | .node _ _ => true) (Res.of .badOpcode 0x0204),
    need (zeros e [(9, 5, 3), (10, 0, 48), (16, 0, 64), (24, 0, 64)]) (mal 0x0102)] ++
    s.graphChk x.part (fld e 8 0 13))

/-- COND and LOOP start: their predicate falls due in the next tick; they pin the epoch on a ring (04 R132).
Mark: DEDUCED (notes/assumptions/33.md). -/
def State.beginPred (s : State) (w : Nat) (x : Work) : State :=
  let locs := if predOp x.cmd < 4 ∧ predFence x.cmd = false then [s.mrefLoc x.ck x.cmd 8] else []
  ((s.hold w locs).pinEpoch w).phase w (.predDue (s.tick + 1))

/-- The predicate came out. -/
def State.predResult (s : State) (w : Nat) (x : Work) (b : Bool) : State :=
  if opcodeOf x.cmd = 0x0D then
    let f := if b then 48 else 50
    if flag x.cmd (f + 1) 7 then s.decideEnd w Res.ok else s.tryChild w (fld x.cmd f 0 13) false
  else if !b then s.decideEnd w Res.ok
  else if x.iter = fld x.cmd 52 0 32 then
    if predOp x.cmd = 4 then s.decideEnd w Res.ok else s.decideEnd w (Res.of .timeout 0x0250)
  else s.tryChild w (fld x.cmd 48 0 13) false

/-- The predicate of a command falls due or its value is to be evaluated in this tick (04 R113).
Mark: DEDUCED (notes/assumptions/33.md). -/
def State.evalPred (s : State) (w : Nat) : State :=
  match s.work? w with
  | none => s
  | some x =>
    if x.abort.isSome then s
    else match x.phase with
    | .predDue t =>
      if s.tick < t then s
      else if predOp x.cmd = 4 then s.predResult w x true
      else if predFence x.cmd then
        let k := pkey x.part (predFenceNo x.cmd)
        if !s.fenceLive x.part (predFenceNo x.cmd) then s.decideEnd w (acc 0x0230)
        else if (s.fenceView k).2 then s.decideEnd w (Res.of .fenceFailed 0)
        else s.predResult w x (predHolds x.cmd (BitVec.ofNat 64 (s.fenceView k).1))
      else (s.issueRead x.ck 4 (x.locs.headD (.dev 0 0)) 8).phase w .predRead
    | .predVal v t => if s.tick < t then s else s.predResult w x (predHolds x.cmd v)
    | _ => s

/-- The predicate's read returns (04 R113): it is evaluated in the next tick.
Mark: DEDUCED (notes/assumptions/33.md). -/
def State.predReturn (s : State) (w : Nat) (io : Io) : State :=
  match s.work? w with
  | none => s
  | some x => match x.phase with
    | .predRead =>
      if x.abort.isSome then s
      else match io with
      | .fail why a => s.decideEnd w (ioRes why a)
      | .ok host =>
        let l := x.locs.headD (.dev 0 0)
        let v : Word := if l.isHost then host.headD 0 else BitVec.ofNat 64 (leNat (s.readLoc l 8))
        s.phase w (.predVal v (s.tick + 1))
    | _ => s

/-! ### FENCE_WAIT and FENCE_SIGNAL (04 R141-R144) -/

/-- FENCE_WAIT: its checks. -/
def State.chkFenceWait (s : State) (x : Work) : Option Res :=
  firstOf ([need (zeros x.cmd [(10, 4, 12), (12, 0, 32), (24, 0, 64)]) (mal 0x0102)] ++
    s.fenceChk x.part (fenceNo x.cmd))

/-- THRESHOLD. -/
def thresholdOf (e : Cmd) : Nat := fld e 16 0 64

/-- One check of a wait: FAILED first, then the threshold (04 R141). -/
def State.waitCheck (s : State) (w : Nat) : State :=
  match s.work? w with
  | none => s
  | some x =>
    let v := s.fenceView (pkey x.part (fenceNo x.cmd))
    if x.abort.isSome then s
    else if v.2 then s.decideEnd w (Res.of .fenceFailed 0)
    else if thresholdOf x.cmd ≤ v.1 then s.decideEnd w Res.ok
    else s

/-- FENCE_WAIT starts: the first check is made in this tick; the fence is placed at the next boundary. -/
def State.beginFenceWait (s : State) (w : Nat) (x : Work) : State :=
  (s.phase w (.fenceWait (s.homeOf (pkey x.part (fenceNo x.cmd))) (thresholdOf x.cmd) false)).waitCheck w

/-- MODE of FENCE_SIGNAL: 0 MAX, 1 INCREMENT, 2 FAIL. -/
def sigMode (e : Cmd) : Nat := fld e 12 0 2
/-- VALUE of FENCE_SIGNAL. -/
def sigValue (e : Cmd) : Nat := fld e 16 0 64
/-- EFFECTIVE_TICK. -/
def sigTick (e : Cmd) : Nat := fld e 24 0 58

/-- The least EFFECTIVE_TICK allowed (04 R143). -/
def State.sigFirst (s : State) (k : Nat) : Nat := if s.isRemote k then s.tick + s.lead else s.tick + 1

/-- FENCE_SIGNAL: its checks. -/
def State.chkFenceSignal (s : State) (x : Work) : Option Res :=
  let e := x.cmd
  let k := pkey x.part (fenceNo e)
  let t := sigTick e
  firstOf ([need (zeros e [(10, 4, 12), (12, 2, 6), (13, 0, 24), (31, 2, 6)]) (mal 0x0102)] ++
    s.fenceChk x.part (fenceNo e) ++
    [need (s.maySignal x.part (fenceNo e)) (acc 0x0234), need (sigMode e != 3) (mal 0x0104),
     need (sigMode e != 1 || !s.isRemote k) (acc 0x0231),
     need (sigMode e != 2 || sigValue e == 0) (mal 0x0104),
     need (t == 0 || decide (s.sigFirst k ≤ t)) (mal 0x0232),
     need (t == 0 || decide (t ≤ s.tick + Config.maxAhead)) (mal 0x0233)])

/-- FENCE_SIGNAL starts: the signal is scheduled; to a fence of another chip the flit goes out now. -/
def State.beginFenceSignal (s : State) (w : Nat) (x : Work) : State :=
  let e := x.cmd
  let k := pkey x.part (fenceNo e)
  let at_ := if sigTick e = 0 then s.sigFirst k else sigTick e
  let s1 := if s.isRemote k then
      s.signalRemote x.part k (if sigMode e = 2 then none else some (sigValue e)) at_
    else s
  s1.phase w (.signal at_)

/-- A scheduled FENCE_SIGNAL takes effect on this chip at its boundary: MAX and INCREMENT in step 2, FAIL in
step 3. The command completes with the status of 04 R144; for a remote fence the mirror has its own change.
Mark: DESIGN CHOICE (notes/assumptions/164.md). -/
def State.applySignal (s : State) (w : Nat) : State :=
  match s.work? w with
  | none => s
  | some x =>
    let e := x.cmd
    let k := pkey x.part (fenceNo e)
    let was := (s.fenceView k).2
    if s.isRemote k then
      s.finish w (if was && sigMode e != 2 then Res.of .fenceFailed 0 else Res.ok)
    else match sigMode e with
    | 0 => (s.applyMax x.part k (sigValue e)).finish w (if was then Res.of .fenceFailed 0 else Res.ok)
    | 1 => let (st, s1) := s.applyInc x.part k (sigValue e); s1.finish w (Res.of st 0)
    | _ => (s.applyFail k).finish w Res.ok

/-! ### WRITE_VALUE, TIMESTAMP, COPY (04 R145-R147) -/

/-- The width of WRITE_VALUE. -/
def wvBytes (e : Cmd) : Nat := if flag e 24 0 then 8 else 4

/-- WRITE_VALUE: its checks. -/
def State.chkWriteValue (s : State) (x : Work) : Option Res :=
  let e := x.cmd
  let hi := if flag e 24 0 then [] else [(36, 0, 32)]
  firstOf [need (zeros e (mrefResv 8 ++ [(24, 1, 7), (25, 0, 56), (40, 0, 64)] ++ hi)) (mal 0x0102),
    s.mrefA x.ck e 8, s.mrefB x.ck e 8 (wvBytes e) (wvBytes e)]

/-- WRITE_VALUE starts: the write is made in the tick after the start, which a rerun of the routine does not move (13 R381).
Mark: DEDUCED (notes/assumptions/34.md). -/
def State.beginWriteValue (s : State) (w : Nat) (x : Work) : State :=
  (s.hold w [s.mrefLoc x.ck x.cmd 8]).phase w (.io (.write (wvBytes x.cmd) (fld x.cmd 32 0 64)) (x.started + 1))

/-- TIMESTAMP: its checks. -/
def State.chkTimestamp (s : State) (x : Work) : Option Res :=
  firstOf [need (zeros x.cmd (mrefResv 8 ++ [(24, 0, 64)])) (mal 0x0102), s.mrefA x.ck x.cmd 8,
    s.mrefB x.ck x.cmd 8 8 8]

/-- TIMESTAMP starts: the stamp is the FTC of the boundary that follows the start, which a rerun of the routine does not move
(13 R381).
Mark: DEDUCED (notes/assumptions/34.md). -/
def State.beginTimestamp (s : State) (w : Nat) (x : Work) : State :=
  (s.hold w [s.mrefLoc x.ck x.cmd 8]).phase w
    (.io (.write 8 ((x.started + 1) * 64 % 2 ^ 63)) (x.started + 1))

/-- BYTES of COPY. -/
def copyBytes (e : Cmd) : Nat := fld e 40 0 64

/-- Do two places overlap over `n` bytes (04 R146)? Device places are compared by the memory they resolve to.
Mark: DEDUCED (notes/assumptions/35.md). -/
def overlap (a b : Loc) (n : Nat) : Bool :=
  match a, b with
  | .dev o f, .dev p g => o == p && decide (f < g + n) && decide (g < f + n)
  | .host f, .host g => decide (f < g + n) && decide (g < f + n)
  | _, _ => false

/-- COPY: its checks.
Mark: DEDUCED (notes/assumptions/35.md). -/
def State.chkCopy (s : State) (x : Work) : Option Res :=
  let e := x.cmd
  let n := copyBytes e
  firstOf [need (zeros e (mrefResv 8 ++ mrefResv 24 ++ [(50, 0, 48), (56, 0, 64)])) (mal 0x0102),
    s.mrefA x.ck e 8, s.mrefA x.ck e 24, need (decide (1 ≤ n ∧ n ≤ 2 ^ 40)) (mal 0x0104),
    need (decide (1 ≤ fld e 48 0 16 ∧ fld e 48 0 16 ≤ 128)) (mal 0x0104),
    s.mrefB x.ck e 8 n 1, s.mrefB x.ck e 24 n 1,
    need (!overlap (s.mrefLoc x.ck e 8) (s.mrefLoc x.ck e 24) n) (mal 0x0240),
    need (decide (s.eligible 3 (2 ^ 128 - 1) ≠ [])) (Res.of .coreFenced 0x02E4)]

/-- The chunk of a COPY: BYTES / SPREAD rounded up, to a multiple of 4 KiB. -/
def chunkBytes (e : Cmd) : Nat := roundUp (ceilDiv (copyBytes e) (fld e 48 0 16)) 4096

/-- COPY starts: each chunk is an instance, an item is 4 KiB (04 R146). -/
def State.beginCopy (s : State) (w : Nat) (x : Work) : State :=
  let c := chunkBytes x.cmd
  let n := copyBytes x.cmd
  let el := s.eligible 3 (2 ^ 128 - 1)
  let eps := (List.range (ceilDiv n c)).map fun i => el.getD (i % el.length) 0
  (s.hold w [s.mrefLoc x.ck x.cmd 8, s.mrefLoc x.ck x.cmd 24]).adjWork w fun x =>
    { x with phase := .running, segUs := s.cfg.segMaxUs, itemNs := 0,
             insts := s.makeInsts eps fun i => ceilDiv (min c (n - i * c)) 4096 }

/-- The bytes that a chunk's items `first` to `first + count - 1` hold. -/
def itemBytes (e : Cmd) (inst first count : Nat) : Nat :=
  min (count * 4096) (min (chunkBytes e) (copyBytes e - inst * chunkBytes e) - first * 4096)

/-- The bytes of a chunk's items `first` to `first + count - 1` move from SRC to DST; host bytes that DX read
are those of the engine's report.
Mark: DESIGN CHOICE (notes/assumptions/54.md). -/
def State.copyItems (s : State) (x : Work) (inst first count : Nat) : State :=
  let c := chunkBytes x.cmd
  let a := inst * c + first * 4096
  let n := itemBytes x.cmd inst first count
  let src := (x.locs.getD 0 (.dev 0 0)).plus a
  let dst := (x.locs.getD 1 (.dev 0 0)).plus a
  match src, dst with
  | .host a, .host _ => s.writeLoc x.ck dst (s.hostBytes x.ck a n)
  | .host _, .dev _ _ => s
  | .dev _ _, _ => s.writeLoc x.ck dst (s.readLoc src n)

/-- NOP: nothing but its header is checked; it is done at the boundary after its start (03 R99). -/
def State.beginNop (s : State) (w : Nat) : State := s.decideEnd w Res.ok

end Sys2Proof.Machine
end

