-- ==== Sys2Proof/Machine/Lookups.lean ====
section
/-! DEFINITION. GATHER and the lookup marshal (04 R136-R138; 08 R233-R239, R256; 09 R296-R300): index elements are
checked and resolved, missing sectors go to GX in batches, rows of other chips by exchange, and the outputs are
written as R137 states. -/
namespace Sys2Proof.Machine

/-! ### GATHER (04 R136) -/

/-- MODE: 0 COPY, 1 SUM, 2 MEAN. -/
def gaMode (e : Cmd) : Nat := fld e 64 0 2
/-- NIDX. -/
def gaIdx (e : Cmd) : Nat := fld e 56 0 24
/-- NBAGS. -/
def gaBags (e : Cmd) : Nat := fld e 60 0 32
/-- OUT_FORMAT. -/
def gaFmt (e : Cmd) : Nat := fld e 65 0 8
/-- OUT_STRIDE. -/
def gaStride (e : Cmd) : Nat := fld e 68 0 32

/-- Bytes of an element of OUT_FORMAT. -/
def outBytes (fmt : Nat) : Nat := if fmt = 0 then 4 else 2

/-- GATHER: its checks. -/
def State.chkGather (s : State) (x : Work) : Option Res :=
  let e := x.cmd
  let copy := gaMode e == 0
  let n := gaIdx e
  let outN := if copy then n else gaBags e
  firstOf [need (zeros e (mrefResv 8 ++ mrefResv 24 ++ (if copy then [] else mrefResv 40) ++
      [(59, 0, 8), (64, 2, 6), (66, 0, 16), (72, 0, 64)])) (mal 0x0102),
    s.mrefA x.ck e 8, s.mrefA x.ck e 24, need (n != 0) (mal 0x0104),
    need (if copy then gaBags e == 0 else decide (1 ≤ gaBags e ∧ gaBags e ≤ n)) (mal 0x0104),
    need (gaMode e != 3) (mal 0x0104),
    (if copy then need (zeroBytes e 40 56) (mal 0x0104) else s.mrefA x.ck e 40),
    need (if copy then gaFmt e == 0 else decide (gaFmt e ≤ 2)) (mal 0x0104),
    need (decide (16 ≤ gaStride e) && gaStride e % 16 == 0) (mal 0x0104),
    s.mrefB x.ck e 8 (8 * n) 8, s.mrefB x.ck e 24 (gaStride e * outN) 16,
    (if copy then none else s.mrefB x.ck e 40 (4 * (gaBags e + 1)) 4)]

/-- GATHER starts: it enters the marshal with the tables of its partition, and its offsets and elements are read. -/
def State.beginGather (s : State) (w : Nat) (x : Work) : State :=
  let e := x.cmd
  let locs := [s.mrefLoc x.ck e 8, s.mrefLoc x.ck e 24] ++ (if gaMode e = 0 then [] else [s.mrefLoc x.ck e 40])
  let g : Gather :=
    { tables := (s.tables.filter fun t => t.2.part == x.part).filterMap fun t => t.2.num.map fun n => (n, t.1),
      bags := [], pos := List.replicate (gaIdx e) .unresolved, peers := [], allPeers := [], xid := 0,
      lastSent := none, segNo := [], noEndpoint := false,
      lost := none }
  let s0 := s.issueRead x.ck 6 (s.mrefLoc x.ck e 8) (8 * gaIdx e)
  let s0 := if gaMode e = 0 then s0 else s0.issueRead x.ck 6 (s.mrefLoc x.ck e 40) (4 * (gaBags e + 1))
  let s1 := s0.adjMarshal fun m => { m with gathers := Tbl.set m.gathers w g, traffic := true }
  ((s1.hold w locs).pinEpoch w).phase w (.io .indices s.tick)

/-! ### Outputs (04 R137) -/

/-- Where bag or position `i` is written. -/
def Work.outLoc (x : Work) (i : Nat) : Loc := (x.locs.getD 1 (.dev 0 0)).plus (i * gaStride x.cmd)

/-- A COPY position is served with its row. -/
def State.writeRow (s : State) (x : Work) (i : Nat) (bytes : List Byte) : State :=
  s.writeLoc x.ck (x.outLoc i) bytes

/-- A position that failed a check is written as zeros in COPY mode. -/
def State.badPos (s : State) (w : Nat) (x : Work) (i : Nat) (st : Status) (detail : Nat) : State :=
  let s1 := s.setPos w i (.bad st detail)
  if gaMode x.cmd = 0 then s1.writeRow x i (List.replicate (gaStride x.cmd) 0) else s1

/-- A position has its row: COPY writes it; SUM and MEAN keep it until the bag is summed. -/
def State.goodPos (s : State) (w : Nat) (x : Work) (i table : Nat) (bytes : List Byte) : State :=
  if gaMode x.cmd = 0 then (s.setPos w i .served).writeRow x i bytes else s.setPos w i (.row table bytes)

/-- The valid rows of a bag in ascending position: format and bytes. -/
def State.bagRows (s : State) (g : Gather) (b : Nat) : List (Nat × List Byte) :=
  let lo := g.bags.getD b 0
  let hi := g.bags.getD (b + 1) 0
  ((g.pos.drop lo).take (hi - lo)).filterMap fun p =>
    match p with
    | .row t bytes => some ((match s.table? t with | some t => t.format | none => 0), bytes)
    | _ => none

/-- Element `j` of a bag's output before its conversion: the fp32 sum, or its mean.
Mark: DEDUCED (notes/assumptions/67.md). -/
def bagElem (mean : Bool) (rows : List (Nat × List Byte)) (j : Nat) : Nat :=
  match rows with
  | [] => 0
  | r :: rs =>
    let sum := rs.foldl (fun a r => add32 a (rowElem r.1 r.2 j)) (rowElem r.1 r.2 j)
    if mean then div32 sum (nat32 (r :: rs).length) else sum

/-- The bytes of a bag.
Mark: DEDUCED (notes/assumptions/67.md). -/
def State.bagOut (s : State) (e : Cmd) (g : Gather) (b : Nat) : List Byte :=
  match s.bagRows g b with
  | [] => List.replicate (gaStride e) 0
  | r :: rs =>
    (List.range (rowElems r.1 r.2.length)).flatMap fun j =>
      let v := bagElem (gaMode e == 2) (r :: rs) j
      leBytes (outBytes (gaFmt e)) (if gaFmt e = 0 then v else wrOut (gaFmt e) (Config.nan v v) (rd32 v))

/-- The first failing position in index order. -/
def firstBad : Nat → List PosSt → Option (Nat × Status × Nat)
  | _, [] => none
  | i, .bad st d :: _ => some (i, st, d)
  | i, _ :: l => firstBad (i + 1) l

/-- The end that a GATHER reports (04 R138): its fault address is that of the index element.
Mark: DEDUCED (notes/assumptions/61.md). -/
def State.gatherRes (s : State) (x : Work) (g : Gather) : Res :=
  match firstBad 0 g.pos with
  | none => Res.ok
  | some (i, st, d) =>
    { st := st, detail := d, addr := some (s.locAddr ((x.locs.headD (.dev 0 0)).plus (8 * i))), stamp := none,
      io := st == .memDetected }

/-- Does the output of a GATHER take in an address? A device place is compared by its sector. -/
def State.inOut (s : State) (x : Work) (a : Nat) : Bool :=
  let n := gaStride x.cmd * (if gaMode x.cmd = 0 then gaIdx x.cmd else gaBags x.cmd)
  match x.outLoc 0 with
  | .host h => decide (h ≤ a) && decide (a < h + n)
  | .dev o f => (List.range (n / 16)).any fun j => s.locAddr (.dev o (f + 16 * j)) / 64 == a / 64

/-- A write of a GATHER's output has failed (02 R55; 11 R329): every position is served, and the GATHER ends with
the first such failure.
Mark: DEDUCED (notes/assumptions/61.md). -/
def State.loseOut (s : State) (w : Nat) (r : Res) : State :=
  s.adjGather w fun g => { g with lost := if g.lost.isSome then g.lost else some r }

/-- Is a position settled? -/
def PosSt.final : PosSt → Bool
  | .bad _ _ => true
  | .row _ _ => true
  | .served => true
  | _ => false

/-- The end of a GATHER whose positions are all settled and whose peers have all sent LAST: bags are written. A
position lost to a memory error records a context fault where another status is reported (11 R329). -/
def State.gatherEnd (s : State) (w : Nat) (soon : Bool) : Option (Res × State) :=
  match s.work? w, s.gather? w with
  | some x, some g =>
    if x.abort.isSome then none
    else if g.noEndpoint then some (Res.of .coreFenced 0x02E4, s)
    else if g.pos.all PosSt.final && g.peers == [] then
      let r := g.lost.getD (s.gatherRes x g)
      let s1 := if gaMode x.cmd = 0 then s
        else foldS (List.range (gaBags x.cmd)) (fun s b => s.writeLoc x.ck (x.outLoc b) (s.bagOut x.cmd g b)) s
      let lost := g.pos.any fun p => match p with | .bad .memDetected _ => true | _ => false
      let s2 := if lost && r.st != .memDetected then
          (if soon then s1.faultSoon x.ck Status.memDetected.code 0x03 (r.addr.getD 0)
            else s1.ctxFault x.ck Status.memDetected.code 0x03 (r.addr.getD 0))
        else s1
      some (r, s2)
    else none
  | _, _ => none

/-- Decide the end of a GATHER that has come to it in this tick. -/
def State.settleGather (s : State) (w : Nat) : State :=
  match s.gatherEnd w true with
  | some (r, s1) => s1.decideEnd w r
  | none => s

/-! ### Resolution (08 R233, R234; 04 R138) -/

/-- The channel and bank of a granule (08 R234). -/
def chanBank (stackCount addr : Nat) : Nat × Nat :=
  let g := addr / 256
  let x := Nat.xor (Nat.xor g (g / 2 ^ 11)) (Nat.xor (g / 2 ^ 23) (g / 2 ^ 35))
  let t1 := decide (Config.tier1Base ≤ addr)
  let nch := if t1 then 32 else 16 * stackCount
  let nb := if t1 then 32 else 64
  (x % nch, x / nch % nb)

/-- w in force (08 R239, R265). -/
def Marshal.window (m : Marshal) : Nat := if m.fixed then clampNat 1 8 m.fixedW else m.w

/-- Change the open batch, opening one if there is none. -/
def State.intoBatch (s : State) (f : Batch → Batch) : State :=
  s.adjMarshal fun m =>
    let b := m.batch.getD { opened := s.tick, window := m.window, entries := [] }
    { m with batch := some (f b) }

/-- Add an entry to the remote batch of its chip, opening one if there is none (08 R235). -/
def State.intoRemote (s : State) (e : RemoteEntry) : State :=
  s.adjMarshal fun m =>
    if m.remotes.any fun b => b.chip == e.chip then
      { m with remotes := m.remotes.map fun b => if b.chip = e.chip then { b with rows := b.rows ++ [e] } else b }
    else { m with remotes := m.remotes ++ [{ chip := e.chip, opened := s.tick, window := m.window, rows := [e] }] }

/-- The granules of 256 bytes that `n` bytes from an address touch. -/
def granules (a n : Nat) : List Nat := (List.range ((a + n - 1) / 256 - a / 256 + 1)).map fun i => (a / 256 + i) * 256

/-- The row of a local position misses the cache: its granules join the open batch. -/
def State.missRow (s : State) (w i u : Nat) (t : Table) (slot : Nat) (admitted : Bool) : State :=
  let a := s.locAddr (t.slotLoc slot)
  let s1 := s.setPos w i (.local_ u slot (sectorsIn a t.rowBytes) admitted)
  s1.intoBatch fun b => { b with entries := b.entries ++ (granules a t.rowBytes).map fun g =>
    let c := chanBank s.cfg.stackCount g
    { channel := c.1, bank := c.2, granule := g, work := w, pos := i } }

/-- Resolve a local row at an epoch: the slot through the map line.
Mark: DEDUCED (notes/assumptions/60.md). -/
def State.resolveSlot (s : State) (u : Nat) (t : Table) (i epoch : Nat) : Nat × State :=
  (t.slotOf i (s.mapHalf t i (s.halfOf epoch)), s.useMapLine u t i)

/-- Does the read of a row's map sector meet an uncorrected error in this tick (11 R329)?
Mark: DEDUCED (notes/assumptions/17.md). -/
def State.mapBad (s : State) (u i : Nat) : Bool := s.marshal.badMap.contains (u, i / 8) && !s.hasLine u true (i / 8)

/-- An uncorrected error in Mahorn's own state is counted and recorded on context 0 of the owning partition (11 R329). -/
def State.ownError (s : State) (p addr : Nat) : State :=
  (s.countUe 1).ctxFault (pkey p 0) Status.memDetected.code 0 addr

/-- The same error met in a tick.
Mark: DEDUCED (notes/assumptions/16.md). -/
def State.ownErrorSoon (s : State) (p addr : Nat) : State :=
  (s.countUe 1).faultSoon (pkey p 0)
    Status.memDetected.code 0 addr

/-- The error of a row's map sector. -/
def State.mapError (s : State) (t : Table) (i : Nat) : State :=
  s.ownErrorSoon t.part (s.locAddr (t.entry i 0) / 64 * 64)

/-- A local position is resolved: served by the cache, or added to the open batch. -/
def State.resolveLocal (s : State) (w : Nat) (x : Work) (i u : Nat) (t : Table) (row : Nat) : State :=
  if s.mapBad u row then (s.mapError t row).badPos w x i .memDetected 0x02E1
  else
    let (slot, s1) := s.resolveSlot u t row (s.epochOf x)
    let (hit, admitted, s2) := s1.useRowLine u t slot
    if hit then s2.goodPos w x i u (s2.readLoc (t.slotLoc slot) t.rowBytes) else s2.missRow w i u t slot admitted

/-- The table that a local number names for a GATHER: the one it had when the GATHER started, else today's. -/
def State.gatherTable (s : State) (p : Nat) (g : Gather) (n : Nat) : Option Nat :=
  match Tbl.get? g.tables n with
  | some u => some u
  | none => s.tableOf p n

/-- The first four checks of R138 on an element, and READY (08 R258): the table, or the failure. -/
def State.elemChk (s : State) (p : Nat) (g : Gather) (x : Nat) : Option Nat × Option Res :=
  if x / 2 ^ 52 ≠ 0 then (none, some (mal 0x0102))
  else match s.gatherTable p g (x / 2 ^ 40 % 2 ^ 12) with
  | none => (none, some (acc 0x0211))
  | some u => match s.table? u with
    | none => (none, some (acc 0x0211))
    | some t =>
      if t.state ≠ .ready then (none, some (acc 0x02A3))
      else if t.rows ≤ x % 2 ^ 40 then (none, some (mal 0x0212))
      else (some u, none)

/-- The last two checks of R138: `ref` is the size and format of the bag's first position that passed the
others. -/
def rowChk (e : Cmd) (t : Table) (ref : Option (Nat × Nat)) : Option Res :=
  let out := if gaMode e = 0 then t.rowBytes else rowElems t.format t.rowBytes * outBytes (gaFmt e)
  firstOf [need (match ref with | some r => r == (t.rowBytes, t.format) | none => true) (mal 0x0213),
           need (decide (out ≤ gaStride e)) (mal 0x0214)]

/-- Does the read of an index element in device memory meet an uncorrected error in this tick (11 R329)?
Mark: DEDUCED (notes/assumptions/17.md). -/
def State.idxBad (s : State) (x : Work) (i : Nat) : Bool :=
  match x.locs.headD (.host 0) with
  | .host _ => false
  | .dev o f => s.marshal.badIdx.contains (s.locAddr (.dev o (f + 8 * i)) / 64)

/-- Count the reads of index sectors that met an error: one report for each sector (11 R329). -/
def State.countIdxBad (s : State) (x : Work) : State :=
  let li := x.locs.headD (.host 0)
  let bad := dedupNat (((List.range (gaIdx x.cmd)).filter fun i => s.idxBad x i).map fun i => s.locAddr (li.plus (8 * i)) / 64)
  s.countUe bad.length

/-- Resolve one index element. It answers the reference of its bag. -/
def State.resolveElem (s : State) (w : Nat) (x : Work) (g : Gather) (i elem : Nat) (ref : Option (Nat × Nat)) :
    Option (Nat × Nat) × State :=
  if s.idxBad x i then (ref, s.badPos w x i .memDetected 0x02E0)
  else match s.elemChk x.part g elem with
  | (_, some r) => (ref, s.badPos w x i r.st r.detail)
  | (none, none) => (ref, s)
  | (some u, none) => match s.table? u with
    | none => (ref, s)
    | some t =>
      let ref' := if gaMode x.cmd = 0 then none else some (ref.getD (t.rowBytes, t.format))
      match rowChk x.cmd t ref' with
      | some r => (ref', s.badPos w x i r.st r.detail)
      | none =>
        let row := elem % 2 ^ 40
        let sh := row % t.shards
        let chip := t.chip0 + sh
        if chip ≠ s.fab.chip then
          (ref', (s.setPos w i (.remote chip u)).intoRemote { chip := chip, work := w, pos := i, table := u, row := row / t.shards })
        else (ref', s.resolveLocal w x i u t (row / t.shards))

/-- Resolve elements from position `i` on; a new bag starts with no reference. -/
def State.resolveAll (s : State) (w : Nat) (x : Work) (g : Gather) : Nat → Option (Nat × Nat) → List Nat → State
  | _, _, [] => s
  | i, ref, el :: els =>
    let ref0 := if g.bags.contains i then none else ref
    let (ref1, s1) := s.resolveElem w x g i el ref0
    State.resolveAll s1 w x g (i + 1) ref1 els

/-- Do bag offsets start at 0, never decrease and end at NIDX (04 R138)? -/
def bagsOk (n : Nat) : List Nat → Bool
  | [] => false
  | bags => bags.head? == some 0 && bags.getLast? == some n && (bags.zip (bags.drop 1)).all fun p => decide (p.1 ≤ p.2)

/-- The chips that share a table that some element names, this chip excluded (09 R296). -/
def State.peersOf (s : State) (x : Work) (g : Gather) (elems : List Nat) : List Nat :=
  let us := dedupNat (elems.filterMap fun el =>
    if el / 2 ^ 52 ≠ 0 then none else s.gatherTable x.part g (el / 2 ^ 40 % 2 ^ 12))
  let cs := us.flatMap fun u => match s.table? u with
    | some t => if t.shards = 1 then [] else (List.range t.shards).map fun i => t.chip0 + i
    | none => []
  sortBy (fun a b => decide (a ≤ b)) ((dedupNat cs).filter fun c => c != s.fab.chip)

/-! ### Request segments (09 R296-R298) -/

/-- Send one request segment of a GATHER to a chip. -/
def State.sendRequest (s : State) (w : Nat) (x : Work) (chip u : Nat) (rows : List RemoteEntry) (last : Bool) : State :=
  match s.gather? w with
  | none => s
  | some g =>
    let no := Tbl.getD g.segNo chip 0
    let key := if rows = [] then 0 else match s.table? u with | some t => t.key | none => 0
    let body := xchgHeader g.xid s.fab.chip 0 last x.part rows.length (s.epochOf x) key 0 0 no ++
      rows.map fun r => BitVec.ofNat 64 r.row
    let s1 := (s.adjGather w fun g => { g with segNo := Tbl.set g.segNo chip (no + 1) }).sendFrames chip g.xid body
    s1.adjMarshal fun m => { m with asked := m.asked ++
      [{ chip := chip, xid := g.xid, work := w, pos := rows.map fun r => r.pos, last := last }] }

/-- Send a peer the rest of a GATHER's rows, one segment per table, the last one with LAST. -/
def State.sendPeer (s : State) (w : Nat) (x : Work) (rows : List RemoteEntry) (chip : Nat) : State :=
  let mine := rows.filter fun r => r.chip == chip
  match (dedupNat (mine.map fun r => r.table)).reverse with
  | [] => s.sendRequest w x chip 0 [] true
  | t :: ts =>
    let s1 := foldS ts.reverse (fun s u => s.sendRequest w x chip u (mine.filter fun r => r.table == u) false) s
    s1.sendRequest w x chip t (mine.filter fun r => r.table == t) true

/-- Send what remote batches that have closed hold for a GATHER: where none of its rows waits in an open batch, every peer gets
its rows and LAST, otherwise each chip the rows that it has to serve (09 R296). -/
def State.sendPeers (s : State) (w : Nat) (rows : List RemoteEntry) : State :=
  match s.work? w, s.gather? w with
  | some x, some g =>
    if s.marshal.remotes.any fun b => b.rows.any fun r => r.work == w then
      foldS (dedupNat ((rows.filter fun r => r.work == w).map fun r => r.chip)) (fun s c =>
        let mine := rows.filter fun r => r.work == w && r.chip == c
        foldS (dedupNat (mine.map fun r => r.table)) (fun s u => s.sendRequest w x c u (mine.filter fun r => r.table == u) false) s) s
    else (foldS g.allPeers (fun s c => s.sendPeer w x (rows.filter fun r => r.work == w) c) s).adjGather w fun g =>
      { g with lastSent := some s.tick }
  | _, _ => s

/-- The offsets and elements of a GATHER have been read: offsets are checked, every element is resolved, and the
peer set is fixed. `host` holds what was read from host memory, offsets before elements. -/
def State.gatherRead (s : State) (w : Nat) (x : Work) (host : List Word) : State :=
  match s.gather? w with
  | none => s
  | some g0 =>
    let e := x.cmd
    let copy := gaMode e == 0
    let li := x.locs.getD 0 (.dev 0 0)
    let lb := x.locs.getD 2 (.dev 0 0)
    let nb := if copy then 0 else gaBags e + 1
    let hostB := if !copy && lb.isHost then (4 * nb + 7) / 8 else 0
    let bagBytes := if lb.isHost then wordBytes (host.take hostB) else s.readLoc lb (4 * nb)
    let bags := if copy then [] else (List.range nb).map fun i => leNat ((bagBytes.drop (4 * i)).take 4)
    let elems := if li.isHost then (List.range (gaIdx e)).map fun i => ((host.drop hostB).getD i 0).toNat
      else (List.range (gaIdx e)).map fun i => leNat (s.readLoc (li.plus (8 * i)) 8)
    if !copy && !bagsOk (gaIdx e) bags then s.decideEnd w (mal 0x0210)
    else
      let peers := s.peersOf x g0 elems
      let xid := s.marshal.nextXid
      let s1 := (s.adjGather w fun g => { g with bags := bags, peers := peers, allPeers := peers, xid := xid }).adjMarshal
        fun m => { m with nextXid := if peers = [] then m.nextXid else (m.nextXid + 1) % 2 ^ 32 }
      let g := { g0 with bags := bags }
      let s2 := ((s1.countIdxBad x).phase w .marshal).resolveAll w x g 0 none elems
      let remote := match s2.gather? w with
        | some g => g.pos.any fun p => match p with | .remote _ _ => true | _ => false
        | none => false
      let s3 := if peers ≠ [] ∧ remote = false then s2.sendPeers w [] else s2
      s3.settleGather w

/-- The read of a GATHER's offsets and elements has failed, and with it the command; a failed write of the output of a
GATHER whose offsets and elements lie in device memory is reported in the same way. -/
def State.gatherReadFails (s : State) (w : Nat) (x : Work) (why : IoFail) (a : Nat) : State :=
  let hostIn := (x.locs.headD (.dev 0 0)).isHost || (x.locs.getD 2 (.dev 0 0)).isHost
  if s.inOut x a && !hostIn then (s.loseOut w (ioRes why a)).gatherRead w x [] else s.decideEnd w (ioRes why a)

/-! ### Batches and gather segments (08 R235-R237) -/

/-- Does some GATHER await its elements? -/
def State.marshalBusy (s : State) : Bool :=
  s.works.any fun e => match e.2.phase with | .io .indices _ => true | _ => false

/-- May the open batch close (08 R235)? -/
def State.batchDue (s : State) (opened window entries : Nat) : Bool :=
  decide (opened + window ≤ s.tick + 1) || !s.marshalBusy || decide (Config.batchEntries ≤ entries)

/-- The order of the sort (08 R236). -/
def BatchEntry.le (a b : BatchEntry) : Bool :=
  lexLe [a.channel, a.bank, a.granule, a.pos, a.work] [b.channel, b.bank, b.granule, b.pos, b.work]

/-- Does the row of a position touch the sector at an address? -/
def State.touches (s : State) (w i sector : Nat) : Bool :=
  match s.gather? w with
  | none => false
  | some g => match g.pos.getD i .unresolved with
    | .local_ u slot _ _ => match s.table? u with
      | some t => let a := s.locAddr (t.slotLoc slot); decide (a < sector + 64) && decide (sector < a + t.rowBytes)
      | none => false
    | _ => false

/-- The sectors that sorted entries need, each merged over the positions that need it. -/
def State.mergeSectors (s : State) (es : List BatchEntry) : List (Nat × List (Nat × Nat)) :=
  (dedupNat (es.map fun e => e.granule)).flatMap fun g =>
    let here := es.filter fun e => e.granule == g
    ([g, g + 64, g + 128, g + 192].map fun a =>
      (a, (here.filter fun e => s.touches e.work e.pos a).map fun e => (e.work, e.pos))).filter fun x => x.2 != []

/-- Cut a list into pieces of at most 1,024 sectors. -/
def cutSegs {α : Type} : Nat → List α → List (List α)
  | 0, _ => []
  | _, [] => []
  | n + 1, l => l.take 1024 :: cutSegs n (l.drop 1024)

/-- Queue gather segments that may be dispatched from a tick on; their descriptors, 8 bytes a sector, are written on input 6 of
the memory port (08 R237). -/
def State.queueSegs (s : State) (since : Nat) (sectors : List (Nat × List (Nat × Nat))) : State :=
  foldS (cutSegs (sectors.length + 1) sectors) (fun s l => (s.present 6 (ceilDiv (8 * l.length) 64)).adjMarshal fun m =>
    { m with segs := Tbl.set m.segs m.nextSeg { sectors := l, since := since }, nextSeg := m.nextSeg + 1 }) s

/-- The open batch closes where it is due: its entries are sorted, merged and packed in the next tick. -/
def State.closeLocal (s : State) : State :=
  match s.marshal.batch with
  | none => s
  | some b =>
    if !s.batchDue b.opened b.window b.entries.length then s
    else
      let now := b.entries.take Config.batchEntries
      let rest := b.entries.drop Config.batchEntries
      let left : Option Batch :=
        if rest = [] then none else some { opened := s.tick, window := s.marshal.window, entries := rest }
      let sectors := s.mergeSectors (sortBy BatchEntry.le now)
      let s1 := (s.adjMarshal fun m => { m with batch := left }).event 802 0x06 none now.length sectors.length s.marshal.window
      s1.queueSegs (s.tick + 1) sectors

/-- The remote batches that are due close, and their rows go out (08 R235; 09 R296). -/
def State.closeRemotes (s : State) : State :=
  let due := fun (b : RemoteBatch) => s.batchDue b.opened b.window b.rows.length
  let rows := (s.marshal.remotes.filter due).flatMap fun b => b.rows.take Config.batchEntries
  let left := s.marshal.remotes.filterMap fun b =>
    if !due b then some b
    else if b.rows.length ≤ Config.batchEntries then none
    else some { b with opened := s.tick, window := s.marshal.window, rows := b.rows.drop Config.batchEntries }
  foldS (dedupNat (rows.map fun r => r.work)) (fun s w => s.sendPeers w rows) (s.adjMarshal fun m => { m with remotes := left })

/-- The batches that are due close. -/
def State.closeBatch (s : State) : State := s.closeLocal.closeRemotes

/-- The bytes of a row have come for a position: of a GATHER, or of a segment that this chip serves. -/
def State.rowComes (s : State) (w i u : Nat) (bytes : List Byte) : State :=
  match s.work? w with
  | some x => s.goodPos w x i u bytes
  | none => s.setPos w i (.row u bytes)

/-- A sector has reached the position that needed it; with the last one the row is complete. -/
def State.deliver (s : State) (u : Nat × Nat) : State :=
  match s.gather? u.1 with
  | some g => match g.pos.getD u.2 .unresolved with
    | .local_ tu slot n admitted =>
      if 1 < n then s.setPos u.1 u.2 (.local_ tu slot (n - 1) admitted)
      else match s.table? tu with
        | none => s
        | some t =>
          let s1 := if admitted && !s.hasLine tu false slot then s.admitLine (s.rowLine tu t slot) else s
          s1.rowComes u.1 u.2 tu (s1.readLoc (t.slotLoc slot) t.rowBytes)
    | _ => s
  | none => s

/-- A sector could not be read: the positions that need it fail under R138. -/
def State.loseSector (s : State) (u : Nat × Nat) : State :=
  match s.work? u.1 with
  | some x => s.badPos u.1 x u.2 .memDetected 0x02E0
  | none => s.setPos u.1 u.2 (.bad .memDetected 0x02E0)

/-! ### Serving another chip (08 R256; 09 R297) -/

/-- Is a position of a served segment settled? -/
def Gather.served (g : Gather) : Bool := g.pos.all PosSt.final

/-- The body of a reply: the rows in request order, a failed one as zeros, then their statuses (09 R298). -/
def Gather.replyBody (g : Gather) (rowBytes : Nat) : List Byte :=
  (g.pos.flatMap fun p => match p with | .row _ bytes => bytes | _ => List.replicate rowBytes 0) ++
    g.pos.map fun p => BitVec.ofNat 8 (match p with | .bad st _ => st.code | _ => 0)

/-- Answer a served segment with its reply; the LAST one ends the exchange and its pin. -/
def State.answerSeg (s : State) (w : Nat) (g : Gather) (x : ServedSeg) : State :=
  let body := g.replyBody x.rowBytes
  let ws := xchgHeader x.xid s.fab.chip 1 x.last x.part g.pos.length x.epoch x.key x.status x.rowBytes x.no ++
    bytesWords ((body.length + 7) / 8) body
  ((s.sendFrames x.chip x.xid ws).adjMarshal fun m =>
    { m with gathers := Tbl.erase m.gathers w,
             served := if x.last then m.served.filter fun y => !(y.chip == x.chip && y.xid == x.xid) else m.served }).dropTables

/-- The earliest segment that this chip serves. -/
def State.firstServed (s : State) : Option (Nat × Gather) :=
  minBy (fun (e : Nat × Gather) => e.1) (s.marshal.gathers.filter fun e => e.2.serves.isSome)

/-- Answer up to `n` served segments, in the order of arrival, as far as their rows are there. -/
def State.answerFrom : Nat → State → State
  | 0, s => s
  | n + 1, s => match s.firstServed with
    | none => s
    | some (w, g) => match g.serves with
      | none => s
      | some x => if g.served then State.answerFrom n (s.answerSeg w g x) else s

/-- Answer the served segments that can be answered (09 R297).
Mark: DEDUCED (notes/assumptions/65.md). -/
def State.answerServed (s : State) : State := State.answerFrom s.marshal.gathers.length s

/-- GX endpoints of unfenced cores (08 R237).
Mark: DEDUCED (notes/assumptions/40.md). -/
def State.gxLeft (s : State) : List Nat := ((List.range 128).filter fun c => !s.isFenced c).map fun c => 4 * c + 2

/-- The end of a gather segment, in step 1: `n` sectors were done; one that the report names failed; the others
are issued again. A failure at an address of an output is that of a write, and what it did not write stays as it was.
Each GATHER concerned that has come to its end completes. -/
def State.gatherSegEnd (s : State) (no n : Nat) (fails : Option Res) : State :=
  match Tbl.get? s.marshal.segs no with
  | none => s
  | some g =>
    let at_ := match fails with | some r => r.addr.getD 0 / 64 * 64 | none => 0
    let users := dedupNat (g.users.map fun u => u.1)
    let s1 := s.adjMarshal fun m => { m with segs := Tbl.erase m.segs no }
    let rest := g.sectors.drop n
    let bad : List (Nat × List (Nat × Nat)) :=
      match fails with
      | some r => if r.st = .memDetected then rest.filter fun x => x.1 == at_ else []
      | none => []
    let owner : Option Nat := match fails with
      | some r => if bad = [] then users.find? fun w => (match s.work? w with
          | some x => s.inOut x (r.addr.getD 0)
          | none => false) else none
      | none => none
    let kept := if owner.isSome then s.readBytes at_ 64 else []
    let s2 := foldS ((g.sectors.take n).flatMap fun x => x.2) (fun s u => s.deliver u) s1
    let s3 := foldS (bad.flatMap fun x => x.2) (fun s u => s.loseSector u) s2
    let s3 := match owner, fails with | some w, some r => s3.loseOut w r | _, _ => s3
    let alive := (rest.filter fun x => !bad.contains x).map fun x =>
      (x.1, x.2.filter fun u => match s3.gather? u.1 with | some _ => true | none => false)
    let s4 := s3.queueSegs s.tick (alive.filter fun x => x.2 != [])
    let s5 := foldS users (fun s w =>
      match s.work? w with
      | none => s
      | some x => match x.abort with
        | some a => if s.segRuns w then s else s.finish w (Res.of a.st a.detail)
        | none => if s.segRuns w then s else match s.gatherEnd w false with
          | some (r, s') => s'.finish w r
          | none => s) s4
    let s6 := s5.answerServed
    match fails with
    | some r => if owner.isSome ∧ r.st = .memDetected then s6.storeBytes at_ kept else s6
    | none => s6

/-- No GX endpoint of an unfenced core is left: GATHERs with sectors to fetch issue nothing further, and end once
their running segments have (08 R237). The rows of another chip's request that wait for one have that status.
Mark: DEDUCED (notes/assumptions/65.md). -/
def State.noGx (s : State) : State :=
  if s.gxLeft ≠ [] then s
  else
    let running := s.runningGathers
    let lost := (s.marshal.segs.filter fun e => !running.contains e.1).flatMap fun e => e.2.users
    let s1 := s.adjMarshal fun m => { m with segs := m.segs.filter fun e => running.contains e.1 }
    let s2 := foldS lost (fun s u => if (s.work? u.1).isSome then s else s.setPos u.1 u.2 (.bad .coreFenced 0x02E4)) s1
    (foldS (dedupNat (lost.map fun u => u.1)) (fun s w =>
      let s' := s.adjGather w fun g => { g with noEndpoint := true }
      if s'.segRuns w then s' else s'.settleGather w) s2).answerServed

/-- The GATHER that a segment's work is counted for: one of those that it serves, none where all are of other chips (15 R422).
Mark: DESIGN CHOICE (notes/assumptions/39.md). -/
def State.gatherTag (s : State) (g : GatherSeg) : Option Work × State :=
  let xs := (dedupNat (g.users.map fun u => u.1)).filterMap s.work?
  if xs = [] then (none, s) else s.takeOne xs

/-- Dispatch waiting gather segments to idle GX endpoints, in order; which endpoint is free (08 R237).
Mark: DEDUCED (notes/assumptions/40.md). -/
def State.dispatchGathers (s : State) : State :=
  let s0 := s.noGx
  foldS ((s0.marshal.segs.filter fun e => !s0.runningGathers.contains e.1 && decide (e.2.since ≤ s.tick)).map fun e => e.1)
    (fun s no =>
      let idle := s.gxLeft.filter fun e => !s.isHeld e && s.canTake e && !s.gateClosed e
      match Tbl.get? s.marshal.segs no, idle with
      | some g, _ :: _ =>
        let (e, s1) := s.takeOne idle
        let ep := e.getD 0
        let segNs := s.cfg.segMaxUs * 1000
        let (y, s2) := s1.gatherTag g
        let (p, ring, seq) := match y with | some y => (some y.part, y.ringNo, y.seq) | none => (none, 0, 0)
        (s2.adjEp ep fun x =>
          { x with seg := some { owner := .gather no, first := 0, count := g.sectors.length, from_ := s.tick + 1,
                                 begun := none, segNs := segNs, watched := none, ran := 0, part := p, ring := ring, seq := seq }
                   abort := none, abortAt := none }).send (.dispatch ep 0 0 no 0 g.sectors.length)
      | _, _ => s) s0

/-! ### The reorder window (08 R239) and the sketch (08 R242) -/

/-- The end of a 4,096-tick interval: w is adapted if it held GATHER traffic and FIXED is clear, and the sketch clears. The mean
ticks from resolution to arrival at GX are a free value: the arrival is not a message to Mahorn.
Mark: DESIGN CHOICE (notes/assumptions/63.md). -/
def State.adjustWindow (s : State) (eff : Nat) : State :=
  if s.sinceReset / 64 < s.marshal.interval + 4096 then s
  else
    let (j, s1) := s.takeFree
    s1.adjMarshal fun m =>
      let m1 := { m with interval := m.interval + (s.sinceReset / 64 - m.interval) / 4096 * 4096, sketch := [],
                         traffic := m.gathers.any fun g => g.2.serves.isNone,
                         eff := eff % 2 ^ 16 }
      if !m.traffic || m.fixed then m1
      else
        let worse := match m.jPrev with | some p => decide (p * 101 < j * 100) | none => false
        let up := if worse then !m.up else m.up
        { m1 with up := up, jPrev := some j, w := if up then min 8 (m.w + 1) else max 1 (m.w - 1), reorderWarm := true }

/-! ### Exchanges (08 R256; 09 R297, R299, R300) -/

/-- A row that another chip asks for is resolved under R233: it misses into this chip's own batch, or has a status at once
(08 R256). -/
def State.serveRow (s : State) (w i u : Nat) (t : Table) (epoch row : Nat) : State :=
  if t.lrows ≤ row then s.setPos w i (.bad .malformed 0)
  else if s.mapBad u row then (s.mapError t row).setPos w i (.bad .memDetected 0)
  else
    let (slot, s1) := s.resolveSlot u t row epoch
    let (hit, admitted, s2) := s1.useRowLine u t slot
    if hit then s2.setPos w i (.row u (s2.readLoc (t.slotLoc slot) t.rowBytes)) else s2.missRow w i u t slot admitted

/-- The table of a TABLE_KEY on this chip. -/
def State.tableOfKey (s : State) (key : Nat) : Option (Nat × Table) :=
  s.liveTables.find? fun e => e.2.key == key && decide (key ≠ 0)

/-- The table that a request segment reads, where all its rows are to be resolved, or the status of every row (08 R256). -/
def State.serveTable (s : State) (epoch key : Nat) (rows : List Nat) : Option (Nat × Table) × Nat :=
  if rows = [] then (none, 0)
  else match s.tableOfKey key with
  | none => (none, Status.access.code)
  | some (u, t) =>
    if t.state ≠ .ready then (none, Status.access.code)
    else if epoch ≠ s.epoch ∧ s.cop.prev ≠ some epoch then (none, Status.epochExpired.code)
    else (some (u, t), 0)

/-- A request segment arrives: segment 0 opens an exchange, with a pin on the requester's epoch that it keeps until the LAST
reply is sent; another is of an exchange that this chip holds, or is discarded. Its rows are resolved in this chip's own
batches, and the reply goes out once they are there.
Mark: DEDUCED (notes/assumptions/65.md). -/
def State.serve (s : State) (chip xid part epoch key no : Nat) (rows : List Nat) (last : Bool) : State :=
  let held := s.marshal.served.any fun x => x.chip == chip && x.xid == xid
  if !held && no != 0 then s
  else
    let (tb, status) := s.serveTable epoch key rows
    let rb := match s.tableOfKey key with | some (_, t) => t.rowBytes | none => 0
    let w := s.nextWork
    let g : Gather :=
      { tables := (match tb with | some (u, _) => [(0, u)] | none => []), bags := [], pos := rows.map fun _ =>
          if status = 0 then .unresolved else .bad (Status.ofCode status) 0
        peers := [], allPeers := [], xid := xid, lastSent := none, segNo := [], noEndpoint := false, lost := none
        serves := some { chip := chip, xid := xid, part := part, epoch := epoch, key := key, no := no, last := last,
                         status := status, rowBytes := if rows = [] then 0 else rb } }
    let s1 := ({ s with nextWork := w + 1 } : State).adjMarshal fun m =>
      { m with gathers := Tbl.set m.gathers w g,
               served := if held then m.served else m.served ++ [{ chip := chip, xid := xid, epoch := epoch, part := part }] }
    let s2 := match tb with
      | some (u, t) => foldS (List.range rows.length) (fun s i => s.serveRow w i u t epoch (rows.getD i 0)) s1
      | none => s1
    s2.answerServed

/-- The DETAIL of a status that a reply carries: a row of a table that the server does not hold has no ROW_BYTES (08 R256).
Mark: DEDUCED (notes/assumptions/64.md). -/
def remoteDetail (code rowBytes : Nat) : Nat :=
  if code = Status.epochExpired.code then 0x02AE
  else if code = Status.memDetected.code then 0x02E0
  else if code = Status.access.code then (if rowBytes = 0 then 0x0211 else 0x02A3)
  else if code = Status.malformed.code then 0x0212
  else 0

/-- A reply segment arrives and its rows and statuses reach their positions; a write of the output may be lost.
Mark: DEDUCED (notes/assumptions/64.md). -/
def State.applyReply (s : State) (chip xid rowBytes : Nat) (rows : List (List Byte)) (statuses : List Nat) (last : Bool)
    (lost : Lost) : State :=
  match s.marshal.asked.find? fun a => a.chip == chip && a.xid == xid with
  | none => s
  | some a =>
    let s1 := s.adjMarshal fun m => { m with asked := m.asked.erase a }
    match s1.work? a.work with
    | none => s1
    | some x =>
      let s2 := foldS (List.range a.pos.length) (fun s j =>
        let i := a.pos.getD j 0
        let code := statuses.getD j 0
        match s.gather? a.work with
        | none => s
        | some g => match g.pos.getD i .unresolved with
          | .remote _ u =>
            if code ≠ 0 then s.badPos a.work x i (Status.ofCode code) (remoteDetail code rowBytes)
            else s.goodPos a.work x i u (rows.getD j [])
          | _ => s) s1
      let s3 := if last && a.last then
          s2.adjGather a.work fun g => { g with peers := g.peers.filter fun c => c != chip } else s2
      let s4 := match lost with | some (why, a') => s3.loseOut a.work (ioRes why a') | none => s3
      if s4.segRuns a.work then s4 else s4.settleGather a.work

/-- COLLECTIVE CANCEL takes effect: the exchange is dropped with its pin, and what was being resolved for it. -/
def State.cancelServed (s : State) (chip xid : Nat) : State :=
  let ws := (s.marshal.gathers.filter fun e => match e.2.serves with
    | some x => x.chip == chip && x.xid == xid
    | none => false).map fun e => e.1
  let s1 := foldS ws (fun s w => s.leaveMarshal w 0 false) s
  (s1.adjMarshal fun m => { m with served := m.served.filter fun x => !(x.chip == chip && x.xid == xid) }).answerServed

/-- A request segment as its header and the bodies of its frames bring it: one whose DIR is not 0 is none.
Mark: DEDUCED (notes/assumptions/65.md). -/
def State.requestSegment (s : State) (chip xid part epoch key : Nat) (frames : List (List Word)) (mark : SegMark) : State :=
  if mark.dir ≠ 0 then s
  else s.serve chip xid part epoch key mark.no
    ((List.range mark.rows).map fun i => bitsOf (frames.flatten.getD i 0).toNat 0 40) mark.last

/-- A reply segment as its header and the bodies of its frames bring it: one whose DIR is not 1 is none.
Mark: DEDUCED (notes/assumptions/65.md). -/
def State.replySegment (s : State) (chip xid rowBytes : Nat) (frames : List (List Word)) (mark : SegMark) (lost : Lost) : State :=
  let body := wordBytes frames.flatten
  if mark.dir ≠ 1 then s
  else s.applyReply chip xid rowBytes ((List.range mark.rows).map fun i => (body.drop (i * rowBytes)).take rowBytes)
    ((List.range mark.rows).map fun i =>
      if mark.status ≠ 0 then mark.status else (body.getD (mark.rows * rowBytes + i) 0).toNat) mark.last lost

/-- XCHG_MS has passed without a LAST reply (09 R300). -/
def State.xchgOverdue (s : State) (xid : Nat) : State :=
  match s.marshal.gathers.find? fun e => e.2.xid == xid && e.2.peers != [] with
  | none => s
  | some (w, g) => match s.work? w, g.lastSent with
    | some x, some t =>
      if s.tick < t + s.marshal.xchgMs * 15625 then s
      else
        let s1 := foldS (List.range g.pos.length) (fun s i => match g.pos.getD i .unresolved with
          | .remote _ _ => s.badPos w x i .access 0x0228
          | _ => s) s
        let s2 := (s1.cancelXchg x.part g).adjMarshal fun m =>
          { m with overdue := satInc 16 m.overdue, asked := m.asked.filter fun a => a.work != w }
        let s3 := s2.adjGather w fun g => { g with peers := [], allPeers := [] }
        if s3.segRuns w then s3 else s3.settleGather w
    | _, _ => s

end Sys2Proof.Machine
end

