-- ==== Sys2Proof/Machine/Experts.lean ====
section
/-! DEFINITION. ROUTE and GROUPED_MM (04 R139, R140; 09 R275-R295): selection, capacity, the choice list and the
group table, and what a pass of the MX group walker writes. -/
namespace Sys2Proof.Machine

/-! ### ROUTE: checks and start (04 R139, 09 R275) -/

/-- NTOK. -/
def roTok (e : Cmd) : Nat := fld e 56 0 17
/-- NEXP. -/
def roExp (e : Cmd) : Nat := fld e 60 0 9
/-- K. -/
def roK (e : Cmd) : Nat := fld e 62 0 8
/-- CAPACITY. -/
def roCap (e : Cmd) : Nat := fld e 64 0 32
/-- SCORE_FMT is bf16. -/
def roBf16 (e : Cmd) : Bool := flag e 63 0
/-- RENORM. -/
def roRenorm (e : Cmd) : Bool := flag e 63 1
/-- The key of LAYER. -/
def roLayer (p : Nat) (e : Cmd) : Nat := pkey p (fld e 68 0 12)

/-- ROUTE: its checks. -/
def State.chkRoute (s : State) (x : Work) : Option Res :=
  let e := x.cmd
  firstOf [need (zeros e (mrefResv 8 ++ mrefResv 24 ++ mrefResv 40 ++
      [(58, 1, 7), (59, 0, 8), (61, 1, 7), (63, 2, 6), (69, 4, 4), (70, 0, 16), (72, 0, 64)])) (mal 0x0102),
    s.mrefA x.ck e 8, s.mrefA x.ck e 24, s.mrefA x.ck e 40,
    need (decide (1 ≤ roTok e ∧ roTok e ≤ 65536)) (mal 0x0104),
    need (decide (1 ≤ roExp e ∧ roExp e ≤ 256)) (mal 0x0104),
    need (decide (1 ≤ roK e ∧ roK e ≤ 8 ∧ roK e ≤ roExp e)) (mal 0x0104),
    need (decide (roCap e ≤ 65536)) (mal 0x0104),
    need (match s.layer? (roLayer x.part e) with | some l => l.nexp == roExp e | none => false) (acc 0x0220),
    s.mrefB x.ck e 8 (roTok e * roExp e * (if roBf16 e then 2 else 4)) 64,
    s.mrefB x.ck e 24 (32 * roExp e) 64, s.mrefB x.ck e 40 (8 * roK e * roTok e) 8,
    need (!mrefHost e 8 && !mrefHost e 24 && !mrefHost e 40) (acc 0x0223)]

/-- ROUTE starts: it copies the layer's bias and BIAS_GEN and waits for a unit. -/
def State.beginRoute (s : State) (w : Nat) (x : Work) : State :=
  let k := roLayer x.part x.cmd
  let l := match s.layer? k with | some l => (l.bias, l.gen) | none => ([], 0)
  let r : Routing := { layer := k, bias := l.1, gen := l.2, offered := [], spilled := [], residual := 0, nans := 0 }
  let s1 := s.adjPleach fun q => { q with routings := Tbl.set q.routings w r }
  (s1.hold w [s.mrefLoc x.ck x.cmd 8, s.mrefLoc x.ck x.cmd 24, s.mrefLoc x.ck x.cmd 40]).phase w .unitWait

/-! ### Selection, capacity, weights (09 R276-R279) -/

/-- A choice (09 R277-R280). -/
structure Choice where
  token : Nat
  expert : Nat
  rank : Nat
  accepted : Bool
  residual : Bool
  isNan : Bool
  weight : Nat
deriving DecidableEq, Repr

/-- The order of a biased score: NaN below every number. -/
def biasedKey (s b : Nat) : Nat :=
  match (rd32 s).add (rd32 b) with
  | .nan => 0
  | x => key32 (wr32 0 x)

/-- The experts of a token by biased score, highest first, equals by number; the first `k` of them. -/
def topK (k : Nat) (scores bias : List Nat) : List Nat :=
  let keyed := (List.range scores.length).map fun e => (e, biasedKey (scores.getD e 0) (bias.getD e 0))
  ((sortBy (fun a b => decide (b.2 ≤ a.2)) keyed).take k).map fun x => x.1

/-- What assignment carries from token to token. -/
structure Fill where
  fill : List Nat
  offered : List Nat
  spilled : List Nat
  residual : Nat
  nans : Nat
deriving DecidableEq, Repr

/-- Add 1 at a place. -/
def bump (l : List Nat) (i : Nat) : List Nat := l.set i (l.getD i 0 + 1)

/-- Offer a token to its chosen experts in rank order (09 R278). -/
def offer (cap t : Nat) (scores : List Nat) : Nat → List Nat → Fill → List Choice × Fill
  | _, [], f => ([], f)
  | r, e :: es, f =>
    let w := scores.getD e 0
    let c : Choice := { token := t, expert := e, rank := r, accepted := false, residual := false, isNan := false, weight := w }
    if isNan32 w then
      let (l, f') := offer cap t scores (r + 1) es { f with nans := f.nans + 1 }
      ({ c with isNan := true } :: l, f')
    else if cap = 0 ∨ f.fill.getD e 0 < cap then
      let (l, f') := offer cap t scores (r + 1) es { f with fill := bump f.fill e, offered := bump f.offered e }
      ({ c with accepted := true } :: l, f')
    else
      let (l, f') := offer cap t scores (r + 1) es { f with offered := bump f.offered e, spilled := bump f.spilled e }
      (c :: l, f')

/-- RENORM (09 R279): accepted weights are divided by their fp32 sum, unless it is zero, negative, infinite or
NaN. -/
def renorm (cs : List Choice) : List Choice :=
  match cs.filter fun c => c.accepted with
  | [] => cs
  | a :: l =>
    let sum := l.foldl (fun s c => add32 s c.weight) a.weight
    if isFin32 sum && !isZero32 sum && !neg32 sum then
      cs.map fun c => if c.accepted then { c with weight := div32 c.weight sum } else c
    else cs

/-- Route one token. -/
def routeToken (e : Cmd) (bias : List Nat) (t : Nat) (scores : List Nat) (f : Fill) : List Choice × Fill :=
  let (cs, f1) := offer (roCap e) t scores 0 (topK (roK e) scores bias) f
  if cs.any fun c => c.accepted then (if roRenorm e then renorm cs else cs, f1)
  else (cs.map fun c => { c with residual := true }, { f1 with residual := f1.residual + 1 })

/-- Route tokens in order. -/
def routeAll (e : Cmd) (bias : List Nat) : Nat → List (List Nat) → Fill → List Choice × Fill
  | _, [], f => ([], f)
  | t, sc :: rest, f =>
    let (cs, f1) := routeToken e bias t sc f
    let (l, f2) := routeAll e bias (t + 1) rest f1
    (cs ++ l, f2)

/-- The scores of a ROUTE as fp32, one list a token (09 R276). -/
def State.scoresOf (s : State) (x : Work) : List (List Nat) :=
  let e := x.cmd
  let n := if roBf16 e then 2 else 4
  let loc := x.locs.getD 0 (.dev 0 0)
  (List.range (roTok e)).map fun t => (List.range (roExp e)).map fun i =>
    let v := leNat (s.readLoc (loc.plus ((t * roExp e + i) * n)) n)
    if roBf16 e then v * 2 ^ 16 else v

/-! ### The choice list and the group table (09 R280, R281) -/

/-- The 8 bytes of a choice. -/
def Choice.bytes (c : Choice) : List Byte :=
  leBytes 8 (c.token % 2 ^ 16 + 2 ^ 16 * c.expert + 2 ^ 24 * c.rank + 2 ^ 27 * natOfBool c.accepted +
    2 ^ 28 * natOfBool c.residual + 2 ^ 29 * natOfBool c.isNan + 2 ^ 32 * c.weight)

/-- The choice list: accepted entries by expert and token, then the others by token and rank. -/
def choiceList (cs : List Choice) : List Choice :=
  sortBy (fun a b => lexLe [a.expert, a.token] [b.expert, b.token]) (cs.filter fun c => c.accepted) ++
    sortBy (fun a b => lexLe [a.token, a.rank] [b.token, b.rank]) (cs.filter fun c => !c.accepted)

/-- The group table; LIST is the ROUTE's CHOICE field. -/
def groupTable (e : Cmd) (f : Fill) : List Byte :=
  (List.range (roExp e)).flatMap fun i =>
    leBytes 4 (f.fill.getD i 0) ++ leBytes 4 (sumNat (f.fill.take i)) ++ leBytes 4 (f.offered.getD i 0) ++
      leBytes 4 (f.spilled.getD i 0) ++ ((wordBytes e).drop 40).take 16

/-- ROUTEs that run on a unit. -/
def State.unitsBusy (s : State) : Nat :=
  (s.works.filter fun e => match e.2.phase with | .unitRun _ => true | _ => false).length

/-- The ROUTE whose turn it is (09 R275): the earliest start, then the lower chip-wide ring. -/
def State.nextRoute (s : State) : Option Nat :=
  ((sortBy (fun a b => lexLe [a.2.started, a.2.ringNo] [b.2.started, b.2.ringNo])
    (s.works.filter fun e => e.2.phase == .unitWait)).head?).map fun e => e.1

/-- A waiting ROUTE takes a free unit, which reads SCORES twice (09 R282). -/
def State.grantRoute (s : State) (w : Nat) : State :=
  match s.work? w with
  | some x =>
    if s.nextRoute ≠ some w ∨ Config.routeUnits ≤ s.unitsBusy ∨ x.abort.isSome then s
    else
      let scores := fun (s : State) =>
        s.issueRead x.ck 6 (x.locs.getD 0 (.dev 0 0)) (roTok x.cmd * roExp x.cmd * (if roBf16 x.cmd then 2 else 4))
      (scores (scores s)).phase w (.unitRun s.tick)
  | none => s

/-- The two passes of a ROUTE have run, or a read or write of theirs failed: both areas are written, and the ROUTE
completes at the boundary that follows. -/
def State.runRoute (s : State) (w : Nat) (io : Io) : State :=
  match s.work? w, Tbl.get? s.pleach.routings w with
  | some x, some r =>
    match io with
    | .fail why a => s.decideEnd w (ioRes why a)
    | .ok _ =>
      let n := roExp x.cmd
      let zero := List.replicate n 0
      let f0 : Fill := { fill := zero, offered := zero, spilled := zero, residual := 0, nans := 0 }
      let (cs, f) := routeAll x.cmd r.bias 0 (s.scoresOf x) f0
      let s1 := s.portWrite 6 (x.locs.getD 2 (.dev 0 0)) ((choiceList cs).flatMap Choice.bytes)
      let s2 := s1.portWrite 6 (x.locs.getD 1 (.dev 0 0)) (groupTable x.cmd f)
      let r' : Routing := { r with offered := f.offered, spilled := f.spilled, residual := f.residual, nans := f.nans }
      ((s2.adjPleach fun q => { q with routings := Tbl.set q.routings w r' }).event 803 0x07 none (roTok x.cmd)
        (sumNat f.spilled) r.gen).decideEnd w Res.ok
  | _, _ => s

/-! ### GROUPED_MM: checks and start (04 R140, 09 R288) -/

/-- Bytes of an element of FORMAT. -/
def mmSize (e : Cmd) : Nat := if fld e 118 0 8 ≤ 2 then 1 else 2
/-- NEXP. -/
def mmExp (e : Cmd) : Nat := fld e 112 0 9
/-- D_IN. -/
def mmIn (e : Cmd) : Nat := fld e 114 0 16
/-- D_OUT. -/
def mmOut (e : Cmd) : Nat := fld e 116 0 16
/-- NROWS. -/
def mmRows (e : Cmd) : Nat := fld e 120 0 32
/-- WSTRIDE. -/
def mmStride (e : Cmd) : Nat := fld e 104 0 64
/-- ACCUM. -/
def mmAccum (e : Cmd) : Bool := flag e 119 0

/-- D_IN and D_OUT. -/
def dimOk (n : Nat) : Bool := decide (16 ≤ n ∧ n ≤ 65520) && n % 16 == 0

/-- GROUPED_MM: its checks. -/
def State.chkGroupedMm (s : State) (x : Work) : Option Res :=
  let e := x.cmd
  firstOf ([need (zeros e (tgtResv e ++ mrefResv 40 ++ mrefResv 56 ++ mrefResv 72 ++ mrefResv 88 ++
      [(113, 1, 7), (119, 1, 7), (124, 0, 32)])) (mal 0x0102)] ++ s.tgtChk e ++
    [need (tgtEngine e == 0) (mal 0x0221), s.mrefA x.ck e 40, s.mrefA x.ck e 56, s.mrefA x.ck e 72, s.mrefA x.ck e 88,
     need (mmStride e % 64 == 0 && decide (mmIn e * mmOut e * mmSize e ≤ mmStride e)) (mal 0x0104),
     need (decide (1 ≤ mmExp e ∧ mmExp e ≤ 256)) (mal 0x0104), need (dimOk (mmIn e)) (mal 0x0104),
     need (dimOk (mmOut e)) (mal 0x0104), need (decide (fld e 118 0 8 ≤ 4)) (mal 0x0104),
     need (decide (1 ≤ mmRows e ∧ mmRows e ≤ 524288)) (mal 0x0104),
     s.mrefB x.ck e 40 (32 * mmExp e) 64, s.mrefB x.ck e 56 (mmStride e * mmExp e) 64,
     s.mrefB x.ck e 72 (mmRows e * mmIn e * mmSize e) 64, s.mrefB x.ck e 88 (mmRows e * mmOut e * 4) 64])

/-- GROUPED_MM starts: its instances are placed (04 R115) and the group table is read. -/
def State.beginGroupedMm (s : State) (w : Nat) (x : Work) : State :=
  let e := x.cmd
  let s1 := s.hold w [s.mrefLoc x.ck e 40, s.mrefLoc x.ck e 56, s.mrefLoc x.ck e 72, s.mrefLoc x.ck e 88]
  let s2 := s1.adjWork w fun x => { x with insts := s.makeInsts (s.placement e) fun _ => 1 }
  (s2.issueRead x.ck 6 (s.mrefLoc x.ck e 40) (32 * mmExp e)).phase w (.io .groups s.tick)

/-- ROWS of a group table entry. -/
def groupRows (g : List Byte) : Nat := leNat (g.take 4)
/-- FIRST of a group table entry. -/
def groupFirst (g : List Byte) : Nat := leNat ((g.drop 4).take 4)

/-- The column blocks of instance `i` of `m`, ascending (09 R288). -/
def mmBlocks (e : Cmd) (m i : Nat) : List Nat := (List.range (mmOut e / 16)).filter fun c => c % m == i

/-- The passes of a list of column blocks: block, expert, chunk. -/
def passes (groups : List (List Byte)) (blocks : List Nat) : List (Nat × Nat × Nat) :=
  blocks.flatMap fun c => (List.range groups.length).flatMap fun e =>
    (List.range (ceilDiv (groupRows (groups.getD e [])) 256)).map fun k => (c, e, k)

/-- The pass that an item of instance `i` of `m` is; none for the item that zeroes its blocks. -/
def mmPass (e : Cmd) (groups : List (List Byte)) (m i item : Nat) : Option (Nat × Nat × Nat) :=
  if mmAccum e = false ∧ item = 0 then none
  else (passes groups (mmBlocks e m i))[if mmAccum e then item else item - 1]?

/-- Items of an instance. -/
def mmItems (e : Cmd) (groups : List (List Byte)) (m i : Nat) : Nat :=
  let b := mmBlocks e m i
  if b = [] then 0 else (if mmAccum e then 0 else 1) + (passes groups b).length

/-- The groups of a table of group entries. -/
def groupsOf (n : Nat) (bytes : List Byte) : List (List Byte) := (List.range n).map fun i => (bytes.drop (32 * i)).take 32

/-- The group table has been read: the items of the instances are known (09 R288, R291). -/
def State.groupsRead (s : State) (w : Nat) (x : Work) (host : List Word) : State :=
  let e := x.cmd
  let n := mmExp e
  let loc := x.locs.getD 0 (.dev 0 0)
  let bytes := if loc.isHost then wordBytes host else s.readLoc loc (32 * n)
  let groups := groupsOf n bytes
  let insts := x.insts.map fun (i : Inst) =>
    let n := mmItems e groups x.insts.length i.no
    { i with items := n, since := s.tick, ended := n == 0 }
  let skipped := (groups.filter fun g => groupRows g == 0).length
  let s1 := s.adjPleach fun q =>
    { q with grouped := Tbl.set q.grouped w groups, skips := (q.skips + skipped) % Config.two64 }
  if insts.all fun i => i.ended then s1.decideEnd w Res.ok
  else s1.adjWork w fun x => { x with phase := .running, segUs := s.cfg.segMaxUs, itemNs := 0, insts := insts }

/-- Does the group table of a GROUPED_MM that waits for it leave nothing to do: every group has ROWS of 0, with ACCUM set?
It then completes at the boundary after its start (09 R291). -/
def State.mmIdle (s : State) (x : Work) : Bool :=
  let loc := x.locs.getD 0 (.dev 0 0)
  opcodeOf x.cmd == 0x05 && mmAccum x.cmd && !loc.isHost &&
    (groupsOf (mmExp x.cmd) (s.readLoc loc (32 * mmExp x.cmd))).all fun g => groupRows g == 0

/-- May the group table of a GROUPED_MM with ACCUM in host memory leave nothing to do?
Mark: DEDUCED (notes/assumptions/168.md). -/
def Work.mmHost (x : Work) : Bool := opcodeOf x.cmd == 0x05 && mmAccum x.cmd && (x.locs.getD 0 (.dev 0 0)).isHost

/-- Host bytes that say so: a command to which they came has completed at the boundary after its start. -/
def Work.mmNone (x : Work) (io : Io) : Bool :=
  match io with
  | .ok host => x.mmHost && (groupsOf (mmExp x.cmd) (wordBytes host)).all fun g => groupRows g == 0
  | .fail _ _ => false

/-! ### Operands in host memory (04 R110) -/

/-- Bytes at a place of an operand: host memory holds what the command wrote there, and free values otherwise.
Mark: DESIGN CHOICE (notes/assumptions/70, 147.md). -/
def State.peek (s : State) (w ck : Nat) (l : Loc) (n : Nat) : List Byte :=
  match l with
  | .dev _ _ => s.readLoc l n
  | .host a =>
    let own := Tbl.getD s.pleach.outs w []
    (List.range n).map fun i => match Tbl.get? own (a + i) with | some b => b | none => Config.hostByte ck s.tick (a + i)

/-- Write bytes of OUT.
Mark: DESIGN CHOICE (notes/assumptions/70.md). -/
def State.poke (s : State) (w ck : Nat) (l : Loc) (bs : List Byte) : State :=
  match l with
  | .dev _ _ => s.storeLoc l bs
  | .host a =>
    let own := (List.range bs.length).foldl (fun (t : Tbl Byte) i => Tbl.set t (a + i) (bs.getD i 0)) (Tbl.getD s.pleach.outs w [])
    (s.adjPleach fun q => { q with outs := Tbl.set q.outs w own }).writeLoc ck l bs

/-! ### A pass (09 R289, R290, R292) -/

/-- The LIST of a group as a place in the command's context, and the checks of R110 on it. -/
def State.listChk (s : State) (x : Work) (g : List Byte) : Option Res :=
  let e := bytesWords 4 g
  firstOf [need (zeros e (mrefResv 16)) (mal 0x0102), s.mrefA x.ck e 16,
    s.mrefB x.ck e 16 (8 * (groupFirst g + groupRows g)) 8]

/-- An element of FORMAT as a value: 1 e4m3, 2 e5m2, 3 bf16, 4 fp16. -/
def mmElem (fmt v : Nat) : Fp :=
  match fmt with
  | 1 => rdE4m3 v
  | 2 => rdE5m2 v
  | 3 => rdBf16 v
  | _ => rdFp16 v

/-- y(j) of R289: element (t, k) of ACT times element (k, j) of the weights, over ascending k.
Mark: DEDUCED (notes/assumptions/67.md). -/
def State.dot (s : State) (w : Nat) (x : Work) (t ex j : Nat) : Nat :=
  let e := x.cmd
  let n := mmSize e
  let fmt := fld e 118 0 8
  let act := (x.locs.getD 2 (.dev 0 0)).plus (t * mmIn e * n)
  let wts := (x.locs.getD 1 (.dev 0 0)).plus (ex * mmStride e)
  let at_ := fun (k : Nat) =>
    (leNat (s.peek w x.ck (act.plus (k * n)) n), leNat (s.peek w x.ck (wts.plus ((k * mmOut e + j) * n)) n))
  if fmt = 0 then
    (List.range (mmIn e)).foldl (fun a k =>
      (((a : Int) + signedOf 8 (at_ k).1 * signedOf 8 (at_ k).2) % 2 ^ 32).toNat) 0
  else
    let p := fun (k : Nat) => prod32 (mmElem fmt (at_ k).1) (mmElem fmt (at_ k).2) (at_ k).1 (at_ k).2
    (List.range' 1 (mmIn e - 1)).foldl (fun a k => add32 a (p k)) (p 0)

/-- The place of an element of OUT. -/
def Work.mmPlace (x : Work) (t j : Nat) : Loc := (x.locs.getD 3 (.dev 0 0)).plus ((t * mmOut x.cmd + j) * 4)

/-- The write step for one element. -/
def State.mmWrite (s : State) (w : Nat) (x : Work) (weight t ex j : Nat) : State :=
  let y := s.dot w x t ex j
  let old := leNat (s.peek w x.ck (x.mmPlace t j) 4)
  let new := if fld x.cmd 118 0 8 = 0 then (old + y) % 2 ^ 32 else add32 old (mul32 weight y)
  s.poke w x.ck (x.mmPlace t j) (leBytes 4 new)

/-- Entry `i` of a choice list. -/
def State.choiceAt (s : State) (w ck : Nat) (l : Loc) (i : Nat) : Nat := leNat (s.peek w ck (l.plus (8 * i)) 8)

/-- The checks of R292 on the entries of a chunk: `prev` is the token before.
Mark: DEDUCED (notes/assumptions/71.md). -/
def entriesChk (nrows ex : Nat) : Option Nat → List Nat → Option Res
  | _, [] => none
  | prev, v :: vs =>
    let t := v % 2 ^ 16
    if nrows ≤ t then some (mal 0x0222)
    else if !bitOf v 27 || bitsOf v 16 8 != ex || (match prev with | some q => decide (t ≤ q) | none => false) then
      some (mal 0x0227)
    else entriesChk nrows ex (some t) vs

/-- The place of the choice list of group `ex`: resolved and pinned when the walker reaches the group.
Mark: DEDUCED (notes/assumptions/71.md). -/
def State.reachGroup (s : State) (w : Nat) (x : Work) (ex : Nat) (g : List Byte) : Option Res × Loc × State :=
  let known := match Tbl.get? s.pleach.lists w with | some t => t | none => []
  match Tbl.get? known ex with
  | some l => (none, l, s)
  | none => match s.listChk x g with
    | some r => (some r, .dev 0 0, s)
    | none =>
      let l := s.mrefLoc x.ck (bytesWords 4 g) 16
      let s1 := s.adjPleach fun q => { q with lists := Tbl.set q.lists w (Tbl.set known ex l) }
      (none, l, s1.adjWork w fun x => { x with pins := x.pins ++ locNums [l] })

/-- Run one item of an instance: item 0 without ACCUM zeroes its blocks, every other is a pass.
Mark: DEDUCED (notes/assumptions/71.md). -/
def State.mmItem (s : State) (w : Nat) (x : Work) (groups : List (List Byte)) (blocks : List Nat) (item : Nat) : Option Res × State :=
  let e := x.cmd
  if mmAccum e = false ∧ item = 0 then
    (none, foldS (List.range (mmRows e)) (fun s t => foldS blocks (fun s c =>
      s.poke w x.ck (x.mmPlace t (16 * c)) (List.replicate 64 0)) s) s)
  else match (passes groups blocks)[if mmAccum e then item else item - 1]? with
  | none => (none, s)
  | some (c, ex, k) =>
    let g := groups.getD ex []
    match s.reachGroup w x ex g with
    | (some r, _, s') => (some r, s')
    | (none, l, s) =>
      let lo := groupFirst g + 256 * k
      let vs := (List.range (min 256 (groupRows g - 256 * k))).map fun i => s.choiceAt w x.ck l (lo + i)
      let prev := if k = 0 then none else some (s.choiceAt w x.ck l (lo - 1) % 2 ^ 16)
      match entriesChk (mmRows e) ex prev vs with
      | some r => (some r, s)
      | none =>
        (none, foldS vs (fun s v => foldS (List.range 16) (fun s j =>
          s.mmWrite w x (v / 2 ^ 32) (v % 2 ^ 16) ex (16 * c + j)) s) s)

/-- Run items from `first`, `n` of them, until a check fails.
Mark: DESIGN CHOICE (notes/assumptions/70.md). -/
def State.mmItems (s : State) (w : Nat) (x : Work) (groups : List (List Byte)) (blocks : List Nat) : Nat → Nat → Option Res × State
  | 0, _ => (none, s)
  | n + 1, i =>
    match s.mmItem w x groups blocks i with
    | (some r, s1) => (some r, s1)
    | (none, s1) => State.mmItems s1 w x groups blocks n (i + 1)

/-- The walker reaches the group of an item of an instance, whose LIST is resolved and pinned (09 R292). A LIST that does not
resolve fails the segment when it is reported.
Mark: DEDUCED (notes/assumptions/71.md). -/
def State.mmReach (s : State) (w inst item : Nat) : State :=
  match s.work? w, Tbl.get? s.pleach.grouped w with
  | some x, some groups =>
    (match mmPass x.cmd groups x.insts.length inst item with
      | none => s
      | some (_, ex, _) => (s.reachGroup w x ex (groups.getD ex [])).2.2)
  | _, _ => s

/-- Multiply-accumulates of `n` items of an instance from `first` on, times 2 (15 R421). -/
def mmOps (e : Cmd) (groups : List (List Byte)) (m inst first n : Nat) : Nat :=
  sumNat ((List.range' first n).map fun item => match mmPass e groups m inst item with
    | none => 0
    | some (_, ex, k) => 2 * min 256 (groupRows (groups.getD ex []) - 256 * k) * 16 * mmIn e)

/-- The counter of those, under the format of the weights (15 R420, R421). -/
def mmCounter (e : Cmd) : Nat := [5, 3, 4, 1, 2].getD (fld e 118 0 8) 0

/-- The items that a segment of GROUPED_MM did: what they wrote, and the first failing check. -/
def State.mmSegment (s : State) (w : Nat) (x : Work) (inst first n : Nat) : Option Res × State :=
  match Tbl.get? s.pleach.grouped w with
  | none => (none, s)
  | some groups =>
    s.mmItems w x groups (mmBlocks x.cmd x.insts.length inst) n first

end Sys2Proof.Machine
end

