-- ==== Sys2Proof/Machine/SvcTable.lean ====
section
/-! DEFINITION. The service table (10 R303-R310): its areas as bytes, the checks of steps 1 and 4, and the entries
read from it. -/
namespace Sys2Proof.Machine

/-- The number that `n` bytes of a table spell. -/
def tn (t : List Host.Cell) (o n : Nat) : Nat := leNat ((List.range n).map fun i => Mem.get t (o + i))

/-- Are `n` bytes of a table zero? -/
def tz (t : List Host.Cell) (o n : Nat) : Bool := (List.range n).all fun i => Mem.get t (o + i) == 0

/-- NLISTEN. -/
def tblListen (t : List Host.Cell) : Nat := tn t 6 1
/-- NMODEL. -/
def tblModel (t : List Host.Cell) : Nat := tn t 8 2
/-- NSTART. -/
def tblStart (t : List Host.Cell) : Nat := tn t 10 2
/-- Offset of listener `i`. -/
def offListen (i : Nat) : Nat := 320 + 64 * i
/-- Offset of model `i`. -/
def offModel (t : List Host.Cell) (i : Nat) : Nat := 320 + 64 * tblListen t + 128 * i
/-- Offset of start entry `i`. -/
def offStart (t : List Host.Cell) (i : Nat) : Nat := offModel t (tblModel t) + 128 * i

/-- The header (10 R304). A table in the staging area has no start list and no blob (10 R327). -/
def headerLegal (t : List Host.Cell) (staged : Bool) : Bool :=
  let len := tn t 12 4
  let off := tn t 24 4
  let n := tn t 28 4
  tn t 0 4 == 0x53564354 && tn t 4 2 == 1 && decide (tblListen t ≤ 16) && tz t 7 1 && decide (tblModel t ≤ 256) &&
    decide (tblStart t ≤ 1024) && decide (len ≤ 8388608) && decide (offStart t (tblStart t) ≤ len) &&
    (if n = 0 then off == 0
     else off % 64 == 0 && decide (offStart t (tblStart t) ≤ off) && decide (off + n ≤ len)) &&
    tn t 32 4 / 2 ^ 20 == 0 && tz t 36 28 && (!staged || (tblStart t == 0 && n == 0))

/-- The CRC over LENGTH bytes, bytes 16 to 19 taken as zero. -/
def tableCrcOk (t : List Host.Cell) : Bool :=
  let bs := (List.range (tn t 12 4)).map fun i => if 16 ≤ i ∧ i < 20 then (0 : Byte) else Mem.get t i
  (crc32 bs).toNat == tn t 16 4

/-- A class entry is legal (10 R305). -/
def classLegal (t : List Host.Cell) (c : Nat) : Bool :=
  let o := 64 + 16 * c
  decide (1 ≤ tn t o 4 ∧ tn t o 4 ≤ 1000000) && decide (tn t (o + 4) 4 ≤ tn t o 4) && tn t (o + 8) 1 / 8 == 0 &&
    tz t (o + 9) 7

/-- A class entry. -/
def readClass (t : List Host.Cell) (c : Nat) : SvcClass :=
  let o := 64 + 16 * c
  { deadlineUs := tn t o 4, guardUs := tn t (o + 4) 4, shed := bitsOf (tn t (o + 8) 1) 0 2, lateOk := bitOf (tn t (o + 8) 1) 2 }

/-- A listener entry, closed. -/
def readListener (t : List Host.Cell) (i : Nat) : Listener :=
  let o := offListen i
  let f := tn t (o + 32) 4
  { port := tn t o 1, part := tn t (o + 1) 1 % 128, ctx := tn t (o + 2) 2 % 4096, qpFirst := tn t (o + 4) 4 % 2 ^ 24,
    qpCount := tn t (o + 8) 4, pool := tn t (o + 12) 4, obj := 0, slots := tn t (o + 16) 4, slotBytes := tn t (o + 20) 4,
    msgMax := tn t (o + 24) 4, respOffset := tn t (o + 28) 4,
    openFence := if bitOf f 31 then none else some (f % 2 ^ 20), openValue := tn t (o + 40) 8, isOpen := false,
    closed := false, seq := 0, stock := [] }

/-- Do the queue pairs of two listeners of one port overlap? -/
def qpOverlap (a b : Listener) : Bool :=
  a.port == b.port && decide (a.qpFirst < b.qpFirst + b.qpCount) && decide (b.qpFirst < a.qpFirst + a.qpCount)

/-- The values of a listener entry that do not depend on objects are legal (10 R306). -/
def State.listenerLegal (s : State) (t : List Host.Cell) (i : Nat) : Bool :=
  let o := offListen i
  let l := readListener t i
  (if l.port = 0 then s.cfg.nic0 else l.port == 1 && s.cfg.nic1) && decide (tn t (o + 1) 1 < 128) &&
    decide (tn t (o + 2) 2 < 4096) && tz t (o + 7) 1 && decide (1 ≤ l.qpCount) &&
    ((List.range i).all fun j => !qpOverlap (readListener t j) l) && decide (1 ≤ l.slots ∧ l.slots ≤ 4096) &&
    l.slotBytes % 4096 == 0 && decide (65536 ≤ l.slotBytes) && decide (128 ≤ l.msgMax ∧ l.msgMax ≤ 1048576) &&
    l.msgMax % 64 == 0 && decide (l.msgMax ≤ l.respOffset) && l.respOffset % 64 == 0 &&
    decide (l.respOffset < l.slotBytes) && bitsOf (tn t (o + 32) 4) 20 11 == 0 && tz t (o + 36) 4 && tz t (o + 48) 16

/-- Template `j` of model `i`. -/
def readTemplate (t : List Host.Cell) (i j : Nat) : Template :=
  let o := offModel t i + 32 + 16 * j
  { node := tn t o 2 % 4096, off := tn t (o + 2) 2 % 4096, w64 := bitOf (tn t (o + 2) 2) 12, source := tn t (o + 4) 1,
    add := tn t (o + 8) 4 }

/-- A model entry. -/
def readModel (t : List Host.Cell) (i : Nat) : Model :=
  let o := offModel t i
  { id := tn t o 4, listener := tn t (o + 4) 1, graph := tn t (o + 6) 2 % 2 ^ 13, priorUs := tn t (o + 8) 4,
    maxCand := tn t (o + 12) 4, tpls := (List.range (tn t (o + 5) 1)).map (readTemplate t i) }

/-- A template is legal. -/
def templateLegal (t : List Host.Cell) (i j : Nat) : Bool :=
  let o := offModel t i + 32 + 16 * j
  if j < tn t (offModel t i + 5) 1 then
    decide (tn t o 2 < 4096) && decide (tn t (o + 2) 2 < 2 ^ 13) && decide (tn t (o + 4) 1 ≤ 4) && tz t (o + 5) 3 &&
      tz t (o + 12) 4
  else tz t o 16

/-- The values of a model entry that do not depend on objects are legal (10 R307). -/
def modelLegal (t : List Host.Cell) (i : Nat) : Bool :=
  let o := offModel t i
  let m := readModel t i
  let l := readListener t m.listener
  m.id != 0 && ((List.range i).all fun j => !((readModel t j).id == m.id && (readModel t j).listener == m.listener)) &&
    decide (m.listener < tblListen t) && decide (tn t (o + 5) 1 ≤ 6) && decide (tn t (o + 6) 2 < 2 ^ 13) &&
    decide (1 ≤ m.priorUs ∧ m.priorUs ≤ 1000000) && decide (1 ≤ m.maxCand ∧ m.maxCand ≤ 65536) &&
    decide (l.respOffset + 64 + 8 * m.maxCand ≤ l.slotBytes) && tz t (o + 16) 16 &&
    (List.range 6).all (templateLegal t i)

/-- The partition of a start entry. -/
def startPart (t : List Host.Cell) (i : Nat) : Nat := tn t (offStart t i) 1 % 128

/-- The command of a start entry. -/
def startCmd (t : List Host.Cell) (i : Nat) : Cmd :=
  let e := (List.range 14).map fun j => BitVec.ofNat 64 (tn t (offStart t i + 16 + 8 * j) 8)
  e.take (2 * lenOf e)

/-- A start entry is legal (10 R308). -/
def startLegal (t : List Host.Cell) (i : Nat) : Bool :=
  let o := offStart t i
  let len := tn t (o + 17) 1
  decide (tn t o 1 < 128) && tz t (o + 1) 15 &&
    [0xC0, 0xD0, 0xD2, 0xD3, 0xD8, 0xC8, 0xE0, 0xE8, 0xEA].contains (tn t (o + 16) 1) &&
    decide (1 ≤ len ∧ len ≤ 7) && tz t (o + 16 + 16 * len) (112 - 16 * len)

/-- The first of `n` entries that is not legal, under a code of R310. -/
def firstIllegal (code n : Nat) (ok : Nat → Bool) : Option (Nat × Nat) :=
  ((List.range n).find? fun i => !ok i).map fun i => (code, i)

/-- The first of some failures. -/
def orElseList : List (Option (Nat × Nat)) → Option (Nat × Nat)
  | [] => none
  | some x :: _ => some x
  | none :: l => orElseList l

/-- Step 1 of start (10 R309, R310): FAIL_STEP and FAIL_INDEX of the first failure. -/
def State.tableCheck (s : State) (t : List Host.Cell) (staged : Bool) : Option (Nat × Nat) :=
  if !headerLegal t staged then some (1, 0)
  else if !tableCrcOk t then some (2, 0)
  else orElseList [firstIllegal 3 16 (classLegal t), firstIllegal 4 (tblListen t) (s.listenerLegal t),
    firstIllegal 5 (tblModel t) (modelLegal t), firstIllegal 6 (tblStart t) (startLegal t)]

/-- The object that a listener's POOL names. -/
def State.poolOf (s : State) (l : Listener) : Option Nat := s.resolve (pkey l.part l.ctx) l.pool

/-- A listener's objects exist (10 R306, step 4). -/
def State.listenerObjects (s : State) (l : Listener) : Bool :=
  s.isUp l.part && (s.ctx? (pkey l.part l.ctx)).isSome &&
    (match s.poolOf l with
     | some o => (match s.obj? o with | some x => x.tier == 0 && decide (l.slots * l.slotBytes ≤ x.size) | none => false)
     | none => false) &&
    (match l.openFence with | some f => s.fenceLive l.part f | none => true)

/-- Step 4 of start: listeners, then models, against the objects that exist. -/
def State.objectCheck (s : State) (t : List Host.Cell) : Option (Nat × Nat) :=
  orElseList [firstIllegal 9 (tblListen t) (fun i => s.listenerObjects (readListener t i)),
    firstIllegal 10 (tblModel t) fun i =>
      let m := readModel t i
      (s.graphOf (readListener t m.listener).part m.graph).isSome]

/-- Hold a failure of start or activation. -/
def State.svcFail (s : State) (x : Nat × Nat) (status detail : Nat) : State :=
  s.adjSvc fun v => { v with failStep := x.1, failIndex := x.2, failStatus := status, failDetail := detail }

/-- The estimators of a table's models: those that exist are kept, new ones start from the first prior. -/
def State.newEsts (s : State) (ls : Tbl Listener) (ms : List Model) : Tbl Est :=
  ms.foldl (fun t m => match Tbl.get? ls m.listener with
    | none => t
    | some l =>
      let k := estKey l m
      if Tbl.has t k then t else Tbl.set t k (Tbl.getD s.svc.ests k { q := m.priorUs * 1000, n := 0 })) []

/-- The tables that a checked table defines take effect; every listener's receive queue is stocked. -/
def State.adoptTable (s : State) (t : List Host.Cell) : State :=
  let ls : Tbl Listener := (List.range (tblListen t)).map fun i =>
    let l := readListener t i
    (i, { l with obj := (match s.poolOf l with | some o => o | none => 0), stock := List.range l.slots })
  let ms := (List.range (tblModel t)).map (readModel t)
  s.adjSvc fun v =>
    { v with classes := (List.range 16).map (readClass t), listeners := ls, models := ms, ests := s.newEsts ls ms,
             tableGen := tn t 20 4 }

end Sys2Proof.Machine
end

