-- ==== Sys2Proof/Machine/Service.lean ====
section
/-! DEFINITION. Intake, admission, deadlines and responses of the request service (10 R311-R325). -/
namespace Sys2Proof.Machine

/-! ### Listeners (10 R311) -/

/-- Change a listener. -/
def State.adjListener (s : State) (l : Nat) (f : Listener → Listener) : State :=
  s.adjSvc fun v => { v with listeners := Tbl.adjust v.listeners l f }

/-- A listener opens once its fence has reached its value; its context takes a permanent resident slot (10 R311): at once
where one is free or can be had under 02 R61, else as a load that waits for one.
Mark: DESIGN CHOICE (notes/assumptions/153.md). -/
def State.openListener (s : State) (i : Nat) : State :=
  match Tbl.get? s.svc.listeners i with
  | none => s
  | some l =>
    let due := match l.openFence with
      | none => true
      | some f => let v := s.fenceView (pkey l.part f); !v.2 && decide (l.openValue ≤ v.1)
    if s.svc.st = 2 ∧ l.isOpen = false ∧ l.closed = false ∧ due = true then
      let ck := pkey l.part l.ctx
      (s.adjListener i fun l => { l with isOpen := true }).takeSlot ck
    else s

/-- Are two listener entries one listener: the same queue pairs, partition, context and pool? -/
def Listener.same (a b : Listener) : Bool :=
  a.port == b.port && a.part == b.part && a.ctx == b.ctx && a.qpFirst == b.qpFirst && a.qpCount == b.qpCount && a.obj == b.obj

/-- A slot returns to its listener's receive queue, where that listener is still served (10 R327). -/
def State.restock (s : State) (r : Request) : State :=
  match Tbl.get? s.svc.listeners r.lno with
  | none => s
  | some l =>
    if !l.same r.lst || l.closed || l.stock.contains r.slot || decide (l.slots ≤ r.slot) then s
    else (s.adjListener r.lno fun l => { l with stock := l.stock ++ [r.slot] }).send (.stock l.port r.lno r.slot)

/-- A request leaves without an answer. -/
def State.dropRequest (s : State) (q : Nat) : State := s.adjSvc fun v => { v with requests := Tbl.erase v.requests q }

/-! ### Intake (10 R312-R315) -/

/-- The listener that a port and queue pair belong to. -/
def State.listenerFor (s : State) (port qpn : Nat) : Option (Nat × Listener) :=
  s.svc.listeners.find? fun e =>
    e.2.port == port && decide (e.2.qpFirst ≤ qpn) && decide (qpn < e.2.qpFirst + e.2.qpCount)

/-- Take one receive descriptor: the header's read is issued. A queue pair of no listener is dropped.
Mark: DEDUCED (notes/assumptions/77.md). -/
def State.takeDesc (s : State) (d : RxDesc) : State :=
  match s.listenerFor d.nx d.qpn with
  | none => s
  | some (i, l) =>
    let q := s.svc.nextReq
    let r : Request :=
      { lno := i, lst := l, opts := s.svc.models.filter fun m => m.listener == i, model := none, slot := d.slot, bytes := d.bytes, qpn := d.qpn, rx := d.rx,
        arrival := d.arrival, cls := 0, ncand := 0, nresult := 0, reqId := 0, deadline := 0, num := 0, held := false,
        admitted := 0, epoch := 0, st := .reading }
    let s1 := (s.adjSvc fun v => { v with requests := Tbl.set v.requests q r, nextReq := q + 1 }).present 3 1
    (s1.adjList i fun c => { c with recv := (c.recv + 1) % Config.two64 }).adjListener i fun l =>
      { l with stock := l.stock.filter fun x => x != d.slot }

/-- Take the descriptors of a boundary, by ARRIVAL and then by engine. -/
def State.takeDescs (s : State) : State :=
  let ds := sortBy (fun a b => lexLe [a.arrival % 2 ^ 63, a.nx] [b.arrival % 2 ^ 63, b.nx]) s.svc.descs
  foldS ds State.takeDesc (s.adjSvc fun v => { v with descs := [] })

/-- Where a request's slot starts. -/
def Request.loc (r : Request) : Loc := .dev r.lst.obj (r.slot * r.lst.slotBytes)

/-- A field of a request's message. -/
def State.hdr (s : State) (r : Request) (o n : Nat) : Nat := leNat (s.readLoc (r.loc.plus o) n)

/-- The header is right and BYTES agrees with PAYLOAD_BYTES (10 R313, R314). -/
def State.hdrOk (s : State) (r : Request) : Bool :=
  s.hdr r 0 4 == 0x5152534D && s.hdr r 4 2 == 1 && s.hdr r 6 1 / 16 == 0 && s.hdr r 7 1 == 0 &&
    ((List.range 28).all fun i => s.hdr r (36 + i) 1 == 0) && 64 + s.hdr r 32 4 == r.bytes

/-- Requests that are held, of the partitions that `f` selects. -/
def State.heldBy (s : State) (f : Nat → Bool) : Nat :=
  (s.svc.requests.filter fun e => e.2.held && f e.2.lst.part).length

/-- Would the emergency level refuse a class (10 R316, R320)? -/
def State.shedNow (s : State) (c : Nat) : Bool :=
  let l := (s.svcClass c).shed
  decide (l ≠ 0) && decide (l ≤ s.pwr.level)

/-- Would a request be late by the estimate? -/
def State.lateNow (s : State) (r : Request) : Bool :=
  decide (r.deadline < s.tick * 64 + s.estimate r + (s.svcClass r.cls).guardUs * 1000)

/-- Clipper decides a request that passed every check (10 R316). -/
def State.clip (s : State) (q : Nat) (r : Request) : State :=
  if s.shedNow r.cls then s.refuse q .shed 0x02C3
  else if s.lateNow r then s.refuse q .shed 0x02C1
  else if 4096 ≤ s.heldBy fun _ => true then s.refuse q .shed 0x02C6
  else if (s.part r.lst.part).quota.requests ≤ s.heldBy fun p => p == r.lst.part then s.refuse q .shed 0x02C7
  else s.adjRequest q fun x => { x with held := true, st := .queued }

/-- The model with an id that a request's listener served when its descriptor was taken (10 R327). -/
def Request.modelFor (r : Request) (id : Nat) : Option Model := r.opts.find? fun m => m.id == id

/-- A request's header has been read: the checks of R314 in order, then SEQ and Clipper's decision. Where an activation has
dropped the listener meanwhile, the listener is not open (10 R327). -/
def State.parseHeader (s : State) (q : Nat) (r0 : Request) : State :=
  let cls := s.hdr r0 6 1 % 16
  let c := s.svcClass cls
  let us := if s.hdr r0 24 4 = 0 then c.deadlineUs else min (s.hdr r0 24 4) c.deadlineUs
  let ncand := s.hdr r0 12 4
  let nres := s.hdr r0 28 4
  let m := r0.modelFor (s.hdr r0 8 4)
  let r : Request :=
    { r0 with cls := cls, reqId := s.hdr r0 16 8, ncand := ncand, nresult := if nres = 0 then ncand else nres,
              model := m, deadline := r0.arrival % 2 ^ 63 + us * 1000 }
  let s1 := s.adjRequest q fun _ => r
  let open_ := match Tbl.get? s.svc.listeners r.lno with | some l => l.isOpen && !r.lst.closed | none => false
  if r.rx ≠ 0 then s1.refuse q .malformed 0x02C9
  else if !open_ then s1.refuse q .shed 0x02C5
  else if !s.hdrOk r then s1.refuse q .malformed 0x02C0
  else match m with
  | none => s1.refuse q .access 0x02C2
  | some m =>
    if ncand = 0 ∨ m.maxCand < ncand ∨ ncand < r.nresult then s1.refuse q .malformed 0x02CA
    else
      let n := (match Tbl.get? s.svc.listeners r.lno with | some l => l.seq | none => 0) + 1
      let s2 := (s1.adjListener r.lno fun l => { l with seq := n }).adjRequest q fun x => { x with num := n }
      s2.clip q { r with num := n }

/-- A request header arrives, or cannot be read.
Mark: DESIGN CHOICE (notes/assumptions/76.md). -/
def State.headerArrival (s : State) (q : Nat) (io : Io) : State :=
  match s.request? q with
  | none => s
  | some r =>
    if r.st ≠ .reading then s
    else match io with
    | .ok _ => s.parseHeader q r
    | .fail why a =>
      if r.rx ≠ 0 then
        ((s.adjList r.lno fun c => { c with malformed := satInc 32 c.malformed }).dropRequest q).restock r
      else
        -- the request's number is lost with the header: what the response returns is free
        let s1 : State := { s with free := s.free + 1 }
        let s2 := s1.adjRequest q fun x => { x with reqId := (Config.word s.free).toNat }
        (s2.faultSoon (pkey r.lst.part r.lst.ctx) (ioStatus why).code 0 a).refuse q (ioStatus why) (ioDetail why)

/-! ### Admission (10 R317) -/

/-- Refuse what can no longer finish in time or is shed. -/
def State.sweepQueue (s : State) : State :=
  foldS (s.svc.requests.filter fun e => e.2.st == .queued) (fun s e =>
    if s.shedNow e.2.cls then s.refuse e.1 .shed 0x02C3
    else if s.lateNow e.2 then s.refuse e.1 .shed 0x02C4 else s) s

/-- The value of a template for a request. -/
def Template.value (t : Template) (r : Request) : Nat :=
  (match t.source with
   | 0 => r.slot * r.lst.slotBytes
   | 1 => r.num
   | 2 => r.ncand
   | 3 => r.deadline
   | _ => r.reqId) + t.add

/-- The patch of a template. -/
def Template.patch (t : Template) (r : Request) : Patch :=
  { node := t.node, off := t.off, w64 := t.w64, val := BitVec.ofNat 64 (t.value r) }

/-- What a service launch would fail with at its start (10 R317; 05 R166; 04 R131). -/
def State.serviceChk (s : State) (r : Request) (m : Model) : Option Res :=
  match s.graphOf r.lst.part m.graph with
  | none => some (acc 0x0251)
  | some u => match s.graph? u with
    | none => some (acc 0x0251)
    | some g =>
      if g.state ≠ .ready then some (acc 0x0253)
      else firstOf ((m.tpls.map fun t => t.patch r).flatMap (patchChk (match g.genOf g.cur with | some y => y.bodies | none => [])))

/-- Slots that a request's launch needs. -/
def State.serviceSlots (s : State) (r : Request) (m : Model) : Nat :=
  match s.graphOf r.lst.part m.graph with
  | none => 1
  | some u => match s.graph? u with | some g => if g.state = .ready then 1 + g.window else 1 | none => 1

/-- Admit one request: its launch starts, pinning the generation and the current epoch.
Mark: DEDUCED (notes/assumptions/81.md). -/
def State.admitted (s0 : State) (q : Nat) (r : Request) (m : Model) : State :=
  let s := (s0.requestEvent q 0).adjRequest q fun x => { x with admitted := s0.tick * 64, epoch := s0.epoch }
  match s.serviceChk r m with
  | some x => s.answer q x 0 0xFFFF (s.tick + 1)
  | none => match s.graphOf r.lst.part m.graph with
    | none => s
    | some u =>
      let (l, s1) := s.newLaunch (.request q) r.lst.part r.lst.ctx u r.cls (16384 + r.lno) r.num 0 s.epoch 0
        (m.tpls.map fun t => t.patch r)
      s1.adjRequest q fun x => { x with st := .launched l (s.tick * 64) s.epoch }

/-- Take up to `n` requests in order; a request that cannot launch holds back its own partition. -/
def State.admitFrom (s : State) : Nat → List Nat → List (Nat × Request) → State
  | 0, _, _ => s
  | _, _, [] => s
  | n + 1, stuck, (q, r) :: rest =>
    match r.model with
    | none => State.admitFrom s (n + 1) stuck rest
    | some m =>
      if stuck.contains r.lst.part then State.admitFrom s (n + 1) stuck rest
      else if s.slotsFree r.lst.part (s.serviceSlots r m) then State.admitFrom (s.admitted q r m) n stuck rest
      else State.admitFrom s (n + 1) (r.lst.part :: stuck) rest

/-- Admission in a tick: at most 8, by CLASS and then by ARRIVAL. -/
def State.admission (s : State) : State :=
  let s1 := s.sweepQueue
  let queue := (s1.svc.requests.filter fun e => e.2.st == .queued)
  s1.admitFrom 8 [] (sortBy (fun a b => lexLe [a.2.cls, a.2.arrival % 2 ^ 63] [b.2.cls, b.2.arrival % 2 ^ 63]) queue)

/-- A deadline has passed (10 R319): the launch is aborted urgently, or runs on where the class is LATE_OK. -/
def State.requestDeadline (s : State) (q : Nat) : State :=
  match s.request? q with
  | none => s
  | some r => match r.st with
    | .launched l _ _ =>
      if s.tick * 64 < r.deadline ∨ (s.svcClass r.cls).lateOk = true then s
      else s.decideAbort (.launch l) .deadline 0x02C8 true
    | _ => s

/-- At TRIP every admitted request of a class with SHED_LEVEL 1 to 3 is aborted urgently (10 R320). -/
def State.tripRequests (s : State) : State :=
  foldS s.svc.requests (fun s e => match e.2.st with
    | .launched l _ _ =>
      if (s.svcClass e.2.cls).shed ≠ 0 then s.decideAbort (.launch l) .shed 0x02C3 true else s
    | _ => s) s

/-! ### Responses (10 R322, R323) -/

/-- The 64 bytes of a response header; the completion, or the boundary after the refusal, is tick `at_`.
Mark: DESIGN CHOICE (notes/assumptions/76.md). -/
def State.respHeader (s : State) (r : Request) (x : Res) (opcode node nret at_ : Nat) : List Byte :=
  let now := at_ * 64
  let late := decide (r.deadline < now) && r.admitted != 0
  leBytes 4 0x5052534D ++ leBytes 2 1 ++ leBytes 1 x.st.code ++ leBytes 1 opcode ++ leBytes 8 r.reqId ++
    leBytes 2 x.detail ++ leBytes 2 node ++ leBytes 4 nret ++ leBytes 8 r.arrival ++ leBytes 8 r.admitted ++
    leBytes 8 (now % 2 ^ 63) ++ leBytes 4 r.epoch ++ leBytes 4 s.svc.tableGen ++ leBytes 1 (natOfBool late) ++ leBytes 7 0

/-- Count a response on its listener and in its partition's window (10 R326). -/
def State.countResponse (s : State) (r : Request) (x : Res) (opcode node : Nat) : State :=
  let last := x.st.code + 2 ^ 8 * opcode + 2 ^ 16 * (x.detail % 2 ^ 16) + 2 ^ 32 * (node % 2 ^ 16)
  let s1 := s.adjList r.lno fun c => match x.st with
    | .done => { c with done := (c.done + 1) % Config.two64 }
    | .shed => { c with shed := (c.shed + 1) % Config.two64, lastFail := last }
    | .deadline => { c with deadline := satInc 32 c.deadline, lastFail := last }
    | .malformed => { c with malformed := satInc 32 c.malformed, lastFail := last }
    | _ => { c with failed := satInc 32 c.failed, lastFail := last }
  s1.adjCounts r.lst.part fun c => match x.st with
    | .done => { c with svcDone := satInc 32 c.svcDone }
    | .shed => { c with svcShed := satInc 32 c.svcShed }
    | .deadline => { c with svcDeadline := satInc 32 c.svcDeadline }
    | _ => { c with svcFailed := satInc 32 c.svcFailed }

/-- What a response owes in this tick: the header is written, or its transmit descriptor is posted. -/
def State.respond1 (s : State) (e : Nat × Request) : State :=
  let r := e.2
  let resp := r.loc.plus r.lst.respOffset
  match r.st with
  | .respond x opcode node at_ =>
    if s.tick < at_ then s
    else
      let nret := if x.st = .done then r.nresult else 0
      let s1 := s.portWrite 5 resp (s.respHeader r x opcode node nret at_)
      (s1.countResponse r x opcode node).adjRequest e.1 fun y => { y with st := .posting nret (s.tick + 1) }
  | .posting nret at_ =>
    if s.tick < at_ then s
    else (s.send (.transmit r.lst.port e.1 r.qpn (s.locAddr resp) (64 + 8 * nret))).adjRequest e.1 fun y =>
      { y with held := false, st := .sending }
  | _ => s

/-- The responses of a tick. -/
def State.responses (s : State) : State := foldS s.svc.requests State.respond1 s

/-- An NX engine reports that a SEND is complete: the slot returns to the receive queue. -/
def State.sendDone (s : State) (nx q : Nat) : State :=
  match s.request? q with
  | none => s
  | some r => if r.st = .sending ∧ r.lst.port = nx then (s.dropRequest q).restock r else s

/-- The end of a partition's requests and listeners at a teardown (10 R321): no responses; a listener reopens
only through a new activation. Requests whose launches run end with them. -/
def State.tearService (s : State) (p : Nat) : State :=
  s.adjSvc fun v =>
    { v with
      requests := v.requests.filter fun e => e.2.lst.part != p || (match e.2.st with | .launched _ _ _ => true | _ => false)
      listeners := Tbl.mapV v.listeners fun _ l => if l.part = p then { l with isOpen := false, closed := true } else l }

/-! ### Activation (10 R309 step 5, R327) -/

/-- A listener's receive queue is stocked with its slots; with no OPEN_FENCE the listener opens at once (10 R309, R311). -/
def State.stockListener (s : State) (i : Nat) : State :=
  match Tbl.get? s.svc.listeners i with
  | none => s
  | some l =>
    let s1 := foldS l.stock (fun s k => s.send (.stock l.port i k)) s
    if l.openFence.isNone then s1.openListener i else s1

/-- A listener that the new table keeps stays open; its numbering starts again (10 R315) and slots in use are
not stocked. -/
def State.keepListener (s : State) (old : Tbl Listener) (i : Nat) (l : Listener) : Listener :=
  let kept := match Tbl.get? old i with | some o => o.same l && o.isOpen && !o.closed | none => false
  { l with isOpen := kept
           stock := l.stock.filter fun k => !(s.svc.requests.any fun r => r.2.lno == i && r.2.lst.same l && r.2.slot == k) }

/-- Is listener `i` of the old table still served? -/
def State.keeps (s : State) (old : Tbl Listener) (i : Nat) : Bool :=
  match Tbl.get? old i, Tbl.get? s.svc.listeners i with
  | some o, some l => o.same l
  | _, _ => false

/-- What an activation does to a request of a listener that the new table drops and that is not yet admitted: it is refused
with CS_SHED 0x02C5, at once or when its header has been read. -/
def State.dropFor (s : State) (old : Tbl Listener) (e : Nat × Request) : State :=
  if s.keeps old e.2.lno then s
  else match e.2.st with
    | .queued => s.refuse e.1 .shed 0x02C5
    | .reading => s.adjRequest e.1 fun x => { x with lst := { x.lst with closed := true } }
    | _ => s

/-- The slots that the new table adds to a listener that it keeps are stocked (10 R309, R327). -/
def State.stockAdded (old : Tbl Listener) (s : State) (i : Nat) : State :=
  match Tbl.get? old i, Tbl.get? s.svc.listeners i with
  | some o, some l => foldS (l.stock.filter fun k => decide (o.slots ≤ k)) (fun s k => s.send (.stock l.port i k)) s
  | _, _ => s

/-- The staged table replaces the active one, or ACT_FAILED is set.
Mark: DEDUCED (notes/assumptions/80.md). -/
def State.activateTable (s : State) : State :=
  let t := s.svc.staging
  match orElseList [s.tableCheck t true, s.objectCheck t] with
  | some x => (s.svcFail x 0 0).adjSvc fun v => { v with actFailed := true }
  | none =>
    let old := s.svc.listeners
    let s1 := s.adoptTable t
    let s2 := s1.adjSvc fun v => { v with listeners := Tbl.mapV v.listeners (s.keepListener old) }
    let fresh := (Tbl.keys s2.svc.listeners).filter fun i => !s2.keeps old i
    let kept := (Tbl.keys s2.svc.listeners).filter fun i => s2.keeps old i
    foldS s2.svc.requests (fun s e => s.dropFor old e) (foldS kept (State.stockAdded old) (foldS fresh State.stockListener s2))

/-- An activation in progress runs at a boundary at which a core holds the duty SERVICE (10 R321; 12 R353, R364).
Mark: DEDUCED (notes/assumptions/80.md). -/
def State.runActivation (s : State) : State :=
  if s.svc.acting && !(s.duty 10).2 then (s.adjSvc fun v => { v with acting := false }).activateTable else s

/-- ACTIVATE: an activation is in progress until a core of the general complex has carried it out. -/
def State.askActivation (s : State) : State := (s.adjSvc fun v => { v with acting := true }).runActivation

end Sys2Proof.Machine
end

