-- ==== Sys2Proof/Machine/Intr.lean ====
section
/-! DEFINITION. Interrupts to the firmware processors and to the PF, the error counters, and the requests for a
global stop that other parts of Mahorn make (11 R329, R331, R339; 13 R391-R395). -/
namespace Sys2Proof.Machine

/-! ### The interrupt controller (13 R391-R395) -/

/-- Processor `p`'s private bank. -/
def State.icProc (s : State) (p : Nat) : IcProc := s.ic.procs.getD p IcProc.reset

/-- Change a private bank. -/
def State.adjIcProc (s : State) (p : Nat) (f : IcProc → IcProc) : State :=
  { s with ic := { s.ic with procs := s.ic.procs.set p (f (s.icProc p)) } }

/-- Set a bit of a mask. -/
def setBit (m i : Nat) : Nat := if bitOf m i then m else m + 2 ^ i

/-- Clear a bit of a mask. -/
def clearBit (m i : Nat) : Nat := if bitOf m i then m - 2 ^ i else m

/-- Raise private source `i` of a processor. -/
def State.raisePrivate (s : State) (p i : Nat) : State :=
  s.adjIcProc p fun x => { x with pending := setBit x.pending i }

/-! ### Error counters and MH_MGMT_FAULT (11 R329, R350) -/

/-- Count what an access's failure is reported as: an uncorrected error, or a host completion. -/
def State.noteStatus (s : State) (st : Status) (detail : Nat) : State :=
  if st = .memDetected ∧ (detail = 0x02E0 ∨ detail = 0x02E1) then
    s.countUe 1
  else if (st = .memDetected ∧ detail = 0x02E2) ∨ (st = .access ∧ detail = 0x02E3) then
    s.adjFlt fun x => { x with host := satInc 32 x.host }
  else s

/-- Count a failed access. -/
def State.noteFail (s : State) (why : IoFail) : State := s.noteStatus (ioStatus why) (ioDetail why)

/-- Count the failure of an access, if it failed. -/
def State.noteIo (s : State) (io : Io) : State :=
  match io with
  | .ok _ => s
  | .fail why _ => s.noteFail why

/-- Count a failed write of an output, if there was one. -/
def State.noteLost (s : State) (lost : Lost) : State :=
  match lost with
  | some (why, _) => s.noteFail why
  | none => s

/-- One of the bits [2:0] of MH_MGMT_FAULT is set: the PF's MSI-X message is sent.
Mark: DEDUCED (notes/assumptions/134.md). -/
def State.mgmtFault (s : State) (f : Faults → Faults) : State :=
  let s1 := s.adjFlt f
  s1.send (.pfMsix s1.flt.vector)

/-! ### Requests for a stop (11 R339, R341) -/

/-- Change the stop unit. -/
def State.adjStop (s : State) (f : Stop → Stop) : State := { s with stop := f s.stop }

/-- STOP goes to every endpoint, but for those of fenced cores (11 R335), in the tick before the cut; for a late stop, in
the tick before it is applied. -/
def State.sendStops (s : State) : State :=
  match s.stop.plan with
  | some p =>
    if p.at_ ≤ s.tick + 1 ∧ s.stop.gone = false then
      foldS ((List.range 526).filter fun e => !(decide (e < 512) && s.isFenced (e / 4))) (fun s e => s.send (.stop e))
        ({ s with stop := { s.stop with gone := true } } : State)
    else s
  | none => s

/-- Does a request for a stop take effect? While STOPPED it is ignored; a stop already scheduled gives way to an earlier tick,
and of two group or fabric stops named for one tick to the one of the lower chip (01 R39; 11 R339).
Mark: DEDUCED (notes/assumptions/82.md). -/
def State.stopTakes (s : State) (p : StopPlan) : Bool :=
  !s.stop.stopped && (match s.stop.plan with
    | some q => decide (p.at_ < q.at_) ||
        (p.at_ == q.at_ && p.scope != 0 && q.scope != 0 && decide (p.origin < q.origin))
    | none => true)

/-- Schedule a stop.
Mark: DEDUCED (notes/assumptions/83.md). -/
def State.planStop (s : State) (p : StopPlan) (late : Bool) : State :=
  if s.stopTakes p then
    (s.adjStop fun x => { x with plan := some p, planLate := late }).sendStops
  else s

/-- A chip-scope request of this chip, for the earliest tick or the one named.
Mark: DEDUCED (notes/assumptions/83.md). -/
def State.chipStop (s : State) (reason tick : Nat) : State :=
  let n := (s.stop.sent + 1) % 2 ^ 32
  let p : StopPlan := { at_ := max (s.tick + 1) tick, reason := reason, scope := 0, id := n, origin := s.fab.chip }
  if s.stopTakes p then (s.adjStop fun x => { x with sent := n }).planStop p false else s

/-! ### The machine check (11 R331; 13 R396) -/

/-- A machine check: the syndrome is kept if none is held, a chip-scope stop is requested for the earliest tick, MCHK
and the firmware's source are raised.
Mark: DEDUCED (notes/assumptions/87.md). -/
def State.machineCheck (s : State) (cause seqr addr quarters opcode : Nat) : State :=
  let word := cause % 256 * 2 ^ 8 + seqr % 32 * 2 ^ 16 + addr % 2 ^ 15 * 2 ^ 24 + quarters % 16 * 2 ^ 39 + opcode % 256 * 2 ^ 43
  let b := { s.bw with mchks := satInc 32 s.bw.mchks }
  let b1 := if s.bw.synValid then b else { b with synValid := true, syn := word, synFtc := s.ftc % 2 ^ 63 }
  ((({ s with bw := b1 } : State).chipStop 3 0).mgmtFault fun x => { x with mchk := true }).raise 32

/-- An error in Mahorn's own control path: parity of a Hedgerow message (part 0), or an uncorrected error, which is counted,
in Topiary, Espalier or the watch slots (parts 1 to 3) (11 R329, R331). -/
def State.controlError (s : State) (part detail : Nat) : State :=
  if 4 ≤ part then s else (s.countUe (min part 1)).machineCheck (3 + part) 0 detail 0 0

end Sys2Proof.Machine
end

