-- ==== Sys2Proof/Machine/Engines.lean ====
section
/-! DEFINITION. Work on engine endpoints (01 R20-R24; 04 R121-R128; 15 R420-R424): what an endpoint reports, how the
end of a segment is applied, and which segment each endpoint is sent in a tick. -/
namespace Sys2Proof.Machine

/-! ### Counters (15 R420-R424) -/

/-- The engine class of an endpoint (00 R5; 15 R420). -/
def engineOf (e : Nat) : Nat := if e < 512 then e % 4 else if e < 520 then 4 else if e < 522 then 5 else 6

/-- Does R421 name the counter? -/
def counterNamed (id : Nat) : Bool :=
  let fmt := id % 8
  let eng := id / 8 % 8
  if id / 64 = 0 then (decide (eng ≤ 1) && decide (fmt ≤ 6)) || (eng == 2 && fmt == 0)
  else id / 64 == 1 && (if eng = 2 then decide (fmt ≤ 6) else decide (eng ≤ 6) && fmt == 7)

/-- Add counts to a bank, modulo 2^64; `cyc` is in 1/32 of a cycle. -/
def Bank.add (b : Bank) (ops : List (Nat × Nat)) (cls ns cyc : Nat) : Bank :=
  let o := ops.foldl (fun t p => Tbl.set t p.1 ((Tbl.getD t p.1 0 + p.2) % Config.two64)) b.ops
  let old := Tbl.getD b.busy cls (0, 0)
  { ops := o, busy := Tbl.set b.busy cls ((old.1 + ns) % Config.two64, (old.2 + cyc) % (32 * Config.two64)) }

/-- The counters of a partition. -/
def State.pcount (s : State) (p : Nat) : Counters := Tbl.getD s.pcnt p Counters.zero

/-- Add counts of an endpoint's work to the chip, the endpoint and the partition of the work. -/
def State.addCounts (s : State) (e : Nat) (p : Option Nat) (ops : List (Nat × Nat)) (ns cyc : Nat) : State :=
  let add := fun (c : Counters) => { c with live := c.live.add ops (engineOf e) ns cyc }
  let s1 := { s with gcnt := add s.gcnt }.adjEp e fun x =>
    { x with busyNs := (x.busyNs + ns) % Config.two64, busyCyc := (x.busyCyc + cyc) % (32 * Config.two64) }
  match p with
  | some p => { s1 with pcnt := Tbl.set s1.pcnt p (add (s1.pcount p)) }
  | none => s1

/-- The running time of an endpoint's segment that has not been counted at an instant: a frozen segment, and one whose clock is
stopped, is not busy (15 R424). -/
def Ep.busyNow (x : Ep) (stopped : Bool) (now : Nat) : Nat :=
  match x.seg with
  | some g => (match g.begun with
    | some b => if stopped || x.clockStopped || x.ended then 0 else now - max b g.busyFrom
    | none => 0)
  | none => 0

/-- The BUSY pairs count a core endpoint's segment up to an instant (15 R424): cycles are 3/32 of a step's nanosecond. -/
def State.countBusy (s : State) (e now : Nat) : State :=
  let x := s.ep e
  match x.seg with
  | none => s
  | some g =>
    let d := x.busyNow s.stop.stopped now
    (s.adjEp e fun x => { x with seg := some { g with busy := g.busy + d, busyFrom := max g.busyFrom now } }).addCounts e g.part []
      d (d * x.step * 3)

/-- The BUSY pairs of every endpoint as they stand at an instant. -/
def State.countBusyAll (s : State) (now : Nat) : State :=
  foldS ((s.eps.filter fun e => e.2.seg.isSome).map fun e => e.1) (fun s e => s.countBusy e now) s

/-- What COPY and GROUPED_MM count for the items of a segment (15 R421): the bytes that DX writes at the destination, or 2 for
each multiply-accumulate under the format of the weights.
Mark: DESIGN CHOICE (notes/assumptions/169.md). -/
def State.itemOps (s : State) (g : Seg) (n : Nat) : List (Nat × Nat) :=
  match g.owner with
  | .work w i => (match s.work? w with
    | some x =>
      if opcodeOf x.cmd = 0x0B then [(95, itemBytes x.cmd i g.first n)]
      else if opcodeOf x.cmd = 0x05 then (match Tbl.get? s.pleach.grouped w with
        | some groups => [(mmCounter x.cmd, mmOps x.cmd groups x.insts.length i g.first n)]
        | none => [])
      else []
    | none => [])
  | _ => []

/-- What a segment counts: the amounts that the spec gives for its items, and otherwise what the endpoint reports; a pass that
was abandoned and runs again is counted each time, so more is reported then (15 R421, R422).
Mark: DESIGN CHOICE (notes/assumptions/169.md). -/
def State.segOps (s : State) (g : Seg) (r : SegReport) : List (Nat × Nat) :=
  let own := s.itemOps g r.items
  own ++ r.ops.filter fun o => g.again || !(own.any fun q => q.1 == o.1)

/-- A segment's counts are added where its end is applied (15 R422). The BUSY pair of an endpoint of the hub, whose work Mahorn
does not dispatch, is the one that it reports. -/
def State.countSeg (s : State) (e : Nat) (p : Option Nat) (ops : List (Nat × Nat)) (r : SegReport) : State :=
  let ops := ops.filter fun o => counterNamed o.1 && o.1 / 8 % 8 == engineOf e
  if 512 ≤ e then s.addCounts e p ops r.ns (32 * r.cycles) else s.addCounts e p ops 0 0

/-! ### Reports of an endpoint (01 R20-R22; 04 R123) -/

/-- The FTC from which an endpoint's two clock periods to begin a segment count (01 R20): the boundary at which its
DISPATCH takes effect, or a later one at which its clock went on. -/
def Ep.mayBegin (x : Ep) (g : Seg) : Nat := max (g.from_ * 64) x.onSince

/-- Nanoseconds in which an endpoint counts two periods of its own clock, at `step` sixteenths of 1.5 GHz. -/
def twoPeriods (step : Nat) : Nat := 64 / (3 * step)

/-- Can the endpoint begin its segment in this tick: its DISPATCH has taken effect and its clock runs? -/
def State.begins (s : State) (e : Nat) : Bool :=
  let x := s.ep e
  match x.seg with
  | some g => g.begun.isNone && !s.stop.stopped && !x.clockStopped && !x.hung && decide (g.from_ ≤ s.tick)
  | none => false

/-- The walker of a GROUPED_MM reaches the groups of the next `k` items of a segment, in turn (09 R292).
Mark: DEDUCED (notes/assumptions/71.md). -/
def State.walkSeg (s : State) (e k : Nat) : State :=
  match (s.ep e).seg with
  | some g => (match g.owner with
    | .work w i => (match s.work? w with
      | some x =>
        if opcodeOf x.cmd ≠ 0x05 then s
        else
          let n := min k (g.count - g.walked)
          foldS (List.range' (g.first + g.walked) n) (fun s j => s.mmReach w i j)
            (s.adjEp e fun x => { x with seg := some { g with walked := g.walked + n } })
      | none => s)
    | _ => s)
  | none => s

/-- How far the walkers of the segments that run have come by the end of the tick: free.
Mark: DEDUCED (notes/assumptions/71.md). -/
def State.walkAll (s : State) : State :=
  foldS ((s.eps.filter fun e => match e.2.seg with
    | some g => g.begun.isSome && !e.2.ended && !e.2.clockStopped
    | none => false).map fun e => e.1) (fun s e =>
      match (s.ep e).seg with
      | some g => (match g.owner with
        | .work w _ => (match s.work? w with
          | some x => if opcodeOf x.cmd = 0x05 then (let (k, s1) := s.takeFree; s1.walkSeg e (k % (g.count - g.walked + 1))) else s
          | none => s)
        | _ => s)
      | none => s) s

/-- A DISPATCH arrives: the endpoint begins the segment, within two periods of its clock. -/
def State.beginSeg (s : State) (e stamp : Nat) : State :=
  let x := s.ep e
  match x.seg with
  | some g =>
    if s.begins e && decide (x.mayBegin g ≤ stamp) && decide (stamp ≤ x.mayBegin g + twoPeriods x.step) then
      (s.adjEp e fun x => { x with seg := some { g with begun := some stamp } }).walkSeg e 1
    else s
  | none => s

/-- Every DISPATCH that took effect in the tick has been begun by its end (01 R20, R22); when within the two periods is
free where no DISPATCH_MESSAGE said.
Mark: DESIGN CHOICE (notes/assumptions/142.md). -/
def State.beginAll (s : State) : State :=
  foldS ((Tbl.keys s.eps).filter s.begins) (fun s e =>
    match (s.ep e).seg with
    | some g =>
      let (k, s1) := s.takeFree
      s1.beginSeg e ((s.ep e).mayBegin g + k % (twoPeriods (s.ep e).step + 1))
    | none => s) s

/-- The items that the instance of a segment has in all. -/
def State.instItems (s : State) (w i : Nat) : Nat :=
  match s.work? w with
  | some x => (match x.insts[i]? with | some n => n.items | none => 0)
  | none => 0

/-- Has an urgent ABORT reached the endpoint (07 R222)? -/
def Ep.urgent (x : Ep) : Bool := x.abortAt.isSome && (match x.abort with | some (u, _) => u | none => false)

/-- Is it an end that R123 allows: all items are done, or at least one is and seg_ns of FTC time have passed since the
segment began? Only running time counts (11 R344).
Mark: DEDUCED (notes/assumptions/38.md). -/
def State.endsItems (s : State) (e : Nat) (g : Seg) (items : Nat) : Bool :=
  items == g.count ||
    (decide (1 ≤ items) && g.begun.isSome &&
      decide (g.segNs ≤ g.busy + (s.ep e).busyNow s.stop.stopped (s.tick * 64 + 63)))

/-- Is it the message that R123 names: NODE_DONE where an instance's last item is done, SEGMENT_DONE otherwise? An
instance of a persistent task has no last item.
Mark: DEDUCED (notes/assumptions/38.md). -/
def State.kindFits (s : State) (node : Bool) (g : Seg) (items : Nat) : Bool :=
  match g.owner with
  | .work w i => node == (g.first + items == s.instItems w i)
  | .task _ _ => !node
  | .gather _ => true

/-- Can the endpoint have ended its segment so? It did at most what it was given; unless the segment failed or was
aborted with URGENT it ends as R123 says.
Mark: DEDUCED (notes/assumptions/6, 38.md). -/
def State.reportFits (s : State) (node : Bool) (e : Nat) (g : Seg) (r : SegReport) : Bool :=
  decide (r.items ≤ g.count) &&
    (r.code != 0 || (s.ep e).urgent || (s.endsItems e g r.items && ((s.ep e).abort.isSome || s.kindFits node g r.items)))

/-- The completion messages that an endpoint has sent in the tick: at most two (01 R21). -/
def State.sentBy (s : State) (e : Nat) : Nat := (s.msgs.filter fun m => m.ep == e).length

/-- May the work of an endpoint of the hub belong to the partition (15 R422): TX to one with a table, NX to one with a listener,
CX to one that is up?
Mark: DESIGN CHOICE (notes/assumptions/39.md). -/
def State.hubPart (s : State) (e : Nat) (p : Option Nat) : Bool :=
  match p with
  | none => true
  | some p =>
    if e < 520 then s.liveTables.any fun t => t.2.part == p
    else if e < 522 then s.svc.listeners.any fun l => l.2.part == p
    else s.isUp p

/-- Does Mahorn take an endpoint's report? A fenced core, a hung endpoint and an endpoint whose clock is stopped
report nothing; neither does any endpoint during a global stop (11 R335, R341).
Mark: DEDUCED (notes/assumptions/38.md). -/
def State.takesReport (s : State) (node : Bool) (e : Nat) (r : SegReport) : Bool :=
  let x := s.ep e
  !s.stop.stopped && decide (e < 526) && decide (s.sentBy e < 2) && !x.clockStopped &&
    ((decide (512 ≤ e) && s.hubPart e r.part) ||
      (decide (e < 512) && !s.isFenced (e / 4) && !x.hung && !x.ended &&
        (match x.seg with | some g => g.begun.isSome && (r.fatal || s.reportFits node e g r) | none => false)))

/-- The offset in an object of a device address. -/
def Obj.offOf (o : Obj) (a : Nat) : Option Nat :=
  match o.pages with
  | [] => none
  | [b] => if b ≤ a then some (a - b) else none
  | ps => (List.range ps.length).findSome? fun i =>
      let b := ps.getD i 0
      if b ≤ a ∧ a < b + Config.pageBytes then some (i * Config.pageBytes + (a - b)) else none

/-- Does a device address lie within `n` bytes from a place? -/
def State.within (s : State) (a : Nat) (x : Loc × Nat) : Bool :=
  match x.1 with
  | .host _ => false
  | .dev o off => match (s.obj? o).bind fun y => y.offOf a with
    | some d => decide (off ≤ d) && decide (d < off + x.2)
    | none => false

/-- The extents of the MREFs that a command's engines may write (07 R214).
Mark: DEDUCED (notes/assumptions/55.md). -/
def Work.extents (x : Work) : List (Loc × Nat) :=
  let at_ := fun (i n : Nat) => (x.locs[i]?).toList.map fun l => (l, n)
  match opcodeOf x.cmd with
  | 0x02 => at_ 0 64 ++ at_ 1 (argsExtent x.cmd)
  | 0x03 => at_ 1 (fld x.cmd 68 0 32 * if fld x.cmd 64 0 2 = 0 then fld x.cmd 56 0 24 else fld x.cmd 60 0 32)
  | 0x05 => at_ 3 (mmRows x.cmd * mmOut x.cmd * 4)
  | 0x0B => at_ 1 (copyBytes x.cmd)
  | _ => []

/-- The extents that a segment may write. -/
def State.segExtents (s : State) (o : SegOwner) : List (Loc × Nat) :=
  match o with
  | .work w _ => (match s.work? w with | some x => x.extents | none => [])
  | .task t _ => (match s.task? t with | some x => [(x.itemLoc 0, x.depth * x.itemBytes)] | none => [])
  | .gather n => (match Tbl.get? s.marshal.segs n with
    | some g => (dedupNat (g.users.map fun u => u.1)).flatMap fun w => match s.work? w with | some x => x.extents | none => []
    | none => [])

/-- What an endpoint's kernel stored: bytes outside the extents of its command's MREFs are never written (07 R214). -/
def State.kept (s : State) (e : Nat) (l : List Host.Cell) : List Host.Cell :=
  match (s.ep e).seg with
  | some g => if 512 ≤ e then l else l.filter fun c => (s.segExtents g.owner).any fun x => s.within c.1 x
  | none => if 512 ≤ e then l else []

/-- An endpoint's SEGMENT_DONE or NODE_DONE: what its kernel stored is in memory; the message is applied in step 1 of
the next boundary.
Mark: DESIGN CHOICE (notes/assumptions/9, 54.md). -/
def State.report (s : State) (node : Bool) (e : Nat) (r : SegReport) : State :=
  if s.takesReport node e r then
    let end_ := min (s.tick * 64 + 63) (match r.stamp with | some t => t | none => s.ftc)
    let s0 := if r.fatal then s else s.countBusy e end_
    let s1 : State := (s0.storeCells (s.kept e r.writes)).adjEp e fun x => { x with ended := !r.fatal && x.seg.isSome }
    { s1 with msgs := s1.msgs ++ [{ ep := e, node := node, r := r }] }
  else s

/-- Did an engine report a byte stored where the part has no memory (14 R412)?
Mark: DESIGN CHOICE (notes/assumptions/137.md). -/
def State.reportAstray (s : State) (node : Bool) (e : Nat) (r : SegReport) : Bool :=
  s.takesReport node e r && !(r.writes.all fun w => deviceAddr s.cfg w.1)

/-- The report of a segment of `count` items that the state port of a stopped endpoint ends at its frozen point (14 R417): the
items done and the counts up to there are free values.
Mark: DESIGN CHOICE (notes/assumptions/169.md). -/
def SegReport.cut (e count k : Nat) : SegReport :=
  { items := (Config.word k).toNat % (count + 1), code := 0, detail := 0, addr := 0, stamp := none, signal := none, writes := []
    ops := ((List.range 128).filter fun id => counterNamed id && id / 8 % 8 == engineOf e).map fun id =>
      (id, (Config.word (k + 1 + id)).toNat)
    ns := 0, cycles := 0, fatal := false, part := none }

/-- The state port of an endpoint whose clock is stopped ends its segment at once (14 R417). -/
def State.cutSeg (s : State) (e count : Nat) : State :=
  let s1 := ({ s with free := s.free + 129 } : State).adjEp e fun x => { x with ended := true }
  { s1 with msgs := s1.msgs ++ [{ ep := e, node := false, r := SegReport.cut e count s.free }] }

/-- ABORT reaches an endpoint (07 R222): from this boundary it ends its segment; where its clock is stopped, the
state port ends the segment at once, and it counts as ended at the boundary at which the ABORT takes effect (14 R417). -/
def State.abortArrives (s : State) (e : Nat) : State :=
  let x := s.ep e
  match x.abort, x.seg with
  | some (_, b), some g =>
    if s.tick < b + (if x.clockStopped then 0 else 1) ∨ x.abortAt.isSome = true ∨ x.ended = true ∨ s.stop.stopped = true then s
    else
      let s1 := s.adjEp e fun x => { x with abortAt := some s.tick }
      if x.clockStopped then s1.cutSeg e g.count else s1
  | _, _ => s

/-- Every ABORT sent in the last tick has reached its endpoint by the end of this one (01 R22). -/
def State.abortAll (s : State) : State :=
  foldS ((s.eps.filter fun e => e.2.abort.isSome && e.2.abortAt.isNone).map fun e => e.1) State.abortArrives s

/-! ### SEG_END (15 R431) -/

/-- The SEG_END of a completion message: the SEQ and ring of an endpoint of the hub, whose work Mahorn does not dispatch, are
free values. -/
def State.segEndMsg (s : State) (m : EpMsg) : TraceMsg :=
  let g := (s.ep m.ep).seg
  let f := fun (i : Nat) => (Config.word (s.free + i)).toNat
  { src := m.ep, event := 2, offset := m.r.stamp.getD 0 % 64, deferred := m.r.stamp.isNone
    part := match g with | some g => g.part | none => m.r.part
    d0 := m.r.items % 2 ^ 32, d1 := (match g with | some g => g.seq | none => f 0) % 2 ^ 32
    d2 := (match g with | some g => g.ring | none => f 1) % 2 ^ 16 + 2 ^ 16 * natOfBool m.node + 2 ^ 24 * (m.r.code % 256) }

/-- The SEG_END of a completion message goes to the trace unit. A fatal error ends no segment. -/
def State.traceEnd (s : State) (m : EpMsg) : State :=
  if m.r.fatal then s else ({ s.trace1 (s.segEndMsg m) with free := s.free + 2 } : State)

/-- A TRACE message of an endpoint: its SEG_END, for a report of this tick that has not been traced.
Mark: DEDUCED (notes/assumptions/128.md). -/
def State.traceMessage (s : State) (src : Nat) : State :=
  match s.msgs.findIdx? fun m => m.ep == src && !m.traced with
  | none => s
  | some i => match s.msgs[i]? with
    | none => s
    | some m => ({ s with msgs := s.msgs.set i { m with traced := true } } : State).traceEnd m

/-- Every segment that ended in the tick has raised its SEG_END by the end of it (15 R428). -/
def State.traceEnds (s : State) : State :=
  foldS (s.msgs.filter fun m => !m.traced) State.traceEnd { s with msgs := s.msgs.map fun m => { m with traced := true } }

/-! ### The end of a segment (04 R121-R128; step 1 of 01 R24) -/

/-- The failure that a report names; an end without a stamp is stamped by Mahorn with DEFERRED (01 R44).
Mark: DESIGN CHOICE (notes/assumptions/59.md). -/
def State.reportRes (s : State) (r : SegReport) : Res :=
  let st := Status.ofCode r.code
  { st := st, detail := r.detail, addr := some r.addr,
    stamp := some (match r.stamp with | some t => t % 2 ^ 63 | none => deferred s.ftc),
    io := st == .pageFault || st == .memDetected || (st == .access && (r.detail == 0 || r.detail == 0x02E3)) }

/-- The end of a command whose segments may all have ended: an aborted or failed one completes when none runs, any
other when every instance has ended. -/
def State.settleWork (s : State) (w : Nat) : State :=
  match s.work? w with
  | none => s
  | some x =>
    match x.abort with
    | some a => if s.segRuns w then s else s.finish w (Res.of a.st a.detail)
    | none => match x.failed with
      | some r => if s.segRuns w then s else s.finish w r
      | none => if x.phase == .running && x.insts.all (fun i => i.ended) then s.finish w Res.ok else s

/-- What the items of a segment did that is Mahorn's to compute: COPY and GROUPED_MM. After a failed check of a GROUPED_MM
no further item is begun (09 R292), and its OUT is undefined when it completes.
Mark: DESIGN CHOICE (notes/assumptions/54.md). -/
def State.segEffect (s : State) (w i first n : Nat) : Option Res × State :=
  match s.work? w with
  | none => (none, s)
  | some x =>
    if opcodeOf x.cmd = 0x0B then (none, s.copyItems x i first n)
    else if opcodeOf x.cmd = 0x05 ∧ x.failed = none then s.mmSegment w x i first n
    else (none, s)

/-- Instance `i` after a segment of it has ended with `next` items done in all: its continuation is eligible from this
boundary; so is an instance that waited behind it on its endpoint, where it has ended (04 R115, R124). -/
def segDone (i next tick : Nat) (l : List Inst) : List Inst :=
  let here := l.find? fun (n : Inst) => n.no == i
  let past := match here with | some n => decide (n.items ≤ next) | none => false
  let ep := match here with | some n => n.ep | none => 0
  l.map fun (n : Inst) =>
    if n.no = i then { n with next := next, running := false, since := tick, ended := decide (n.items ≤ next) }
    else if past && n.ep == ep && !n.ended && !n.running then { n with since := tick }
    else n

/-- The end of a segment of a command. -/
def State.workSegEnd (s : State) (w i : Nat) (g : Seg) (r : SegReport) : State :=
  let (bad, s1) := s.segEffect w i g.first r.items
  let failed := match bad with
    | some x => some x
    | none => if r.code = 0 then none else some (s.reportRes r)
  let s2 := s1.adjWork w fun x =>
    { x with
      insts := segDone i (g.first + r.items) s.tick x.insts
      failed := if x.failed.isSome then x.failed else failed }
  s2.settleWork w

/-- The end of a segment of a persistent task: the items it did are consumed; the others return to the queue, but for those of
a FEED that has been aborted (07 R220). -/
def State.taskSegEnd (s : State) (t i : Nat) (r : SegReport) : State :=
  match s.task? t with
  | none => s
  | some x =>
    let mine := (x.items.filter fun q => q.inst == some i).take r.items
    let ends := fun (q : QItem) => match s.work? q.feed with | some y => y.abort.isSome | none => false
    let s1 := s.adjTask t fun x =>
      { x with idle := x.idle.set i s.tick
               items := (x.items.filter fun q => !mine.contains q && !(q.inst == some i && ends q)).map fun q =>
                 if q.inst = some i then { q with inst := none, since := s.tick } else q }
    if r.code = 0 then s1.settleTask t else s1.failTask t (s.reportRes r)

/-- An endpoint is idle again. -/
def Ep.freed (x : Ep) : Ep := { x with seg := none, abort := none, abortAt := none, ended := false, frozen := none }

/-- The end of a segment at an endpoint. -/
def State.segEnd (s : State) (e : Nat) (g : Seg) (r : SegReport) : State :=
  let s1 := (s.countSeg e g.part (s.segOps g r) r).adjEp e Ep.freed
  let s2 := if r.code = 0 then s1
    else (s1.noteStatus (Status.ofCode r.code) r.detail).raise (45 + e / 64)
  match g.owner with
  | .work w i => s2.workSegEnd w i g r
  | .task t i => s2.taskSegEnd t i r
  | .gather n => s2.gatherSegEnd n r.items (if r.code = 0 then none else some (s.reportRes r))

/-- A fence signal that a NODE_DONE carries (06 R178): MAX, on a fence that the partition may signal.
Mark: DEDUCED (notes/assumptions/41.md). -/
def State.carriedSignal (s : State) (g : Seg) (m : EpMsg) : State :=
  match m.r.signal, g.part with
  | some (f, v), some p =>
    if m.node && s.fenceLive p f && s.maySignal p f then s.signalNow (pkey p f) (some v) else s
  | _, _ => s

/-- Apply one message of an endpoint. -/
def State.applyMsg (s : State) (m : EpMsg) : State :=
  if 512 ≤ m.ep then
    let s1 := s.countSeg m.ep m.r.part m.r.ops m.r
    if m.r.fatal then s1.machineCheck 7 0 m.ep 0 0 else s1
  else if s.isFenced (m.ep / 4) then s
  else match (s.ep m.ep).seg with
  | none => s
  | some g =>
    if m.r.fatal then
      (s.adjEp m.ep fun x => { x with fatal := some (m.r.detail % 256) }).raise (45 + m.ep / 64)
    else (s.carriedSignal g m).segEnd m.ep g m.r

/-- Step 1 of 01 R24: the endpoints' messages in endpoint order. -/
def State.applyMsgs (s : State) : State :=
  foldS (sortBy (fun a b => decide (a.ep ≤ b.ep)) s.msgs) State.applyMsg { s with msgs := [] }

/-- FEEDs whose last item is consumed complete; one with END completes once the task has no item left and its
instances are idle, and the task is freed at that boundary (04 R127). -/
def State.settleFeeds (s : State) : State :=
  foldS (Tbl.keys s.works) (fun s w =>
    match s.work? w with
    | some x => match x.phase with
      | .feeding t =>
        let r := match x.abort with | some a => Res.of a.st a.detail | none => Res.ok
        match s.task? t with
        | some y =>
          if s.feedLeft w || y.failed.isSome then s
          else if y.ending = some w then
            if y.items = [] ∧ s.taskRuns t = false then (s.freeTask t).finish w r else s
          else s.finish w r
        | none => s.finish w r
      | _ => s
    | none => s) s

/-- The clock of an endpoint's region changes at an instant: the cycles so far are kept, in units of 3/32 of a cycle;
step 0 stops it (14 R417; 15 R424). -/
def Ep.clock (x : Ep) (now step : Nat) : Ep :=
  { x with onAcc := x.onAcc + (if x.clockStopped then 0 else (now - x.onSince) * x.step), onSince := now,
           step := if step = 0 then x.step else step, clockStopped := step == 0 }

/-- The abandoned passes of some MX endpoints run again, and are counted (09 R294, R301; 15 R422). -/
def State.rerunAt (s : State) (es : List Nat) : State :=
  foldS es (fun s e => s.adjEp e fun x => { x with seg := x.seg.map fun g => { g with again := true } })
    (s.adjPleach fun q => { q with reruns := min Config.max32 (q.reruns + es.length) })

/-! ### Which segment runs (04 R122, R124, R127) -/

/-- A segment that an endpoint may be sent: its place in the order of R124, and the DISPATCH. -/
structure Cand where
  key : List Nat
  owner : SegOwner
  inst : Nat
  first : Nat
  count : Nat
  segNs : Nat
  kernel : Nat
  args : Nat
deriving DecidableEq, Repr

/-- The launch order and node index of a piece of work; 0 where it stands on a ring. -/
def State.launchKey (s : State) (x : Work) : Nat × Nat :=
  match x.site with
  | .ring _ _ => (0, 0)
  | .node l i => (match s.launch? l with | some y => (y.order, i) | none => (0, i))

/-- Does an earlier instance on the same endpoint still have to end (04 R115)? -/
def waitsForInst (l : List Inst) (i : Inst) : Bool := l.any fun j => decide (j.no < i.no) && j.ep == i.ep && !j.ended

/-- The segments of commands that are eligible in this tick, with their endpoints; the first segment of an instance
waits for its cluster's gate. -/
def State.workCands (s : State) : List (Nat × Cand) :=
  s.works.flatMap fun e =>
    let x := e.2
    if x.phase == .running && x.abort.isNone && x.failed.isNone then
      let lk := s.launchKey x
      x.insts.filterMap fun i =>
        if i.running || i.ended || waitsForInst x.insts i || decide (s.tick < i.since) ||
            (i.next == 0 && s.gateClosed i.ep) then none
        else some (i.ep,
          { key := [x.cls, i.since, x.ringNo, x.seq, lk.1, lk.2, i.no], owner := .work e.1 i.no, inst := i.no,
            first := i.next, count := min (perSeg x.segUs x.itemNs (i.items - i.next)) (i.items - i.next),
            segNs := x.segUs * 1000, kernel := s.locAddr (x.locs.getD 0 (.dev 0 0)),
            args := s.locAddr (x.locs.getD 1 (.dev 0 0)) })
    else []

/-- The items that an idle instance of a task would be handed: up to per_seg that stand one after another. -/
def takeRun (depth : Nat) : Nat → Option Nat → List QItem → List QItem
  | _, _, [] => []
  | 0, _, _ => []
  | n + 1, prev, q :: qs =>
    match q.inst, prev with
    | none, none => q :: takeRun depth n (some q.pos) qs
    | none, some p => if q.pos = (p + 1) % depth then q :: takeRun depth n (some q.pos) qs else []
    | some _, none => takeRun depth (n + 1) none qs
    | some _, some _ => []

/-- The instance of a task that would run next on an endpoint: the one that has been idle longest, then the lower. -/
def Task.turn (t : Task) (e : Nat) : Nat :=
  (((List.range t.eps.length).filter fun i => t.eps.getD i 0 == e).foldl (fun (b : Option Nat) i => match b with
    | none => some i
    | some j => if t.idle.getD i 0 < t.idle.getD j 0 then some i else some j) none).getD 0

/-- The segment that the task holding an endpoint would run on it. -/
def State.taskCand (s : State) (e : Nat) : Option (Cand × List QItem) :=
  match (s.ep e).held with
  | none => none
  | some t => match s.task? t with
    | none => none
    | some x =>
      if x.failed.isSome then none
      else match takeRun x.depth (perSeg x.segUs x.itemNs 1) none x.items with
      | [] => none
      | q :: qs => match s.work? q.feed with
        | none => none
        | some y =>
          let i := x.turn e
          let lk := s.launchKey y
          if s.gateClosed e && !x.begun.contains i then none
          else some ({ key := [y.cls, max q.since (x.idle.getD i 0), y.ringNo, y.seq, lk.1, lk.2, i], owner := .task t i, inst := i,
                       first := q.pos, count := (q :: qs).length, segNs := x.segUs * 1000, kernel := x.kernel,
                       args := s.locAddr (x.itemLoc 0) }, q :: qs)

/-- The partition of the work of a command or a task. -/
def State.ownerPart (s : State) (o : SegOwner) : Option Nat :=
  match o with
  | .work w _ => (s.work? w).map fun x => x.part
  | .task t _ => some (keyPart t)
  | .gather _ => none

/-- The DISPATCH event of a sequencer; which sequencer sends it is free (15 R431).
Mark: DESIGN CHOICE (notes/assumptions/43.md). -/
def State.dispatchEvent (s : State) (e : Nat) (c : Cand) : State :=
  let (k, s1) := s.takeFree
  s1.event (768 + k % 32) 0x01 (s.ownerPart c.owner)
    (e + 2 ^ 16 * c.key.getD 2 0) (c.key.getD 3 0) c.first

/-- Send a segment to an endpoint: it begins at the next boundary (01 R20). -/
def State.sendSeg (s : State) (e : Nat) (c : Cand) (items : List QItem) : State :=
  let g : Seg := { owner := c.owner, first := c.first, count := c.count, from_ := s.tick + 1, begun := none,
                   segNs := c.segNs, watched := none, ran := 0, part := s.ownerPart c.owner, ring := c.key.getD 2 0
                   seq := c.key.getD 3 0 }
  let s1 := s.adjEp e fun x => { x.freed with seg := some g }
  let s2 := match c.owner with
    | .work w i => s1.adjWork w fun x =>
        { x with insts := x.insts.map fun (n : Inst) => if n.no = i then { n with running := true } else n }
    | .task t i => s1.adjTask t fun x =>
        { x with begun := dedupNat (i :: x.begun)
                 items := x.items.map fun (q : QItem) => if items.contains q then { q with inst := some i } else q }
    | .gather _ => s1
  (s2.dispatchEvent e c).send (.dispatch e c.kernel c.args c.inst c.first c.count)

/-- The first of some candidates in the order of R124. -/
def firstCand (l : List Cand) : Option Cand :=
  l.foldl (fun b c => match b with | none => some c | some d => if lexLe d.key c.key then some d else some c) none

/-- Choose a segment for one endpoint. -/
def State.fillEp (s : State) (cands : List (Nat × Cand)) (e : Nat) : State :=
  if !s.canTake e then s
  else
    let mine := (cands.filter fun c => c.1 == e).map fun c => c.2
    let task := s.taskCand e
    match firstCand (mine ++ (task.map fun t => t.1).toList) with
    | none => s
    | some c => match c.owner, task with
      | .task _ _, some t => s.sendSeg e c t.2
      | _, _ => s.sendSeg e c []

/-- Choose one segment for each endpoint that can take one (04 R124).
Mark: DEDUCED (notes/assumptions/40.md). -/
def State.fillEps (s : State) : State :=
  let cands := s.workCands
  let held := s.eps.filterMap fun e => if e.2.held.isSome then some e.1 else none
  let es := sortBy (fun a b => decide (a ≤ b)) (dedupNat (cands.map (fun c => c.1) ++ held))
  foldS es (fun s e => s.fillEp cands e) s

end Sys2Proof.Machine
end

