-- ==== Sys2Proof/Machine/Faulting.lean ====
section
/-! DEFINITION. Watchdogs, hang capture, core fencing and the loss of a context record (11 R330-R338). -/
namespace Sys2Proof.Machine

/-! ### What a segment belongs to -/

/-- The command that a segment's record names: of a task's segment the FEED of its first item, of a gather segment
the first GATHER that it serves. -/
def State.segWork (s : State) (o : SegOwner) : Option Nat :=
  match o with
  | .work w _ => some w
  | .task t i => (s.task? t).bind fun x => (x.items.find? fun q => q.inst == some i).map fun q => q.feed
  | .gather n => (Tbl.get? s.marshal.segs n).bind fun g => (g.users.head?).map fun u => u.1

/-- The launch at the root of a node. -/
def State.rootLaunch (s : State) : Nat → Nat → Nat
  | 0, l => l
  | n + 1, l =>
    match s.launch? l with
    | some y => (match y.owner with
      | .work w => (match s.work? w with
        | some x => (match x.site with | .node l' _ => s.rootLaunch n l' | .ring _ _ => l)
        | none => l)
      | _ => l)
    | none => l

/-- The entry that a command belongs to: the ring entry above it, or its service launch. -/
def State.entryOf (s : State) (w : Nat) : AbortTo :=
  match s.rootWork (Config.nesting + 2) w with
  | some r => .work r
  | none => match s.work? w with
    | some x => (match x.site with | .node l _ => .launch (s.rootLaunch (Config.nesting + 2) l) | .ring _ _ => .work w)
    | none => .work w

/-! ### The watchdog (11 R332) -/

/-- HANG_US in force. -/
def State.hangUs (s : State) : Nat := max 10 s.cfg.hangUs

/-- A tick of running time passes for the watchdogs: `now` is the boundary reached. -/
def Ep.watch (x : Ep) (now : Nat) : Ep :=
  match x.seg with
  | some g => match g.begun with
    | some b => if x.clockStopped || x.hung then x else { x with seg := some { g with ran := g.ran + min 64 (now - b) } }
    | none => x
  | none => x

/-- The watchdogs count. -/
def State.watchSegs (s : State) : State := { s with eps := Tbl.mapV s.eps fun _ x => x.watch s.ftc }

/-- A segment's watchdog expires: an urgent abort of its entry, or of its task, is decided.
Mark: DEDUCED (notes/assumptions/6, 56.md). -/
def State.segWatchdog (s : State) (e : Nat) : State :=
  match (s.ep e).seg with
  | none => s
  | some g =>
    if s.stop.stopped || g.watched.isSome || decide (g.ran ≤ g.segNs + s.hangUs * 1000) then s
    else
      let s1 := s.adjEp e fun x => { x with seg := some { g with watched := some (s.tick + 1) } }
      match g.owner with
      | .work w _ => s1.decideAbort (s1.entryOf w) .timeout 0x02E7 true
      | .task t _ => s1.decideAbort (.task t) .timeout 0x02E7 true
      | .gather n =>
        foldS (match Tbl.get? s1.marshal.segs n with | some y => dedupNat (y.users.map fun u => u.1) | none => [])
          (fun s w => s.decideAbort (s.entryOf w) .timeout 0x02E7 true) s1

/-! ### Hang capture (11 R333) -/

/-- The bytes of some words, cut or filled to `n` words. -/
def wordsTo (n : Nat) (ws : List Word) : List Byte := wordBytes ((ws ++ List.replicate n 0).take n)

/-- The 384 bytes of a hang capture record; `words` are the state words of the core's four endpoints.
Mark: DESIGN CHOICE (notes/assumptions/92.md). -/
def State.hangRecord (s : State) (e kind code : Nat) (words : List Word) : List Byte :=
  let g := (s.ep e).seg
  let w := g.bind fun g => s.segWork g.owner
  let x := w.bind fun w => s.work? w
  let root := (w.bind fun w => s.rootWork (Config.nesting + 2) w).bind fun r => s.work? r
  let ring := match root with | some y => (match y.site with | .ring _ r => r | _ => 0xFFFF) | none => 0xFFFF
  let entry := match root with | some y => s.entryAddr (pkey y.part ring) y.idx | none => 0
  let node := match x with | some y => (match y.site with | .node _ i => i | _ => 0xFFFF) | none => 0xFFFF
  let inst := match g with
    | some g => (match g.owner with | .work _ i => i | .task _ i => i | .gather n => n)
    | none => 0
  let cmd := match x with | some y => ((wordBytes y.cmd).take (16 * lenOf y.cmd) ++ List.replicate 64 0).take 64 | none => List.replicate 64 0
  let lastAddr := (words.getD (e % 4 * 8 + 6) 0).toNat
  leBytes 8 (s.ftc % 2 ^ 63) ++ leBytes 2 e ++ leBytes 1 kind ++
    leBytes 1 (match x with | some y => y.part | none => 0) ++ leBytes 2 ring ++
    leBytes 2 (match x with | some y => y.ctx | none => 0) ++ leBytes 8 (match x with | some y => y.seq | none => 0) ++
    leBytes 8 entry ++ leBytes 8 lastAddr ++ leBytes 1 (match x with | some y => opcodeOf y.cmd | none => 0) ++
    leBytes 1 code ++ leBytes 2 node ++ leBytes 4 inst ++ leBytes 16 0 ++ cmd ++ wordsTo 32 words

/-- An endpoint is declared hung or failed: capture, HANG, and the fencing of its core. -/
def State.declare (s : State) (e kind code : Nat) (words : List Word) : State :=
  let rec_ := s.hangRecord e kind code words
  let s1 := (s.adjEp e fun x => { x with hung := true }).mgmtFault fun f =>
    let f1 : Faults := { f with hang := true, fencing := f.fencing ++ [(e / 4, kind)] }
    if f.recs.length < 16 then { f1 with recs := f1.recs ++ [rec_] } else { f1 with lost := satInc 16 f1.lost }
  s1.raise 34

/-- An endpoint whose segment its watchdog aborted has not ended it within 4 µs of the ABORT. -/
def State.declareHung (s : State) (e : Nat) (words : List Word) : State :=
  let x := s.ep e
  match x.seg, x.abortAt with
  | some g, some a =>
    if s.stop.stopped || g.watched.isNone || x.hung || x.clockStopped || decide (s.tick * 64 < a * 64 + 4000) then s
    else s.declare e 1 0 words
  | _, _ => s

/-- An endpoint that has reported a fatal error is declared failed. -/
def State.declareFailed (s : State) (e : Nat) (words : List Word) : State :=
  match (s.ep e).fatal with
  | some code => if s.stop.stopped || (s.ep e).hung || s.isFenced (e / 4) then s else s.declare e 2 code words
  | none => s

/-! ### Core fencing (11 R335-R337; 09 R295) -/

/-- The status of work that cannot go on elsewhere. -/
def fencedAbort (s : State) (w detail : Nat) : State := s.decideAbort (.work w) .coreFenced detail true

/-- Place the instances of `w` that stood on fenced cores: instance i goes to E[i mod m], from its next item or, where
`again` says so, from item 0; none eligible ends the command. -/
def State.replace (s : State) (w : Nat) (lost : List Nat) (es : List Nat) (again : Bool) : State :=
  if es = [] then fencedAbort s w 0x02E4
  else s.adjWork w fun x =>
    { x with insts := x.insts.map fun (i : Inst) =>
        if lost.contains i.no then
          { i with ep := es.getD (i.no % es.length) 0, running := false, since := s.tick,
                   next := if again then 0 else i.next }
        else i }

/-- What becomes of a command that had instances on cores fenced at this boundary. -/
def State.fenceWork (s : State) (cores : List Nat) (w : Nat) (x : Work) : State :=
  let lost := x.insts.filter fun i => cores.contains (i.ep / 4) && !i.ended
  if lost = [] then s
  else
    let nos := lost.map fun i => i.no
    let s1 := s.adjWork w fun x =>
      { x with insts := x.insts.map fun (i : Inst) => if nos.contains i.no then { i with running := false } else i }
    if x.abort.isSome || x.failed.isSome then s1.settleWork w
    else match opcodeOf x.cmd with
    | 0x02 =>
      if tgtMode x.cmd = 1 then s1.replace w nos (s1.eligible (tgtEngine x.cmd) (tgtMask x.cmd)) false
      else fencedAbort s1 w 0x02E5
    | 0x0B => s1.replace w nos (s1.eligible 3 (2 ^ 128 - 1)) false
    | 0x05 =>
      if mmAccum x.cmd && lost.any fun i => i.running then fencedAbort s1 w 0x02E5
      else
        let es := s1.eligible 0 (tgtMask x.cmd)
        s1.replace w nos (if es = [] then s1.eligible 0 (2 ^ 128 - 1) else es) (!mmAccum x.cmd)
    | _ => s1

/-- Gather segments that no GATHER needs any more go; a GATHER that was being aborted and whose last segment was lost
completes. -/
def State.settleLostGathers (s : State) : State :=
  let running := s.runningGathers
  let users := dedupNat (s.marshal.segs.flatMap fun e => e.2.users.map fun u => u.1)
  let s1 := s.adjMarshal fun m =>
    { m with segs := (Tbl.mapV m.segs fun n g =>
        if running.contains n then g
        else { g with sectors := (g.sectors.map fun x =>
          (x.1, x.2.filter fun u => Tbl.has m.gathers u.1)).filter fun x => x.2 != [] }).filter fun e =>
            running.contains e.1 || e.2.sectors != [] }
  foldS users (fun s w => match s.work? w with
    | some x => (match x.abort with
      | some a => if x.phase == .marshal && !s.segRuns w then s.finish w (Res.of a.st a.detail) else s
      | none => s)
    | none => s) s1

/-- The fencings of a boundary take effect (step 5 of 01 R24): cores already fenced are left as they are.
Mark: DEDUCED (notes/assumptions/89.md). -/
def State.fenceCores (s : State) (l : List (Nat × Nat)) : State :=
  let new := l.filter fun c => !s.isFenced c.1
  let cores := dedupNat (new.map fun c => c.1)
  if cores = [] then s
  else
    let s1 := foldS cores (fun s c =>
      let kind := match new.find? fun x => x.1 == c with | some x => x.2 | none => 3
      let s1 := { s with fenced := setBit s.fenced c }.raise 37
      let s2 := s1.event 809 0x0D none (c + 2 ^ 8 * kind) 0 0
      foldS (List.range 4) (fun s i => (s.countBusy (4 * c + i) s.ftc).adjEp (4 * c + i) fun x =>
        { x.freed.clock s.ftc 0 with hung := false, fatal := none }) s2) s
    let tasks := (s1.tasks.filter fun t => t.2.eps.any fun e => cores.contains (e / 4)).map fun t => t.1
    let s2 := foldS tasks (fun s t => s.failTask t (Res.of .coreFenced 0x02E5)) s1
    let s3 := foldS (Tbl.keys s2.works) (fun s w => match s.work? w with
      | some x => s.fenceWork cores w x
      | none => s) s2
    s3.settleLostGathers

/-- Take the fencings decided for this boundary. -/
def State.takeFencings (s : State) : State :=
  (s.fenceCores s.flt.fencing).adjFlt fun f => { f with fencing := [] }

/-- Decide the fencing of a core.
Mark: DEDUCED (notes/assumptions/89.md). -/
def State.decideFence (s : State) (core kind : Nat) : State :=
  s.adjFlt fun f => { f with fencing := f.fencing ++ [(core, kind)] }

/-! ### A ring leaves for FAULTED (03 R84; 11 R330) -/

/-- A ring enters FAULTED. -/
def State.faultRing (s : State) (k status idx : Nat) : State :=
  s.adjRing k fun r => { r.leaveActive with state := .faulted, faultStatus := status, faultIndex := idx }

/-! ### The loss of a context record (11 R330) -/

/-- The memory system reports an uncorrected error on the record of a context that is being loaded. -/
def State.ctxReadFails (s : State) (k : Nat) : State :=
  if (s.loads.any fun l => l.key == k && l.loading) && !s.later.contains (.ctxLost k) then
    { s.noteStatus .memDetected 0x02E1 with later := s.later ++ [.ctxLost k] }
  else s

/-- The context is lost: it is never loaded again, and its rings leave ACTIVE. The record's device address is not
stated: a free value.
Mark: DESIGN CHOICE (notes/assumptions/18.md). -/
def State.loseCtx (s : State) (k : Nat) : State :=
  let a := (Config.word s.free).toNat
  let s1 : State := { s with free := s.free + 1, loads := s.loads.filter fun l => l.key != k }
  let s2 := (s1.adjCtx k fun c => { c with lost := true }).ctxFault k Status.memDetected.code 0 a
  foldS (s2.ringsOf k) (fun s r => match s.ring? r with
    | some x => match x.state with
      | .active => s.faultRing r Status.memDetected.code x.ci
      | .stopped => s.adjRing r fun y => { y with lostStop := true }
      | _ => s
    | none => s) s2

end Sys2Proof.Machine
end

