-- ==== Sys2Proof/Machine/Snapshot.lean ====
section
/-! DEFINITION. The snapshot of a global stop as bytes (11 R334, R347-R349). -/
namespace Sys2Proof.Machine

/-- Zero bytes. -/
def zeroPad (n : Nat) : List Byte := List.replicate n 0

/-- Fill bytes up to a multiple of `n`. -/
def padTo (n : Nat) (bs : List Byte) : List Byte := bs ++ zeroPad (roundUp bs.length n - bs.length)

/-! ### Section 0: rings -/

/-- A RING record. -/
def ringRec (e : Nat × Ring) : List Byte :=
  let r := e.2
  let st := match r.state with | .stopped => r.before.code | x => x.code
  leBytes 2 r.no ++ leBytes 1 (keyPart e.1) ++ leBytes 1 st ++ leBytes 4 r.pi ++ leBytes 4 r.ci ++ leBytes 4 r.sampled ++
    leBytes 8 (r.lastSeq + 1) ++ leBytes 8 r.posted

/-! ### Sections 1 to 3: entries, launches, nodes -/

/-- A started entry: a command on a ring, or a service launch. -/
inductive Entry where
  | work (w : Nat)
  | launch (l : Nat)
deriving DecidableEq, Repr

/-- The started entries, those of rings first. -/
def State.entries (s : State) : List Entry :=
  s.works.filterMap (fun e => match e.2.site with | .ring _ _ => some (.work e.1) | .node _ _ => none) ++
    s.launches.filterMap fun e => match e.2.owner with | .request _ => some (.launch e.1) | _ => none

/-- The index of a launch in its section. -/
def State.launchIdx (s : State) (l : Nat) : Nat := ((Tbl.keys s.launches).idxOf? l).getD 0xFFFFFFFF

/-- The index of an entry in its section. -/
def State.entryIdx (s : State) (e : Entry) : Nat := (s.entries.idxOf? e).getD 0xFFFFFFFF

/-- The bytes of an abort: flags and ABORT_STATUS. -/
def abortBytes (a : Option AbortInfo) : List Byte :=
  match a with
  | none => [0, 0]
  | some a => leBytes 1 (1 + 2 * natOfBool a.urgent) ++ leBytes 1 a.st.code

/-- The launch that a command runs. -/
def State.ownLaunch (s : State) (w : Nat) : Nat :=
  match s.launches.find? fun e => e.2.owner == .work w with
  | some e => s.launchIdx e.1
  | none => 0xFFFFFFFF

/-- An ENTRY record; the opcode of a service launch is that of LAUNCH.
Mark: DESIGN CHOICE (notes/assumptions/91.md). -/
def State.entryRec (s : State) (e : Entry) : List Byte :=
  match e with
  | .work w => (match s.work? w with
    | some x => leBytes 2 x.ringNo ++ leBytes 1 (opcodeOf x.cmd) ++ abortBytes x.abort ++ zeroPad 3 ++ leBytes 8 x.seq ++
        leBytes 8 (x.started * 64) ++ leBytes 4 (s.ownLaunch w) ++ zeroPad 4
    | none => [])
  | .launch l => (match s.launch? l with
    | some y =>
      let admitted := match y.owner with | .request q => (match s.request? q with | some r => r.admitted | none => 0) | _ => 0
      leBytes 2 y.ringNo ++ leBytes 1 0x01 ++ abortBytes y.abort ++ zeroPad 3 ++ leBytes 8 y.seq ++ leBytes 8 admitted ++
        leBytes 4 (s.launchIdx l) ++ zeroPad 4
    | none => [])

/-- The bitmap of the nodes that are DONE, in bytes: 16 for each 128 nodes. -/
def doneMap (nodes : List NodeSt) : List Byte :=
  let bit := fun (i : Nat) => natOfBool (match nodes.getD i .outside with | .ended _ => true | _ => false)
  (List.range (ceilDiv nodes.length 128 * 16)).map fun b =>
    BitVec.ofNat 8 (sumNat ((List.range 8).map fun k => bit (8 * b + k) * 2 ^ k))

/-- A LAUNCH record. -/
def State.launchRec (s : State) (l : Nat) (y : Launch) : List Byte :=
  let parent := match y.owner with
    | .work w => (match s.work? w with
      | some x => (match x.site with | .node l' _ => s.launchIdx l' | .ring _ _ => 0xFFFFFFFF)
      | none => 0xFFFFFFFF)
    | _ => 0xFFFFFFFF
  let entry := match s.launch? (s.rootLaunch (Config.nesting + 2) l) with
    | some z => (match z.owner with
      | .work w => s.entryIdx (.work ((s.rootWork (Config.nesting + 2) w).getD w))
      | _ => s.entryIdx (.launch (s.rootLaunch (Config.nesting + 2) l)))
    | none => 0xFFFFFFFF
  leBytes 2 (match s.graph? y.graph with | some g => g.no | none => 0) ++ leBytes 2 y.window ++ leBytes 4 y.gen ++ leBytes 4 y.epoch ++ leBytes 4 parent ++ leBytes 4 entry ++
    leBytes 2 y.nodes.length ++ leBytes 1 y.result.st.code ++ zeroPad 9 ++ doneMap y.nodes

/-- A NODE record: RUNNING once an item or a segment of it is under way. -/
def State.nodeRec (s : State) (x : Work) (l i : Nat) : List Byte :=
  let run := x.insts.any (fun n => n.running || decide (0 < n.next)) || (match x.phase with
    | .child _ => true | .feeding _ => true | .marshal => true | _ => false)
  leBytes 4 (s.launchIdx l) ++ leBytes 2 i ++ leBytes 1 (if run then 2 else 1) ++ zeroPad 1 ++ leBytes 4 x.insts.length ++
    leBytes 4 (x.insts.filter fun n => n.ended).length ++ leBytes 4 (sumNat (x.insts.map fun n => n.next)) ++
    leBytes 4 (sumNat (x.insts.map fun n => n.items)) ++ zeroPad 8

/-! ### Sections 4 and 6: endpoints -/

/-- The state word of an endpoint that sent no freeze report: an idle, fenced or hung one. What a hung endpoint's
own counts are is not Mahorn's to know: free values.
Mark: DESIGN CHOICE (notes/assumptions/92.md). -/
def State.epWord (s : State) (e : Nat) : List Byte :=
  let x := s.ep e
  let st := if decide (e < 512) && s.isFenced (e / 4) then 4 else if x.hung then 3 else if x.seg.isSome then 2 else 0
  let w := x.seg.bind fun g => (s.segWork g.owner).bind fun w => s.work? w
  let free := fun (i n : Nat) => (Config.word (s.free + e * 4 + i)).toNat % 2 ^ (8 * n)
  match x.seg with
  | none => leBytes 2 e ++ leBytes 1 st ++ leBytes 1 (4 * natOfBool x.clockStopped) ++ leBytes 2 0xFFFF ++ zeroPad 58
  | some g =>
    let inst := match g.owner with | .work _ i => i | .task _ i => i | .gather n => n
    leBytes 2 e ++ leBytes 1 st ++ leBytes 1 (4 * natOfBool x.clockStopped) ++
      leBytes 2 (match w with | some y => y.ringNo | none => 0xFFFF) ++
      leBytes 2 (match w with | some y => (match y.site with | .node _ i => i | _ => 0xFFFF) | none => 0xFFFF) ++
      leBytes 8 (match w with | some y => y.seq | none => 0) ++ leBytes 4 inst ++ leBytes 4 g.first ++ leBytes 4 g.count ++
      leBytes 4 (free 0 4) ++ leBytes 4 (free 1 4) ++ zeroPad 4 ++ leBytes 8 (g.begun.getD 0) ++ leBytes 8 (free 2 8) ++
      zeroPad 8

/-- An ENDPOINT record: the first 8 words of a freeze report. -/
def State.epRec (s : State) (e : Nat) : List Byte :=
  match (s.ep e).frozen with
  | some ws => wordsTo 8 ws
  | none => s.epWord e

/-- DRAIN of a freeze report. -/
def drained (ws : List Word) : Bool := bitOf (ws.getD 0 0).toNat 25

/-- A DRAIN record: after its state word a freeze report gives the count of drained bytes, their destination, PASID and
HOST, and then the bytes. -/
def drainRec (e : Nat) (ws : List Word) : List Byte :=
  let n := (ws.getD 8 0).toNat % 2 ^ 32
  leBytes 2 e ++ zeroPad 2 ++ leBytes 4 n ++ leBytes 8 (ws.getD 9 0).toNat ++ leBytes 4 (ws.getD 10 0).toNat ++ zeroPad 44 ++
    padTo 64 ((wordBytes (ws.drop 11)).take n)

/-! ### Sections 5, 7, 8 and 9 -/

/-- A FENCE record. -/
def State.fenceRec (s : State) (k : Nat) (f : Fence) : List Byte :=
  let v := s.fenceView k
  let remote := match f.kind with | .remoteImport _ _ _ => true | _ => false
  leBytes 4 (f.no % 2 ^ 20 + 2 ^ 20 * natOfBool v.2 + 2 ^ 21 * natOfBool (s.watch.contains (s.homeOf k)) +
    2 ^ 22 * natOfBool remote) ++ leBytes 4 (s.waits (s.homeOf k)) ++ leBytes 8 v.1

/-- A FLIT record. -/
def flitRec (f : Flit) : List Byte := flitBytes f ++ leBytes 4 f.crc.toNat

/-- The nodes that are released and not DONE, in the order of section NODE. -/
def State.nodeWorks (s : State) : List Nat :=
  (s.works.filter fun e => match e.2.site with | .node _ _ => true | .ring _ _ => false).map fun e => e.1

/-- A ROUTE record: its node by its place in section NODE. -/
def State.routeRec (s : State) (w : Nat) : List Byte :=
  match s.work? w, Tbl.get? s.pleach.routings w with
  | some x, some r =>
    let who := match x.site with | .node _ _ => s.nodeWorks.idxOf w | .ring _ _ => 2 ^ 31 + s.entryIdx (.work w) % 2 ^ 31
    leBytes 4 who ++ leBytes 4 r.gen ++ leBytes 2 (roExp x.cmd) ++ zeroPad 6 ++ r.bias.flatMap fun b => leBytes 4 b
  | _, _ => []

/-- A REQUEST record. -/
def State.requestRec (s : State) (r : Request) : List Byte :=
  let entry := match r.st with | .launched l _ _ => s.entryIdx (.launch l) | _ => 0xFFFFFFFF
  leBytes 1 r.lno ++ leBytes 1 r.cls ++ leBytes 1 (match r.st with | .queued => 1 | _ => 2) ++ zeroPad 1 ++ leBytes 4 r.num ++
    leBytes 8 r.arrival ++ leBytes 8 r.deadline ++ leBytes 4 entry ++ zeroPad 4

/-! ### The whole snapshot -/

/-- The records of the sections 0 to 9. -/
def State.sections (s : State) : List (List (List Byte)) :=
  let drains := (List.range 526).filterMap fun e => match (s.ep e).frozen with
    | some ws => if drained ws then some (drainRec e ws) else none
    | none => none
  [s.rings.map ringRec, s.entries.map s.entryRec, s.launches.map (fun e => s.launchRec e.1 e.2),
   s.works.filterMap (fun e => match e.2.site with | .node l i => some (s.nodeRec e.2 l i) | .ring _ _ => none),
   (List.range 526).map s.epRec, s.fences.map (fun e => s.fenceRec e.1 e.2), drains,
   (s.fab.hold.filter fun h => decide (h.1 < s.stop.cut) && h.2.src % 2 ^ 15 != s.fab.chip).map (fun h => flitRec h.2), s.stop.routes.map s.routeRec,
   (s.svc.requests.filter fun e => e.2.held).map fun e => s.requestRec e.2]

/-- The section table: offset and count of each section from `at_`; sections 10 to 15 are zero. -/
def sectionTable : Nat → List (List (List Byte)) → List Byte
  | _, [] => []
  | at_, r :: rs => leBytes 4 at_ ++ leBytes 4 r.length ++ sectionTable (at_ + sumNat (r.map List.length)) rs

/-- The header with a CRC. -/
def State.snapHeader (s : State) (length crc : Nat) : List Byte :=
  let p := s.stop.last
  leBytes 4 0x54554353 ++ leBytes 2 1 ++ leBytes 2 s.fab.chip ++ leBytes 8 s.stop.cut ++ leBytes 8 p.at_ ++
    leBytes 8 s.stop.frozenFtc ++ leBytes 8 s.stop.doneFtc ++ leBytes 1 p.reason ++ leBytes 1 p.scope ++
    leBytes 1 (natOfBool s.stop.late) ++ zeroPad 1 ++ leBytes 4 p.id ++ leBytes 2 p.origin ++ zeroPad 2 ++
    leBytes 4 s.epoch ++ leBytes 1 (phaseCode s.cop.phase + 4 * s.cop.half + 8 * natOfBool s.cop.prev.isSome) ++ zeroPad 3 ++
    leBytes 4 crc ++ leBytes 8 length ++ zeroPad 56
where
  /-- PHASE of MH_EPOCH_STATUS. -/
  phaseCode : EpochPhase → Nat
    | .opening => 0
    | .prepare => 1
    | .drain => 2
    | .catchup => 3

/-- The bytes of the snapshot. -/
def State.snapshot (s : State) : List Byte :=
  let secs := s.sections
  let table := sectionTable 256 secs ++ zeroPad 48
  let body := secs.flatMap fun r => r.flatMap id
  let length := 256 + body.length
  let crc := (crc32 (s.snapHeader length 0 ++ table ++ body)).toNat
  s.snapHeader length crc ++ table ++ body

end Sys2Proof.Machine
end

