-- ==== Sys2Proof/Machine/Stopping.lean ====
section
/-! DEFINITION. The global stop (11 R339-R350): requests from MH_STOP_CTRL and from flits, the cut, what endpoints
report while stopped, the held host writes, and how a stop ends. -/
namespace Sys2Proof.Machine

/-- The fabric group of a chip ID (01 R36; 00 R6). -/
def groupOf (chip : Nat) : Nat := chip / 64

/-- The least ticks from a stop to its end (11 R344). -/
def stopLeast : Nat := 16384

/-! ### Requests (11 R339, R340) -/

/-- SCOPE of a write to MH_STOP_CTRL: 3 is taken as 2. -/
def stopScope (d : Nat) : Nat := min 2 (bitsOf d 58 2)

/-- The earliest tick that a request in this tick may name.
Mark: DEDUCED (notes/assumptions/82.md). -/
def State.stopEarliest (s : State) (scope : Nat) : Nat := if scope = 0 then s.tick + 1 else s.tick + s.lead

/-- Bytes 16 to 23 of a STOP or RESUME flit. -/
def stopWord (op reason scope id : Nat) : Word :=
  BitVec.ofNat 64 (op + 2 ^ 8 * reason + 2 ^ 16 * scope + 2 ^ 32 * (id % 2 ^ 32))

/-- The destination of a group or fabric stop. -/
def State.stopDst (s : State) (scope : Nat) : Nat := if scope = 1 then 0x8000 + groupOf s.fab.chip else 0xFFFF

/-- REFUSED is set. -/
def State.refuseStop (s : State) : State := s.adjStop fun x => { x with refused := true }

/-- May the chip originate a strict flit: it is LOCKED, or has no fabric to send one to (01 R30, R31)?
Mark: DEDUCED (notes/assumptions/82.md). -/
def State.mayOriginate (s : State) : Bool := s.fab.sync == .locked || s.fab.sync == .free

/-- A strict flit goes out; a chip without a fabric has no flits.
Mark: DEDUCED (notes/assumptions/82.md). -/
def State.sendStrict (s : State) (kind dst eff : Nat) (w : Word) : State :=
  if s.fab.sync = .free then s else (s.sendFlit kind dst eff w 0 0).2

/-- STOP from MH_STOP_CTRL or the debug port (11 R339). -/
def State.requestStop (s : State) (reason scope tick : Nat) : State :=
  if s.stop.stopped then s
  else if scope = 0 then s.chipStop reason tick
  else if s.mayOriginate = false then s.refuseStop
  else
    let t := max (s.stopEarliest scope) tick
    let n := (s.stop.sent + 1) % 2 ^ 32
    let p : StopPlan := { at_ := t, reason := reason, scope := scope, id := n, origin := s.fab.chip }
    if s.stopTakes p then
      let s1 := s.adjStop fun x => { x with sent := n }
      (s1.sendStrict 0x20 (s.stopDst scope) t (stopWord 1 reason scope n)).planStop p false
    else s

/-- RESUME or ABANDON from MH_STOP_CTRL: it can end a chip-scope stop, or one that this chip originated.
Mark: DEDUCED (notes/assumptions/82.md). -/
def State.requestEnd (s : State) (isAbandon : Bool) (u : Nat) : State :=
  let p := s.stop.last
  if !s.stop.stopped || s.stop.endAt.isSome then s
  else if p.scope ≠ 0 ∧ p.origin ≠ s.fab.chip then s
  else if u < p.at_ + stopLeast ∨ u < s.stopEarliest p.scope ∨ (isAbandon = false ∧ s.bw.groups = 0) then s.refuseStop
  else if p.scope ≠ 0 ∧ s.mayOriginate = false then s.refuseStop
  else
    let s1 := if p.scope = 0 then s
      else s.sendStrict 0x21 (s.stopDst p.scope) u (stopWord (if isAbandon then 3 else 2) p.reason p.scope p.id)
    s1.adjStop fun x => { x with endAt := some (u, isAbandon) }

/-- A write to MH_STOP_CTRL takes effect; REASON is DEBUG where it came from the debug port.
Mark: DEDUCED (notes/assumptions/82.md). -/
def State.writeStopCtrl (s : State) (who : Agent) (d : Nat) : State :=
  let reason := match who with | .jtag => 2 | _ => 1
  match bitsOf d 60 2 with
  | 1 => s.requestStop reason (stopScope d) (bitsOf d 0 58)
  | 2 => s.requestEnd false (bitsOf d 0 58)
  | 3 => s.requestEnd true (bitsOf d 0 58)
  | _ => s

/-- A flit is discarded and counted in MH_FT_REFUSED. -/
def State.discardFlit (s : State) : State := { s with fab := { s.fab with refused := satInc 32 s.fab.refused } }

/-- A STOP flit that the chip has accepted (11 R339, R346): its stop is scheduled for the tick it names.
Mark: DEDUCED (notes/assumptions/82.md). -/
def State.takeStopFlit (s : State) (f : Flit) : State :=
  let d := f.w0.toNat
  if bitsOf d 0 8 ≠ 1 then s.discardFlit
  else s.planStop { at_ := f.eff, reason := 4, scope := bitsOf d 16 8 % 4, id := bitsOf d 32 32, origin := f.src }
    (decide (f.eff ≤ s.tick))

/-- Is a RESUME flit one that a chip accepts: its OP is valid and it matches the stop in force? -/
def State.endFlitOk (s : State) (f : Flit) : Bool :=
  let op := bitsOf f.w0.toNat 0 8
  s.stop.stopped && (op == 2 || op == 3) && f.src == s.stop.last.origin && bitsOf f.w0.toNat 32 32 == s.stop.last.id &&
    s.stop.last.scope != 0

/-- A RESUME or ABANDON flit that the chip has accepted.
Mark: DEDUCED (notes/assumptions/82.md). -/
def State.takeEndFlit (s : State) (f : Flit) : State :=
  if s.endFlitOk f then
    if s.stop.endAt.isSome then s
    else if bitsOf f.w0.toNat 0 8 = 2 ∧ s.bw.groups = 0 then s.refuseStop
    else s.adjStop fun x => { x with endAt := some (f.eff, bitsOf f.w0.toNat 0 8 == 3) }
  else s.discardFlit

/-! ### The cut (11 R341) -/

/-- A ring at the cut: ACTIVE and FAULTED rings enter STOPPED. -/
def Ring.cut (r : Ring) : Ring :=
  match r.state with
  | .active => { r.leaveActive with state := .stopped, before := .active }
  | .faulted => { r.leaveActive with state := .stopped, before := .faulted }
  | _ => r

/-- A segment whose DISPATCH meets the STOP is recorded as not started. -/
def State.undeliver (s : State) (e : Nat) : State :=
  match (s.ep e).seg with
  | none => s
  | some g =>
    if g.begun.isSome || g.from_ ≠ s.tick then s
    else
      let s1 := s.adjEp e Ep.freed
      match g.owner with
      | .work w i => s1.adjWork w fun x =>
          { x with insts := x.insts.map fun (n : Inst) => if n.no = i then { n with running := false } else n }
      | .task t i => s1.adjTask t fun x =>
          { x with items := x.items.map fun (q : QItem) => if q.inst = some i then { q with inst := none } else q }
      | .gather _ => s1

/-- The record of such a segment: its owner, and the places of a task's items. -/
def State.notBegun (s : State) (e : Nat) : List (SegOwner × List Nat) :=
  match (s.ep e).seg with
  | none => []
  | some g =>
    if g.begun.isSome || g.from_ ≠ s.tick then []
    else match g.owner with
      | .task t i => [(g.owner, match s.task? t with
        | some x => (x.items.filter fun q => q.inst == some i).map fun q => q.pos
        | none => [])]
      | _ => [(g.owner, [])]

/-- Segments recorded as not started become eligible again at the boundary that ends the stop (11 R344). -/
def State.eligibleAgain (s : State) (n : SegOwner × List Nat) : State :=
  match n.1 with
  | .work w i => s.adjWork w fun x =>
      { x with insts := x.insts.map fun (j : Inst) => if j.no = i ∧ j.running = false then { j with since := s.tick } else j }
  | .task t _ => s.adjTask t fun x =>
      { x with items := x.items.map fun (q : QItem) =>
          if n.2.contains q.pos ∧ q.inst = none then { q with since := s.tick } else q }
  | .gather _ => s

/-- A stop that is due at this boundary takes effect: step 6 of 01 R24. -/
def State.applyStop (s : State) : State :=
  match s.stop.plan with
  | none => s
  | some p =>
    if s.stop.stopped || decide (s.tick < p.at_) then s
    else
      let routes := (s.works.filter fun e => match e.2.phase with | .unitRun _ => true | _ => false).map fun e => e.1
      let s1 : State := { (s.countBusyAll s.ftc) with
        rings := Tbl.mapV s.rings fun _ r => r.cut
        stop := { s.stop with stopped := true, plan := none, last := p, cut := s.tick, late := s.stop.planLate,
                              endAt := none, snapDone := false, frozenFtc := 0, doneFtc := 0, routes := routes } }
      let s2 := foldS routes (fun s w => s.phase w .unitWait) s1
      let held := (Tbl.keys s2.eps).flatMap s2.notBegun
      let s3 := (foldS (Tbl.keys s2.eps) State.undeliver s2).adjStop fun x => { x with notBegun := held }
      s3.event 809 0x0E none p.id (p.reason + 2 ^ 8 * p.scope) 0

/-! ### While stopped (11 R341-R343) -/

/-- STOP reaches an endpoint. -/
def State.stopArrives (s : State) (e : Nat) : State :=
  if decide (e < 526) && (s.cutting || (match s.stop.plan with | some p => p.at_ == s.tick + 1 | none => false)) then
    s.adjEp e fun x => { x with stopSent := true }
  else s

/-- An endpoint reports FROZEN with its state words. When within the tick is free.
Mark: DESIGN CHOICE (notes/assumptions/92.md). -/
def State.freeze (s : State) (e : Nat) (words : List Word) : State :=
  let x := s.ep e
  if s.stop.stopped && x.stopSent && x.frozen.isNone && !x.hung && !(decide (e < 512) && s.isFenced (e / 4)) then
    let (k, s1) := s.takeFree
    (s1.adjEp e fun x => { x with frozen := some words }).adjStop fun y => { y with frozenFtc := s.ftc + k % 64 }
  else s

/-- Does the snapshot still wait for an endpoint's freeze report? -/
def State.freezeOwed (s : State) : Bool :=
  s.eps.any fun e => e.2.seg.isSome && e.2.frozen.isNone && !e.2.hung && !(decide (e.1 < 512) && s.isFenced (e.1 / 4))

/-- The snapshot is completely written, on input 7 of the memory port (11 R347). -/
def State.snapshotDone (s : State) : State :=
  if s.stop.stopped && !s.stop.snapDone && !s.freezeOwed then
    let (k, s1) := s.takeFree
    let s2 := s1.adjStop fun x =>
      { x with snapDone := true, doneFtc := s.ftc + k % 64, frozenFtc := if x.frozenFtc = 0 then s.ftc else x.frozenFtc }
    let bs := s2.snapshot
    let s3 := s2.presentAt 7 true (some s.boot.stopBase) (sectorsIn s.boot.stopBase bs.length)
    ((s3.storeBytes s.boot.stopBase bs).mgmtFault fun f => { f with snapped := true }).raise 35
  else s

/-- The ring whose doorbell a host write rings. -/
def HostOp.rings : HostOp → Option Nat
  | .doorbell p r => some (pkey p r)
  | _ => none

/-- A host write to a partition window during a stop: held in order of arrival, or dropped and counted (11 R343).
Mark: DEDUCED (notes/assumptions/84.md). -/
def State.holdWrite (s : State) (o : HostOp) : State :=
  if s.stop.held.length < 4096 then
    let s1 := s.adjStop fun x => { x with held := x.held ++ [o] }
    match o.rings with
    | some k => s1.adjRing k fun r => if r.state = .disabled then r else { r with dbPending := true }
    | none => s1
  else s.adjStop fun x => { x with drops := satInc 16 x.drops }

/-! ### The end of a stop (11 R344, R345) -/

/-- Does the stop end at this boundary? -/
def State.endsStop (s : State) : Bool :=
  s.stop.stopped && (match s.stop.endAt with | some u => decide (u.1 ≤ s.tick) | none => false)

/-- Commands that were aborted at the cut and whose segment did not begin complete. -/
def State.settleUnstarted (s : State) : State :=
  let s1 := foldS (Tbl.keys s.works) (fun s w => match s.work? w with
    | some x =>
      if x.abort.isSome && (x.phase == .running || x.phase == .marshal) && !s.segRuns w then s.settleWork w else s
    | none => s) s
  foldS (Tbl.keys s1.tasks) State.settleTask s1

/-- MX endpoints whose freeze report says that they abandoned a pass, which they run again on RESUME (09 R294, R301). -/
def State.rerunPasses (s : State) : List Nat :=
  (s.eps.filter fun e => decide (e.1 < 512) && e.1 % 4 == 0 && (match e.2.frozen with
    | some ws => bitOf (ws.getD 0 0).toNat 24
    | none => false)).map fun e => e.1

/-- The stop is over before step 1: endpoints go on, ABORTs that were pending are sent in this tick.
Mark: DEDUCED (notes/assumptions/85.md). -/
def State.leaveStop (s : State) : State :=
  let pend := s.stop.aborts
  let again := match s.stop.endAt with | some u => !u.2 | none => false
  let s := s.countBusyAll s.ftc
  let s := if again then s.rerunAt s.rerunPasses else s
  let s := foldS s.stop.notBegun State.eligibleAgain (s.adjStop fun x => { x with notBegun := [] })
  let s1 := s.adjStop fun x => { x with stopped := false, endAt := none, aborts := [], routes := [] }
  let s2 : State := { s1 with eps := Tbl.mapV s1.eps fun _ x => { x with stopSent := false, frozen := none } }
  let s3 := foldS pend (fun s a => if (s.ep a.1).seg.isSome then s.send (.abort a.1 a.2) else s) s2
  s3.settleUnstarted

/-- ABANDON: in the tick that begins at U an urgent abort of every started entry is decided (11 R345).
Mark: DEDUCED (notes/assumptions/58.md). -/
def State.abandonEntries (s : State) : State :=
  foldS s.entries (fun s e => match e with
    | .work w => s.decideAbort (.work w) .stopped 0x02E6 true
    | .launch l => s.decideAbort (.launch l) .stopped 0x02E6 true) s

/-- Rings return to the states they held before the stop, or go to FAULTED where their context was lost. -/
def State.unstopRings (s : State) : State :=
  foldS (Tbl.keys s.rings) (fun s k => match s.ring? k with
    | none => s
    | some r =>
      if r.state ≠ .stopped then s
      else if r.before ≠ .active then s.adjRing k fun r => { r with state := r.before, lostStop := false }
      else if r.lostStop then
        s.adjRing k fun r => { r with state := .faulted, lostStop := false, faultStatus := Status.memDetected.code, faultIndex := r.ci }
      else s.activate false k) s

/-- A write of 1 to MH_HANG_CTRL.CLEAR: every hang record becomes invalid. -/
def State.clearHangs (s : State) : State := s.adjFlt fun f => { f with recs := [] }

end Sys2Proof.Machine
end

