-- ==== Sys2Proof/Machine/Start.lean ====
section
/-! DEFINITION. How commands start (03 R80-R88, R97-R99; 04 R117; 05 R165-R169; 13 R376-R381): the checks of an entry,
which candidate a sequencer accepts, and what a start, a resumed routine and a released node do. -/
namespace Sys2Proof.Machine

/-! ### ABORT (07 R218, R219) -/

/-- SCOPE of ABORT: 0 ENTRY, 1 RING, 2 CONTEXT. -/
def abScope (e : Cmd) : Nat := fld e 12 0 2
/-- RING of ABORT. -/
def abRing (e : Cmd) : Nat := fld e 8 0 14
/-- CONTEXT of ABORT. -/
def abCtx (e : Cmd) : Nat := fld e 10 0 12
/-- SEQ of ABORT. -/
def abSeq (e : Cmd) : Nat := fld e 16 0 64

/-- ABORT: its checks. -/
def State.chkAbort (s : State) (p : Nat) (e : Cmd) : Option Res :=
  let sc := abScope e
  let r := s.ring? (pkey p (abRing e))
  firstOf [need (zeros e [(9, 6, 2), (11, 4, 4), (12, 3, 5), (13, 0, 24), (24, 0, 64)]) (mal 0x0102),
    need (sc != 2 || abRing e == 0) (mal 0x0104),
    need (decide (2 ≤ sc) || r.isSome) (acc 0x0005),
    need (sc != 1 || abRing e != 0) (acc 0x0290),
    need (decide (2 ≤ sc) || abCtx e == 0) (mal 0x0104),
    need (sc != 2 || (s.ctx? (pkey p (abCtx e))).isSome) (acc 0x0006),
    need (sc != 3) (mal 0x0104),
    (if sc = 0 then need (match r with | some x => decide (1 ≤ abSeq e ∧ abSeq e ≤ x.lastSeq) | none => false) (acc 0x0291)
     else need (abSeq e == 0) (mal 0x0104))]

/-- The started entry of a SEQ of a ring. -/
def State.entryBySeq (s : State) (p r seq : Nat) : Option Nat :=
  (s.works.find? fun e => e.2.site == .ring p r && e.2.seq == seq).map fun e => e.1

/-- An ABORT decides what it aborts, in step 5, and completes at this boundary (07 R219). -/
def State.fireAbort (s : State) (w : Nat) : State :=
  match s.work? w with
  | none => s
  | some x => match x.phase with
    | .aborting due =>
      if s.tick ≤ due then s
      else
        let e := x.cmd
        let urgent := flag e 12 2
        match abScope e with
        | 0 =>
          if x.site = .ring x.part (abRing e) ∧ x.seq = abSeq e then s.finish w Res.ok
          else match s.entryBySeq x.part (abRing e) (abSeq e) with
          | none => s.finish w (Res.of .alreadyDone 0)
          | some v => match s.work? v with
            | some y =>
              if s.isDone y then s.finish w (Res.of .alreadyDone 0)
              else (s.finish w Res.ok).decideAbort (.work v) .aborted 0 urgent
            | none => s.finish w (Res.of .alreadyDone 0)
        | 1 => (s.finish w Res.ok).decideAbort (.ring (pkey x.part (abRing e))) .aborted 0 urgent
        | _ => (s.finish w Res.ok).decideAbort (.ctx (pkey x.part (abCtx e))) .aborted 0 urgent
    | _ => s

/-- The ABORTs of step 5. -/
def State.fireAborts (s : State) : State := foldS (Tbl.keys s.works) State.fireAbort s

/-! ### The checks of a command (03 R83, R98; 04 R108) -/

/-- The command's own checks, in the order of its field table. -/
def State.ownChk (s : State) (x : Work) : Option Res :=
  let e := x.cmd
  let p := x.part
  match opcodeOf e with
  | 0x00 => none
  | 0x01 => s.chkLaunch x
  | 0x02 => s.chkDispatch x
  | 0x03 => s.chkGather x
  | 0x04 => s.chkRoute x
  | 0x05 => s.chkGroupedMm x
  | 0x08 => s.chkFenceWait x
  | 0x09 => s.chkFenceSignal x
  | 0x0A => s.chkWriteValue x
  | 0x0B => s.chkCopy x
  | 0x0C => s.chkTimestamp x
  | 0x0D => s.chkCond x
  | 0x0E => s.chkLoop x
  | 0x0F => s.chkCall x
  | 0x10 => s.chkFeed x
  | 0xC0 => s.chkCtxCreate p e
  | 0xC1 => s.chkCtxDestroy p e
  | 0xC2 => s.chkRingCreate p e
  | 0xC3 => s.chkRingConfig p e
  | 0xC4 => s.chkRingDestroy p e
  | 0xC5 => s.chkRingQuery p e
  | 0xC6 => s.chkAbort p e
  | 0xC8 => s.chkGraphLoad p e
  | 0xC9 => s.chkGraphPatch p e
  | 0xCA => s.chkGraphUnload p e
  | 0xCB => s.chkGraphQuery p e
  | 0xD0 => s.chkFenceAlloc p e
  | 0xD1 => s.chkFenceFree p e
  | 0xD2 => s.chkFenceExport p e
  | 0xD3 => s.chkFenceImport p e
  | 0xD4 => s.chkFenceQuery p e
  | 0xD8 => s.chkMemAlloc p e
  | 0xD9 => s.chkMemFree p e
  | 0xE0 => s.chkTableCreate p e
  | 0xE1 => s.chkTableStage p e
  | 0xE2 => s.chkTableCommit p e
  | 0xE3 => s.chkTableDestroy p e
  | 0xE4 => s.chkTableQuery p e
  | 0xE8 => s.chkLayerCreate p e
  | 0xE9 => s.chkLayerDestroy p e
  | 0xEA => s.chkBiasSet p e
  | 0xEB => s.chkLayerQuery p e
  | _ => some (Res.of .badOpcode 0x0106)

/-- Does an entry at an index run past the end of its ring's buffer? -/
def wraps (r : Ring) (i len : Nat) : Bool := decide (2 ^ r.sizeLog2 < i % 2 ^ r.sizeLog2 + len)

/-- The checks of 03 R83 on an entry of ring `r` of a partition, but for where it stands in the buffer and its own. -/
def State.headChk (s : State) (r : Nat) (e : Cmd) : List (Option Res) :=
  let op := opcodeOf e
  [need (headerOk e) (mal 0x0102), need (s.inDispatch op) (Res.of .badOpcode 0x0106),
   need (r == 0 || !isAdmin op) (Res.of .badOpcode 0x0107),
   need (r != 0 || isAdmin op || op == 0) (Res.of .badOpcode 0x0108), need (lenOk e) (mal 0x0103)]

/-- The checks of 03 R83 before a command's own: for an entry all of them, for a node the opcode and LEN of its
effective body (05 R165). -/
def State.entryChk (s : State) (x : Work) : Option Res :=
  let e := x.cmd
  let op := opcodeOf e
  match x.site with
  | .ring p r =>
    firstOf (need (match s.ring? (pkey p r) with | some y => !wraps y x.idx (lenOf e) | none => true) (mal 0x0101) ::
      s.headChk r e)
  | .node _ _ => firstOf [need (s.inDispatch op) (Res.of .badOpcode 0x0106), need (lenOk e) (mal 0x0103)]

/-! ### What a command's start does -/

/-- A ring as it stood at the boundary of the current tick: with the drops counted then, without a slot that the tick granted, and with the entry
that the tick has started still staged (03 R85, R105).
Mark: DEDUCED (notes/assumptions/30.md). -/
def State.ringAtBoundary (s : State) (k : Nat) (r : Ring) : Ring :=
  let begun := s.works.any fun e => e.2.site == .ring (keyPart k) (keyLocal k) && e.2.started == s.tick
  { r with slot := if r.slotFrom = s.tick then none else r.slot, piDrops := r.dropsWas % 2 ^ 16, dbIgnored := r.dropsWas / 2 ^ 16,
           staged := if begun then some { idx := r.ci, words := [], since := s.tick }
                     else r.staged.filter fun st => decide (st.since ≤ s.tick) }

/-- The report of an admin query, as things stand when it starts (03 R105; 05 R160; 06 R185; 08 R263; 09 R274).
Mark: DEDUCED (notes/assumptions/30.md). -/
def State.queryReport (s : State) (p : Nat) (e : Cmd) : List Byte :=
  match opcodeOf e with
  | 0xC5 => (match s.ring? (pkey p (fld e 8 0 14)) with
    | some r => (s.ringAtBoundary (pkey p (fld e 8 0 14)) r).report s.ftc
    | none => [])
  | 0xCB => (match s.graphOf p (fld e 8 0 13) with | some u => s.graphReport u | none => [])
  | 0xD4 => s.fenceRecord (pkey p (fenceNo e))
  | 0xE4 => (match s.tableOf p (fld e 8 0 12) with | some u => s.tableReport u | none => [])
  | _ => s.layerReport (layerKey p e)

/-- Is the opcode an admin query? -/
def isQuery (op : Nat) : Bool := decide (op = 0xC5 ∨ op = 0xCB ∨ op = 0xD4 ∨ op = 0xE4 ∨ op = 0xEB)

/-- The byte that holds LOC of a query's DEST. -/
def queryLocByte (op : Nat) : Nat := if op = 0xD4 then 12 else 10

/-- An admin command that has passed its checks is in progress on the general complex until its routine resumes
(03 R97, 12 R354): a query writes its report, an ABORT waits for what it aborts, and EXPERT_BIAS_SET reads its vector.
Mark: DEDUCED (notes/assumptions/29.md). -/
def State.beginAdmin (s : State) (w : Nat) (x : Work) : State :=
  let e := x.cmd
  let op := opcodeOf e
  let c0 := pkey x.part 0
  if isQuery op then s.phase w (.io (.report x.report) s.tick)
  else match op with
  | 0xC6 => s.phase w (.aborting (s.tick + 1))
  | 0xC8 => (s.hold w [s.mrefLoc c0 e 16]).phase w (.io .admin s.tick)
  | 0xE0 => (if flag e 13 3 then s else s.hold w [s.mrefLoc c0 e 48]).phase w (.io .admin s.tick)
  | 0xE1 => (s.hold w [s.mrefLoc c0 e 16, s.mrefLoc c0 e 32]).phase w (.io .admin s.tick)
  | 0xD3 => (s.adjWork w fun x => { x with bound := (s.homeExport x.part e).map fun y => y.no }).phase w (.io .admin s.tick)
  | 0xEA => ((s.hold w [s.mrefLoc c0 e 16]).issueRead c0 4 (s.mrefLoc c0 e 16) (4 * s.nexpOf (layerKey x.part e))).phase w (.io .bias s.tick)
  | _ => s.phase w (.io .admin s.tick)

/-- A command that has passed its checks begins. -/
def State.begin_ (s : State) (w : Nat) (x : Work) (desc : DescSt) : State :=
  match opcodeOf x.cmd with
  | 0x00 => s.beginNop w
  | 0x01 => s.beginLaunch w x
  | 0x02 => s.beginDispatch w x desc
  | 0x03 => s.beginGather w x
  | 0x04 => s.beginRoute w x
  | 0x05 => s.beginGroupedMm w x
  | 0x08 => s.beginFenceWait w x
  | 0x09 => s.beginFenceSignal w x
  | 0x0A => s.beginWriteValue w x
  | 0x0B => s.beginCopy w x
  | 0x0C => s.beginTimestamp w x
  | 0x0D => s.beginPred w x
  | 0x0E => s.beginPred w x
  | 0x0F => s.tryChild w (fld x.cmd 8 0 13) false
  | 0x10 => s.beginFeed w x
  | _ => s.beginAdmin w x

/-- Does a command in this phase wait for something, so that its routine has parked (13 R379)?
Mark: DEDUCED (notes/assumptions/42.md). -/
def Phase.parks : Phase → Bool
  | .decided _ _ => false
  | .launching _ => false
  | .running => false
  | _ => true

/-- At cycle 104 every routine of the tick that has not ended parks, and is counted (13 R377, R379).
Mark: DEDUCED (notes/assumptions/42.md). -/
def State.parkAll (s : State) : State :=
  foldS s.ran (fun s r => match s.work? r.2.2.2 with
    | some x => if x.phase.parks then { s with bw := { s.bw with parks := satInc 32 s.bw.parks } } else s
    | none => s) s

/-- Do the admin commands of a partition wait, since no general-complex core runs (12 R364)? -/
def State.adminWaits (s : State) (p : Nat) : Bool := (s.fw.duties.getD (p % 8) (0, false)).2

/-- Note which command the sequencer that has just accepted one runs (13 R377; 15 R432). -/
def State.noteRun (s : State) (w : Nat) : State :=
  match s.work? w, s.accepted with
  | some x, q :: _ => { s with ran := (q, opcodeOf x.cmd, x.ringNo, w) :: s.ran }
  | _, _ => s

/-- The routine of a command runs from its first word: the checks, then its start.
Mark: DESIGN CHOICE (notes/assumptions/138.md). -/
def State.runRoutine (s : State) (w : Nat) (desc : DescSt) : State :=
  match s.work? w with
  | none => s
  | some x =>
    match s.entryChk x with
    | some r => s.decideEnd w r
    | none =>
      if isAdmin (opcodeOf x.cmd) && s.adminWaits x.part then s
      else match s.ownChk x with
       | some r => s.decideEnd w r
       | none => s.begin_ w x desc

/-! ### Sequencers (05 R169; 13 R375-R381) -/

/-- Is a sequencer's group enabled? -/
def State.seqrOn (s : State) (q : Nat) : Bool := decide (q < 32) && bitOf s.bw.groups (q / 8)

/-- The sequencers that have accepted nothing in this tick. -/
def State.freeSeqrs (s : State) : List Nat :=
  (List.range 32).filter fun q => s.seqrOn q && !s.accepted.contains q

/-- A microword parity error (13 R381): the group of the copy is disabled, the syndrome kept, a machine check raised. Which
quarters failed is free.
Mark: DESIGN CHOICE (notes/assumptions/43.md). -/
def State.parityError (s : State) (y : Parity) (op : Nat) : State :=
  let (k, s1) := s.takeFree
  let s2 : State := { s1 with bw := { s1.bw with groups := clearBit s1.bw.groups (y.seqr % 32 / 8) } }
  if y.dispatch then s2.machineCheck 2 y.seqr op 0 op
  else s2.machineCheck 1 y.seqr y.addr (1 + k % 15) op

/-- The sequencer that accepts a candidate; which of the free ones is not stated, but a parity error names it.
Mark: DESIGN CHOICE (notes/assumptions/43.md). -/
def State.takeSeqr (s : State) (y : Option Parity) : Option Nat × State :=
  match y with
  | some y => if s.freeSeqrs.contains y.seqr then (some y.seqr, { s with accepted := y.seqr :: s.accepted }) else (none, s)
  | none =>
    let (q, s1) := s.takeOne s.freeSeqrs
    match q with
    | some q => (some q, { s1 with accepted := q :: s1.accepted })
    | none => (none, s)

/-- Run the routine of a new or parked command, or meet its parity error. -/
def State.runOrPark (s : State) (w : Nat) (desc : DescSt) (y : Option Parity) : State :=
  match y with
  | none => (s.noteRun w).runRoutine w desc
  | some y => match s.work? w with
    | some x => s.parityError y (opcodeOf x.cmd)
    | none => s

/-! ### Staged entries (03 R80-R87; 04 R117) -/

/-- Does an earlier started entry of the ring hold back every later one: one with FENCE_AFTER, or a FENCE_WAIT? -/
def State.heldBack (s : State) (p r : Nat) : Bool :=
  s.works.any fun e => e.2.site == .ring p r && (fenceAfterOf e.2.cmd || opcodeOf e.2.cmd == 0x08)

/-- Slots that an entry needs (04 R116, 05 R166). -/
def State.entrySlots (s : State) (p : Nat) (e : Cmd) : Nat := if opcodeOf e = 0x01 then s.launchSlots p e else 1

/-- May an entry of a ring start (04 R117; 03 R97 for ring 0)? -/
def State.startOk (s : State) (p r : Nat) (e : Cmd) : Bool :=
  let mine := s.works.any fun x => x.2.site == .ring p r
  (r != 0 || !mine) && (!barrierOf e || !mine) && !s.heldBack p r && (opcodeOf e != 0x10 || s.feedRoom p e) &&
    s.slotsFree p (s.entrySlots p e)

/-- Is the staged entry of a ring a candidate in this tick? -/
def State.entryReady (s : State) (k : Nat) (r : Ring) : Bool :=
  match r.staged with
  | some st => r.state == .active && r.slot.isSome && decide (st.since ≤ s.tick) && s.startOk (keyPart k) (keyLocal k) st.words
  | none => false

/-- Rank of a staged entry (03 R87, 05 R169). -/
def Ring.rank (r : Ring) : List Nat :=
  [(match r.staged with | some st => st.since | none => 0), 1, r.slot.getD 0]

/-! ### Ready nodes (05 R168, R169) -/

/-- Is the descriptor at hand, or not needed? -/
def DescSt.settled : DescSt → Bool
  | .reading => false
  | _ => true

/-- Is node `i` of a launch ready to be released? -/
def Launch.nodeReady (y : Launch) (tick i : Nat) : Bool :=
  match y.nodes.getD i .outside with
  | .waiting _ (some t) d _ => !y.stopped && decide (t ≤ tick) && d.settled
  | _ => false

/-- Rank of a ready node. -/
def Launch.rank (y : Launch) (i : Nat) : List Nat :=
  match y.nodes.getD i .outside with
  | .waiting _ (some t) _ _ => [t, 0, y.cls, y.order, i]
  | _ => []

/-- May node `i` of a launch be released in this tick? A FEED waits until its task's queue has room (04 R127).
Mark: DESIGN CHOICE (notes/assumptions/163.md). -/
def State.nodeMay (s : State) (y : Launch) (i : Nat) : Bool :=
  y.nodeReady s.tick i && (opcodeOf (s.effBody y i) != 0x10 || s.feedRoom y.part (s.effBody y i))

/-- Has a command held a sequencer in this tick? -/
def State.onSeqr (s : State) (w : Nat) : Bool := s.ran.any fun r => r.2.2.2 == w

/-- The boundary at which a parked command that can go on by itself becomes a candidate: the tick in which its predicate falls
due, or that in which it found no sequencer. -/
def Work.backAt (x : Work) : Option Nat :=
  match x.phase with
  | .predDue t => some t
  | .predVal _ t => some t
  | _ => x.seqFrom

/-- Rank of a parked command that goes on: as one that became ready at that boundary (13 R379), where nothing says which in the
tick that runs. -/
def State.backRank (s : State) (x : Work) : List Nat :=
  let t := x.backAt.getD s.tick
  match x.site with
  | .ring p r => [t, 1, ((s.ring? (pkey p r)).bind fun y => y.slot).getD 0]
  | .node l i => [t, 0, x.cls, (match s.launch? l with | some y => y.order | none => 0), i]

/-- The ranks of all candidates of this tick: staged entries, ready nodes, and commands that resume.
Mark: DEDUCED (notes/assumptions/42.md). -/
def State.ranks (s : State) : List (List Nat) :=
  (s.rings.filter fun e => s.entryReady e.1 e.2).map (fun e => e.2.rank) ++
    (s.launches.flatMap fun e => ((List.range e.2.nodes.length).filter fun i => s.nodeMay e.2 i).map fun i => e.2.rank i) ++
    (s.works.filter fun e => !s.onSeqr e.1 && e.2.abort.isNone && (match e.2.backAt with
      | some t => decide (t ≤ s.tick)
      | none => false)).map fun e => s.backRank e.2

/-- Is a candidate of this rank among those that the free sequencers take? -/
def State.turn (s : State) (rank : List Nat) : Bool :=
  decide ((s.ranks.filter fun r => lexLe r rank && r != rank).length < s.freeSeqrs.length)

/-! ### A start -/

/-- A started command before its routine has run. -/
def Work.fresh (site : Site) (p c ringNo seq cls : Nat) (e : Cmd) (idx tick : Nat) (d : DescSt) : Work :=
  { site := site, part := p, ctx := c, ringNo := ringNo, seq := seq, cls := cls, cmd := e, idx := idx, started := tick,
    phase := .parked d, kern := .atStart, pins := [], locs := [], epochPin := none, insts := [], segUs := 0, itemNs := 0, abort := none,
    failed := none, iter := 0, timeoutUs := 0, ticks := 0, timedOut := false, released := tick, recs := 0 }

/-- Add a started command. -/
def State.addWork (s : State) (x : Work) : Nat × State :=
  (s.nextWork, { s with works := Tbl.set s.works s.nextWork x, nextWork := s.nextWork + 1 })

/-- The next entry's fetch, in the tick in which a sequencer accepts the staged one; a slot is not held past its
slice for it (03 R80, R86). -/
def Ring.fetchNext (r : Ring) : Ring :=
  if r.nextCi ≠ r.sampled ∧ 0 < r.sliceLeft ∧ r.slot.isSome = true then { r with fetch := some r.nextCi } else r

/-- The ring after its staged entry has been accepted. -/
def Ring.accept (r : Ring) (len : Nat) : Ring :=
  ({ r with staged := none, stall := none, nextCi := (r.nextCi + len) % 2 ^ 32, lastSeq := r.lastSeq + 1 } : Ring).fetchNext

/-- The entry that a ring has staged, as the started command it becomes (03 R83). -/
def Ring.entryWork (x : Ring) (p r tick : Nat) (st : Staged) : Work :=
  { Work.fresh (.ring p r) p (keyLocal x.ctx) x.no (x.lastSeq + 1) (classOf st.words) st.words st.idx tick .notNeeded with
    timeoutUs := x.timeoutUs }

/-- A sequencer accepts the staged entry of a ring where it is a candidate in its turn: the number of the command that
starts, and the state before its routine runs (03 R81, R83). -/
def State.takeEntry (s : State) (p r : Nat) (y : Option Parity) : Option (Nat × State) :=
  let k := pkey p r
  match s.ring? k with
  | none => none
  | some x => match x.staged with
    | none => none
    | some st =>
      if s.stop.stopped || !s.entryReady k x || !s.turn x.rank then none
      else match s.takeSeqr y with
      | (none, _) => none
      | (some q, s1) =>
        let s1 := s1.adjRing k fun r => r.accept (lenOf st.words)
        let s2 := s1.issueFetch k
        let report := if isQuery (opcodeOf st.words) then s.queryReport p st.words else []
        let (w, s3) := s2.addWork { x.entryWork p r s.tick st with report := report }
        some (w, s3.event (768 + q) 0x03 (some p) (x.no + 2 ^ 16 * opcodeOf st.words + 2 ^ 24 * classOf st.words)
          ((x.lastSeq + 1) % 2 ^ 32) ((x.lastSeq + 1) / 2 ^ 32))

/-- An entry starts. -/
def State.startEntry (s : State) (p r : Nat) (y : Option Parity) : State :=
  match s.takeEntry p r y with
  | some (w, s1) => s1.runOrPark w .notNeeded y
  | none => s

/-- Node `i` of a launch, as the started command it becomes (05 R165). -/
def State.nodeWork (s : State) (x : Launch) (l i : Nat) (d : DescSt) (k : Kern) : Work :=
  { Work.fresh (.node l i) x.part x.ctx x.ringNo x.seq x.cls (s.effBody x i) i s.tick d with
    kern := k, pins := k.pin.toList }

/-- A sequencer accepts a ready node in its turn: the number of the command that starts, the state before its routine
runs, and its descriptor (05 R165, R168). -/
def State.takeNode (s : State) (l i : Nat) (y : Option Parity) : Option (Nat × State × DescSt) :=
  match s.launch? l with
  | none => none
  | some x => match x.nodes.getD i .outside with
    | .waiting _ (some t) d pin =>
      if s.stop.stopped || !s.nodeMay x i || !s.turn [t, 0, x.cls, x.order, i] then none
      else match s.takeSeqr y with
      | (none, _) => none
      | (some _, s1) =>
        let (w, s2) := s1.addWork (s.nodeWork x l i d pin)
        some (w, s2.adjLaunch l fun x => { x with nodes := x.nodes.set i (.running w) }, d)
    | _ => none

/-- A node is released. -/
def State.releaseNode (s : State) (l i : Nat) (y : Option Parity) : State :=
  match s.takeNode l i y with
  | some (w, s1, d) => s1.runOrPark w d y
  | none => s

/-- A command starts where it stands: as the staged entry of its ring, or as the node of its launch, whose words it
gives. -/
def State.startAt (s : State) (at_ : Site) (op : Nat) (e : Cmd) : State :=
  let cmd := withOpcode op e
  match at_ with
  | .ring p r => (match s.ring? (pkey p r) with
    | some x => (match x.staged with
      | some st => if st.words = cmd then s.startEntry p r none else s
      | none => s)
    | none => s)
  | .node l i => (match s.launch? l with
    | some x => if s.effBody x i = cmd then s.releaseNode l i none else s
    | none => s)

/-! ### A resumed routine (13 R379) -/

/-- Where a query's report goes. -/
def queryLoc (e : Cmd) : Loc :=
  if flag e (queryLocByte (opcodeOf e)) 0 then .host (fld e 16 0 64) else .dev 0 (fld e 16 0 64)

/-- The memory access of a parked command has succeeded.
Mark: DEDUCED (notes/assumptions/29, 34, 75.md). -/
def State.ioDone (s : State) (w : Nat) (x : Work) (k : IoKind) (host : List Word) : State :=
  match k with
  | .write n v => (s.writeLoc x.ck (x.locs.headD (.host 0)) (leBytes n v)).decideEnd w Res.ok
  | .ack => s.decideEnd w Res.ok
  | .report bs =>
    let s1 := match queryLoc x.cmd with
      | .host a => s.writeLoc (pkey x.part 0) (.host a) bs
      | .dev _ a => s.storeBytes a bs
    s1.decideEnd w Res.ok
  | .indices => s.gatherRead w x host
  | .groups => s.groupsRead w x host
  | .bias =>
    let l := x.locs.headD (.host 0)
    let n := s.nexpOf (layerKey x.part x.cmd)
    let bytes := if l.isHost then wordBytes host else s.readLoc l (4 * n)
    let v := (List.range n).map fun i => leNat ((bytes.drop (4 * i)).take 4)
    if v.all isFin32 then
      let r : Routing := { layer := layerKey x.part x.cmd, bias := v, gen := 0, offered := [], spilled := [], residual := 0,
                           nans := 0 }
      (s.adjPleach fun q => { q with routings := Tbl.set q.routings w r }).decideEnd w Res.ok
    else s.decideEnd w (mal 0x0226)
  | .admin => s.decideEnd w Res.ok

/-- What an admin command in progress is decided with: a GRAPH_PATCH counts now. -/
def State.adminOutcome (s : State) (x : Work) : Res :=
  if opcodeOf x.cmd = 0xC9 then (s.chkPatchRoom x.part x.cmd).getD Res.ok else Res.ok

/-- A GRAPH_PATCH that was decided in this tick counts the launches that started after it in the tick too (05 R163). -/
def State.recountPatch (s : State) (w : Nat) : State :=
  match s.work? w with
  | some x => (match x.phase with
    | .decided r due =>
      if opcodeOf x.cmd = 0xC9 ∧ due = s.tick + 1 ∧ s.patchBusy x.part x.cmd = true ∧
          (r = Res.ok ∨ r = acc 0x0001 ∨ r = acc 0x0252) then s.decideEnd w (Res.of .graphBusy 0x0256)
      else s
    | _ => s)
  | none => s

/-- The access of a parked command is over; an admin command in progress has none, and is decided. -/
def State.ioOver (s : State) (w : Nat) (x : Work) (k : IoKind) (io : Io) : State :=
  match k, io with
  | .admin, _ => s.decideEnd w (s.adminOutcome x)
  | .indices, .fail why a => (s.noteFail why).gatherReadFails w x why a
  | _, .fail why a => (s.noteFail why).decideEnd w (ioRes why a)
  | k, .ok host => s.ioDone w x k host

/-- A parked command goes on: in the tick in which it parked on the sequencer that it holds, later on one that accepts it in
its turn (13 R377-R379). It then does what `act` says; without a sequencer it is a candidate from this boundary on. -/
def State.withSeqr (s : State) (w : Nat) (act : State → State) : State :=
  if s.onSeqr w then act s
  else match s.work? w with
  | none => s
  | some x =>
    let wait := s.adjWork w fun x => { x with seqFrom := some (x.seqFrom.getD s.tick) }
    if s.turn (s.backRank x) then match s.takeSeqr none with
      | (some _, s1) => act ((s1.adjWork w fun x => { x with seqFrom := none }).noteRun w)
      | (none, _) => wait
    else wait

/-- A parked command's routine resumes: its access has returned, its unit has run, or it starts over. -/
def State.resume (s : State) (w : Nat) (io : Io) (y : Option Parity) : State :=
  match s.work? w with
  | none => s
  | some x =>
    if s.stop.stopped then s
    else match y with
    | some y => if x.phase.parks && s.freeSeqrs.contains y.seqr then s.parityError y (opcodeOf x.cmd) else s
    | none => match x.phase with
      | .parked d => s.withSeqr w fun s => s.runRoutine w d
      | .io k since =>
        if s.tick < since ∨ (k = .groups ∧ x.mmNone io = true) ∨ (isAdmin (opcodeOf x.cmd) ∧ s.adminWaits x.part) then s
        else s.withSeqr w fun s => s.ioOver w x k io
      | .unitRun _ => s.withSeqr w fun s => (s.noteIo io).runRoute w io
      | _ => s

/-- A kernel descriptor's read returns: for a DISPATCH on a ring by its command, for a node by its launch (04 R121; 05
R168). -/
def State.descriptorRead (s : State) (w : Nat) (io : Io) : State :=
  match s.work? w with
  | some x =>
    if x.phase ≠ .descriptor ∨ s.stop.stopped = true then s
    else s.withSeqr w fun s => match io with
    | .fail why a => (s.noteFail why).decideEnd w (ioRes why a)
    | .ok _ => s.descriptorSeen w (s.readByte (s.locAddr (x.locs.headD (.dev 0 0)))).toNat
  | none => s

/-- What a started command does in a tick that its rule fixes, whether or not its routine has resumed: the write of
WRITE_VALUE and TIMESTAMP is made in the tick after the start, where a host write then ends the command and a device write
waits for its acknowledgement (04 R145, R147); a GROUPED_MM with nothing to do ends (09 R291).
Mark: DEDUCED (notes/assumptions/34, 168.md). -/
def State.dueAccess (s : State) (w : Nat) : State :=
  match s.work? w with
  | none => s
  | some x => match x.phase with
    | .io (.write n v) since =>
      if s.tick < since then s
      else
        let l := x.locs.headD (.host 0)
        let s1 := s.writeLoc x.ck l (leBytes n v)
        if l.isHost then s1.decideEnd w Res.ok else s1.phase w (.io .ack s.tick)
    | .io .groups since =>
      if s.mmIdle x then s.groupsRead w x []
      else if x.mmHost && since == s.tick then
        (let (k, s1) := s.takeFree
         if Config.flip k then s1.groupsRead w x [] else s1)
      else s
    | _ => s

/-- Every such command. -/
def State.dueAccesses (s : State) : State := foldS (Tbl.keys s.works) State.dueAccess s

/-! ### Fetching (03 R80, R84) -/

/-- The words of an entry of `len` granules at an index of a device ring, up to the end of the buffer. -/
def State.entryWords (s : State) (r : Ring) (i len : Nat) : Cmd :=
  let n := min len (2 ^ r.sizeLog2 - i % 2 ^ r.sizeLog2)
  bytesWords (2 * n) (s.readBytes (r.granule i) (16 * n))

/-- The read of an entry fails, unless its fetch was discarded: the ring enters FAULTED, and a context fault is recorded with the entry's address.
Mark: DEDUCED (notes/assumptions/16.md); DESIGN CHOICE (notes/assumptions/161.md). -/
def State.fetchFails (s : State) (k : Nat) (why : IoFail) : State :=
  match s.ring? k with
  | none => s
  | some r =>
    if r.stale ≠ 0 then s.adjRing k fun r => { r with stale := r.stale - 1 }
    else match r.fetch with
    | none => s
    | some i =>
      if s.stop.stopped then s
      else
        let s1 := (s.noteFail why).adjRing k fun r => { r with fetch := none }
        { s1 with later := s1.later ++ [.fetchFault k (ioStatus why).code i (r.granule i)] }

/-- A fetched entry arrives: it is staged, or discarded where it is not wholly published or its fetch was discarded.
Mark: DESIGN CHOICE (notes/assumptions/161.md). -/
def State.entryArrives (s : State) (k : Nat) (io : Io) : State :=
  match io with
  | .fail why _ => s.fetchFails k why
  | .ok host =>
    match s.ring? k with
    | none => s
    | some r =>
      if r.stale ≠ 0 then s.adjRing k fun r => { r with stale := r.stale - 1 }
      else match r.fetch with
      | none => s
      | some i =>
        if s.stop.stopped then s
        else
          let s := if r.loc then s.useHost r.ctx (r.granule i) else s
          let head := if r.loc then host else s.entryWords r i 1
          let len := lenOf head
          let words := if r.loc then (host ++ List.replicate 512 0).take (2 * len) else s.entryWords r i len
          if sub32 r.sampled i < len then s.adjRing k fun r => { r with fetch := none, scanStop := true }
          else s.adjRing k fun r => { r with fetch := none, staged := some { idx := i, words := words, since := s.tick + 1 } }

/-! ### Launches progress (05 R166-R168) -/

/-- Nodes that hold a slot of the window: entered and not ended before this boundary. -/
def Launch.inWindow (y : Launch) : Nat :=
  (y.nodes.filter fun n => match n with | .waiting _ _ _ _ => true | .running _ => true | _ => false).length

/-- What the KERNEL MREF of a node's body resolves to as the node enters the window (06 R198). -/
def State.kernOf (s : State) (ck : Nat) (e : Cmd) : Kern :=
  if opcodeOf e ≠ 0x02 ∨ mrefHost e 40 = true then .atStart
  else match s.mrefA ck e 40 with
    | some r => .bad r
    | none => (match s.resolve ck (mrefHandle e 40) with | some o => .object o | none => .atStart)

/-- Node `i` enters the window: a DISPATCH's KERNEL is resolved and its descriptor read is issued. -/
def State.enterNode (s : State) (l : Nat) (y : Launch) (i : Nat) : State :=
  let e := s.effBody y i
  let ck := pkey y.part y.ctx
  let k := s.kernOf ck e
  let needs := k.pin.isSome && (s.mrefB ck e 40 64 64).isNone
  s.adjLaunch l fun y =>
    { y with nodes := y.nodes.set i (.waiting s.tick none (if needs then .reading else .notNeeded) k) }

/-- Nodes enter in ascending order while the window has room. -/
def State.enterNodes (s : State) (l : Nat) : Nat → State
  | 0 => s
  | n + 1 =>
    match s.launch? l with
    | none => s
    | some y =>
      match (List.range y.nodes.length).find? fun i => y.nodes.getD i .outside == .outside with
      | none => s
      | some i => if y.window ≤ y.inWindow ∨ y.stopped = true then s else State.enterNodes (s.enterNode l y i) l n

/-- Are the conditions of readiness met for node `i`: its predecessors, BARRIER, FENCE_AFTER (05 R154, R168)? -/
def State.nodeDue (s : State) (y : Launch) (succ : List (List Nat)) (bodies : List Cmd) (i : Nat) : Bool :=
  (List.range i).all (fun j =>
      (!(succ.getD j []).contains i || y.nodeEnded j) && (!fenceAfterOf (bodies.getD j []) || y.nodeEnded j)) &&
    (!barrierOf (s.effBody y i) || (List.range i).all y.nodeEnded)

/-- At a boundary: nodes enter the window, and those that are now ready are noted. -/
def State.progress1 (s : State) (l : Nat) : State :=
  match s.launch? l with
  | none => s
  | some y0 =>
    let s1 := s.enterNodes l (y0.nodes.length + 1)
    match s1.launch? l with
    | none => s1
    | some y =>
      let succ := match s1.graph? y.graph with | some g => g.succ | none => []
      let bodies := s1.bodiesOf y
      s1.adjLaunch l fun x =>
        { x with nodes := (List.range x.nodes.length).map fun i =>
            match x.nodes.getD i .outside with
            | .waiting en none d pin => if s1.nodeDue y succ bodies i then .waiting en (some s.tick) d pin else .waiting en none d pin
            | n => n }

/-- Every launch, in the order in which they started. -/
def State.progress (s : State) : State := foldS (Tbl.keys s.launches) State.progress1 s

/-- A node's descriptor read returns. -/
def State.nodeDescriptor (s : State) (l i : Nat) (io : Io) : State :=
  match s.launch? l with
  | none => s
  | some y => match y.nodes.getD i .outside with
    | .waiting en rd .reading pin =>
      if s.stop.stopped then s
      else
        let d := match io with
          | .fail why a => DescSt.failed (ioRes why a)
          | .ok _ => .here (s.readByte (s.locAddr (.dev (pin.pin.getD 0) (mrefOff (s.effBody y i) 40)))).toNat
        (s.noteIo io).adjLaunch l fun y => { y with nodes := y.nodes.set i (.waiting en rd d pin) }
    | _ => s

/-! ### Timeouts (03 R88) -/

/-- A started entry's count has reached TIMEOUT_US: an urgent abort is decided.
Mark: DEDUCED (notes/assumptions/6, 23.md). -/
def State.ringTimeout (s : State) (p r seq : Nat) : State :=
  match s.entryBySeq p r seq with
  | none => s
  | some w => match s.work? w with
    | none => s
    | some x =>
      if s.stop.stopped || x.timedOut || x.timeoutUs == 0 || decide (x.ticks * 64 < x.timeoutUs * 1000) then s
      else (s.adjWork w fun x => { x with timedOut := true }).decideAbort (.work w) .timeout 0 true

/-! ### SERVICE_START (10 R309, R310) -/

/-- MEM_ALLOC of the blob in context 0 of a partition, in tier 0. -/
def blobAlloc (index bytes : Nat) : Cmd :=
  [BitVec.ofNat 64 (0xD8 + 2 ^ 8 * 2), BitVec.ofNat 64 (2 ^ 32 * (index % 2 ^ 20)), BitVec.ofNat 64 bytes, 0]

/-- Step 2 for one partition: the blob's object, and the blob copied into it. -/
def State.placeBlob (s : State) (t : List Host.Cell) (p : Nat) : Option Res × State :=
  let n := tn t 28 4
  let e := blobAlloc (tn t 32 4 % 2 ^ 20) n
  match s.chkMemAlloc p e with
  | some r => (some r, s)
  | none =>
    let s1 := s.effMemAlloc p e
    match s1.resolve (pkey p 0) (tn t 32 4 % 2 ^ 20) with
    | some o => (none, s1.storeLoc (.dev o 0) ((List.range n).map fun i => Mem.get t (tn t 24 4 + i)))
    | none => (none, s1)

/-- One start entry: the checks that the admin command would have on ring 0 and its effects, with no record and no completion word. A failed read
ends an EXPERT_BIAS_SET. -/
def State.runStart (s : State) (p : Nat) (e : Cmd) (io : Io) : Option Res × State :=
  let x := Work.fresh (.ring p 0) p 0 0 0 0 e 0 s.tick .notNeeded
  let (w, s1) := s.addWork x
  let gone := fun (s : State) => ({ s with works := Tbl.erase s.works w } : State)
  match firstOf (s.headChk 0 e ++ [s1.ownChk x]) with
  | some r => (some r, gone s1)
  | none =>
    let s2 := s1.beginAdmin w x
    match s2.work? w with
    | none => (none, s2)
    | some y =>
      let (r, s3) := match y.phase with
        | .io .admin _ => (s2.adminOutcome y, s2)
        | .io k _ => (match io with
          | .fail why a => (ioRes why a, s2)
          | .ok host =>
            let s3 := s2.ioDone w y k host
            (match s3.work? w with
             | some z => (match z.phase with | .decided r _ => (r, s3) | _ => (Res.ok, s3))
             | none => (Res.ok, s3)))
        | .decided r _ => (r, s2)
        | _ => (Res.ok, s2)
      if r.st = .done then (none, (gone (s3.adminEffect w p e y.locs y.bound)).leavePleach w) else (some r, (gone s3).leavePleach w)

/-- Step 2: the partitions that the start list names, in order of first mention. -/
def State.placeBlobs (s : State) (t : List Host.Cell) : List Nat → Option (Nat × Res) × State
  | [] => (none, s)
  | p :: ps => match s.placeBlob t p with
    | (some r, s1) => (some (p, r), s1)
    | (none, s1) => State.placeBlobs s1 t ps

/-- Step 3: the start entries in order.
Mark: DEDUCED (notes/assumptions/45.md). -/
def State.runStartList (s : State) (t : List Host.Cell) (io : Io) : List Nat → Option (Nat × Res) × State
  | [] => (none, s)
  | i :: is => match s.runStart (startPart t i) (startCmd t i) io with
    | (some r, s1) => (some (i, r), s1)
    | (none, s1) => State.runStartList s1 t io is

/-- The start fails.
Mark: DEDUCED (notes/assumptions/45.md). -/
def State.startFails (s : State) (step : Nat) (x : Nat × Res) : State :=
  (s.svcFail (step, x.1) x.2.st.code (if step = 8 then x.2.detail else 0)).adjSvc fun v => { v with st := 3 }

/-- The start of the service after partition bring-up; it waits while no core holds the duty SERVICE (10 R321; 12 R364).
Mark: DEDUCED (notes/assumptions/45.md). -/
def State.serviceStarts (s : State) (io : Io) : State :=
  let t := s.svc.image
  if s.svc.st ≠ 1 ∨ t = [] ∨ (s.duty 10).2 = true then s
  else
    let fails := fun (s : State) (x : Nat × Nat) => (s.svcFail x 0 0).adjSvc fun v => { v with st := 3 }
    match s.tableCheck t false with
    | some x => fails s x
    | none =>
      let starts := List.range (tblStart t)
      let ps := if tn t 28 4 = 0 then [] else dedupNat (starts.map (startPart t))
      match s.placeBlobs t ps with
      | (some x, s1) => s1.startFails 7 x
      | (none, s1) =>
        match s1.runStartList t io starts with
        | (some x, s2) => s2.startFails 8 x
        | (none, s2) =>
          match s2.objectCheck t with
          | some x => fails s2 x
          | none =>
            let s3 := (s2.adoptTable t).adjSvc fun v => { v with st := 2 }
            foldS (Tbl.keys s3.svc.listeners) State.stockListener s3

end Sys2Proof.Machine
end

