-- ==== Sys2Proof/Machine/Partition.lean ====
section
/-! DEFINITION. Partitions (02 R53-R57, R66) and their teardown by Shears (07 R223-R226). -/
namespace Sys2Proof.Machine

/-! ### Pages (02 R66; 14 R411, R412) -/

/-- Pages of a tier that partitions can be given: tier 0 less the reserve of 256 pages, tier 1 less what is exposed as
CXL.mem.
Mark: DEDUCED (notes/assumptions/127.md). -/
def State.tierPages (s : State) (tier : Nat) : Nat :=
  if tier = 0 then tier0Pages s.cfg.stackCount - 256
  else if s.cfg.tier1 then Config.pages1 - ceilDiv s.cfg.cxlBytes Config.pageBytes else 0

/-- The address of page 0 of a tier. -/
def tierBase (tier : Nat) : Nat := if tier = 0 then 0 else Config.tier1Base

/-- The page ranges of a tier that partitions hold, by first page. -/
def State.takenRanges (s : State) (tier : Nat) : List (Nat × Nat) :=
  sortBy (fun a b => decide (a.1 ≤ b.1))
    (s.parts.flatMap fun e => (e.2.pages tier).map fun r => ((r.1 - tierBase tier) / Config.pageBytes, r.2))

/-- The ranges from page `lo` up to page `hi` that a rising list of ranges leaves free. -/
def freeRanges (hi : Nat) : Nat → List (Nat × Nat) → List (Nat × Nat)
  | lo, [] => if lo < hi then [(lo, hi - lo)] else []
  | lo, (a, n) :: rs => (if lo < a then [(lo, a - lo)] else []) ++ freeRanges hi (max lo (a + n)) rs

/-- The first `n` pages of some ranges. -/
def headPages : Nat → List (Nat × Nat) → List (Nat × Nat)
  | 0, _ => []
  | _, [] => []
  | n, (a, k) :: rs => if n ≤ k then [(a, n)] else (a, k) :: headPages (n - k) rs

/-- Some ranges without their first `n` pages. -/
def dropPages : Nat → List (Nat × Nat) → List (Nat × Nat)
  | 0, rs => rs
  | _, [] => []
  | n, (a, k) :: rs => if n < k then (a + n, k - n) :: rs else dropPages (n - k) rs

/-- Give `n` pages of a tier: which ones is not architectural (06 R196), so they start at a free number. They are cleared
as they are given.
Mark: DESIGN CHOICE (notes/assumptions/51.md); DEDUCED (notes/assumptions/136.md). -/
def State.givePages (s : State) (tier n : Nat) : List (Nat × Nat) × State :=
  let fr := freeRanges (s.tierPages tier) 0 (s.takenRanges tier)
  let total := sumNat (fr.map fun r => r.2)
  let (k, s1) := s.takeFree
  let at_ := if total = 0 then 0 else k % total
  let rs := (headPages n (dropPages at_ fr ++ headPages at_ fr)).map fun r => (tierBase tier + r.1 * Config.pageBytes, r.2)
  (rs, foldS rs (fun s r => s.clearBytes r.1 (r.2 * Config.pageBytes)) s1)

/-! ### Enabling (02 R53, R66) -/

/-- Partitions whose ENABLE is 1, and `p`. -/
def State.enabledWith (s : State) (p : Nat) : List Part :=
  (s.parts.filter fun e => e.2.enable && e.1 != p).map (fun e => e.2) ++ [s.part p]

/-- Pages of a tier that partitions still hold whose ENABLE has been cleared: they are not available until the teardown
ends. -/
def State.leavingPages (s : State) (tier : Nat) : Nat :=
  sumNat ((s.parts.filter fun e => e.2.reserved && !e.2.enable).flatMap fun e => (e.2.pages tier).map fun r => r.2)

/-- May ENABLE of a partition be set? What a command has set aside is not free (03 R97).
Mark: DEDUCED (notes/assumptions/19.md). -/
def State.enableFits (s : State) (p : Nat) : Bool :=
  let l := s.enabledWith p
  decide (sumNat (l.map fun q => q.quota.resMin) ≤ Config.residentSlots) &&
    decide (sumNat (l.map fun q => q.quota.mem0) + s.leavingPages 0 ≤ s.tierPages 0) &&
    decide (sumNat (l.map fun q => q.quota.mem1) + s.leavingPages 1 ≤ s.tierPages 1) &&
    decide (s.ctxNos.length + s.aside (oneOf [0xC0]) < Config.contexts) &&
    decide (s.ringNos.length + s.aside (oneOf [0xC2]) < Config.hardRings)

/-- A partition is enabled: it holds context 0 with ring 0 DISABLED, and its admin registers read zero. Until ring 0 is first
ENABLEd its size is that of the fresh ring.
Mark: DEDUCED (notes/assumptions/28.md); DESIGN CHOICE (notes/assumptions/155.md). -/
def State.bringUp (s : State) (p : Nat) : State :=
  let q := s.part p
  let r := { Ring.fresh q.ring0No (pkey p 0) with slice := s.sliceOf 0 }
  let s1 : State := { s with ctxs := Tbl.set s.ctxs (pkey p 0) (Ctx.fresh q.ctx0No 0 false), rings := Tbl.set s.rings (pkey p 0) r }
  s1.adjPart p fun q => { q with up := true, admin := AdminRegs.zero, credit := 0, ready := [] }

/-- Is it before the partitions are brought up after a reset? -/
def State.booting (s : State) : Bool := match s.boot.phase with | .up => false | _ => true

/-- Does the PF answer configuration requests? After a reset it answers them with Request Retry Status until partitions are
brought up, but in recovery it answers (14 R400, R408, R413). -/
def State.answersConfig (s : State) : Bool :=
  match s.boot.phase with
  | .up => true
  | .recovery => true
  | _ => false

/-- Both conditions of enablement have come to hold; before bring-up no partition is enabled.
Mark: DEDUCED (notes/assumptions/28.md). -/
def State.tryUp (s : State) (p : Nat) : State :=
  let q := s.part p
  if q.enable && q.vf && !q.up && q.teardown.isNone && !s.booting then s.bringUp p else s

/-- Note whether bring-up sets ENABLE of a partition.
Mark: DEDUCED (notes/assumptions/19.md). -/
def State.noteEnable (s : State) (p : Nat) (on : Bool) : State :=
  s.adjBoot fun b => { b with enables := (b.enables.filter (decide <| · < p)) ++ (if on then [p] else []) ++ b.enables.filter (decide <| p < ·) }

/-- A write of 1 to ENABLE takes effect: reservations and the two records are held, or OVERCOMMIT is set. Before bring-up there
is nothing to reserve, and it takes effect with it.
Mark: DEDUCED (notes/assumptions/19.md). -/
def State.enablePart (s : State) (p : Nat) : State :=
  let q := s.part p
  if s.booting then s.noteEnable p true
  else if q.enable || q.teardown.isSome then s
  else if s.enableFits p then
    let (c, s1) := s.takeNumber Config.contexts s.ctxNos
    let (r, s2) := s1.takeNumber Config.hardRings s1.ringNos
    let (p0, s3) := s2.givePages 0 q.quota.mem0
    let (p1, s4) := s3.givePages 1 q.quota.mem1
    (s4.adjPart p fun q =>
      { q with enable := true, reserved := true, ctx0No := c.getD 0, ring0No := r.getD 0, pages0 := p0, pages1 := p1 }).tryUp p
  else s.adjPart p fun q => { q with overcommit := true }

/-- The reservations of a partition end. -/
def State.release (s : State) (p : Nat) : State :=
  s.adjPart p fun q => { q with reserved := false, pages0 := [], pages1 := [] }

/-- The host enables the VF of a partition.
Mark: DEDUCED (notes/assumptions/28.md). -/
def State.vfOn (s : State) (p : Nat) : State := (s.adjPart p fun q => { q with vf := true }).tryUp p

/-! ### The beginning of a teardown (07 R224, R225) -/

/-- The started entries and service launches of a partition. -/
def State.partWorks (s : State) (p : Nat) : List Nat :=
  (s.works.filter fun e => e.2.part == p && (match e.2.site with | .ring _ _ => true | _ => false)).map fun e => e.1

/-- The service launches of a partition. -/
def State.partLaunches (s : State) (p : Nat) : List Nat :=
  (s.launches.filter fun e => e.2.part == p && (match e.2.owner with | .request _ => true | _ => false)).map fun e => e.1

/-- The tasks of a partition. -/
def State.partTasks (s : State) (p : Nat) : List Nat := (s.tasks.filter fun e => keyPart e.1 == p).map fun e => e.1

/-- The rings of a partition. -/
def State.partRings (s : State) (p : Nat) : List Nat := (s.rings.filter fun e => keyPart e.1 == p).map fun e => e.1

/-- A scheduled signal to a fence of this chip is cancelled. -/
def State.cancelSignal (s : State) (p w : Nat) : State :=
  match s.work? w with
  | some x => match x.phase with
    | .signal _ => if x.part = p ∧ s.isRemote (pkey p (fenceNo x.cmd)) = false then s.decideEnd w (Res.of .teardown 0) else s
    | _ => s
  | none => s

/-- Events in coalescing and messages behind a mask are discarded, and everything that the rings hold back.
Mark: DEDUCED (notes/assumptions/20.md). -/
def State.discardPosts (s : State) (p : Nat) : State :=
  let s1 := s.adjPart p fun q =>
    { q with vecs := Tbl.mapV q.vecs fun _ v => { v with pending := 0, first := none, pendingBit := false } }
  foldS (s1.partRings p) (fun s k => s.adjRing k fun r => { r with hold := none, newRecs := [], dones := [] }) s1

/-- A teardown begins, in step 5. The completions of this boundary are posted first, with the messages that they make due; other
events that pend in coalescing are discarded (07 R225). -/
def State.beginTeardown (s : State) (un : List (Nat × Nat × Nat)) (p : Nat) (disable : Bool) : State :=
  let q := s.part p
  if !q.up then s
  else match q.teardown with
  | some t => if disable then s.adjPart p fun q => { q with teardown := some { t with disable := true } } else s
  | none =>
    let s0 := foldS (s.partRings p) (fun s k => s.postRing un k) s
    let s1 := foldS (Tbl.keys (s0.part p).vecs) (fun t v => if s0.vec p v = s.vec p v then t else t.coalesce1 s0.tick p v) s0
    let s2 := (s1.discardPosts p).adjPart p fun q =>
      { q with teardown := some { ran := 0, escalated := false, spanned := false, disable := disable }, ready := [] }
    let s3 := foldS (s2.partRings p) (fun s k => s.adjRing k fun r => { r.leaveActive with state := .disabled }) s2
    let s4 := s3.tearService p
    let a : AbortInfo := { st := .teardown, detail := 0, urgent := false, quiet := false }
    let s5 := foldS (s4.partWorks p) (fun s w => s.abortWork w a) s4
    let s6 := foldS (s5.partLaunches p) (fun s l => s.abortLaunches (l :: s.below Config.nesting l) a) s5
    let s7 := foldS (s6.partTasks p) (fun s t => (s.abortTaskSegs t false).failTask t (Res.of .teardown 0)) s6
    foldS (Tbl.keys s7.works) (fun s w => s.cancelSignal p w) s7

/-- A write of 0 to ENABLE takes effect.
Mark: DEDUCED (notes/assumptions/19.md). -/
def State.disablePart (s : State) (un : List (Nat × Nat × Nat)) (p : Nat) : State :=
  let q := s.part p
  if s.booting then s.noteEnable p false
  else if !q.enable then s
  else
    let s1 := s.adjPart p fun q => { q with enable := false }
    if q.up then s1.beginTeardown un p true else s1.release p

/-- The host disables the VF of a partition. -/
def State.vfOff (s : State) (un : List (Nat × Nat × Nat)) (p : Nat) : State :=
  (s.adjPart p fun q => { q with vf := false }).beginTeardown un p true

/-- A request of step 5.
Mark: DEDUCED (notes/assumptions/19.md). -/
def State.tearOp (s : State) (un : List (Nat × Nat × Nat)) (o : HostOp) : State :=
  match o with
  | .disable p => s.disablePart un p
  | .vf p false => s.vfOff un p
  | .tear p d => s.beginTeardown un p d
  | .shears p => s.beginTeardown un p false
  | _ => s

/-- The partition that a host write asks to tear down. -/
def HostOp.tears : HostOp → Option Nat
  | .disable p => some p
  | .vf p false => some p
  | .tear p _ => some p
  | .shears p => some p
  | _ => none

/-! ### During a teardown -/

/-- Does a segment of the partition run? -/
def State.partRuns (s : State) (p : Nat) : Bool :=
  s.eps.any fun e => match e.2.seg with
    | some g => (match g.owner with
      | .work w _ => (match s.work? w with | some x => x.part == p | none => false)
      | .task t _ => keyPart t == p
      | .gather n => (match Tbl.get? s.marshal.segs n with
        | some y => y.users.any fun u => (match s.work? u.1 with | some x => x.part == p | none => false)
        | none => false))
    | none => false

/-- 600 µs into a teardown, endpoints that still run its segments are sent an urgent ABORT. -/
def State.escalate (s : State) (p : Nat) : State :=
  match (s.part p).teardown with
  | some t =>
    if s.stop.stopped || t.escalated || decide (t.ran * 64 < 600000) || !s.partRuns p then s
    else
      let s1 := s.adjPart p fun q => { q with teardown := some { t with escalated := true } }
      let ws := (s1.works.filter fun e => e.2.part == p).map fun e => e.1
      let s2 := foldS ws (fun s w => s.abortSegs w true) s1
      foldS (s2.partTasks p) (fun s k => s.abortTaskSegs k true) s2
  | none => s

/-- A tick of running time passes for the teardowns; a stop that comes between is noted. -/
def State.countTeardowns (s : State) : State :=
  { s with parts := Tbl.mapV s.parts fun _ q =>
      { q with teardown := q.teardown.map fun t =>
          if s.stop.stopped then { t with spanned := true } else { t with ran := t.ran + 1 } } }

/-! ### The end of a teardown -/

/-- Everything of the partition that started work holds: entries, launches, tasks. -/
def State.dropWork (s : State) (p : Nat) : State :=
  let ws := (s.works.filter fun e => e.2.part == p).map fun e => e.1
  let s1 := foldS ws (fun s w => ((({ s with works := Tbl.erase s.works w } : State).leaveMarshal w p true).leavePleach w)) s
  let s2 : State := { s1 with launches := s1.launches.filter fun e => e.2.part != p }
  foldS (s2.partTasks p) State.freeTask s2

/-- The fences of the partition: own ones are marked FAILED in step 3 and their exports are lost; imports cease to
exist. -/
def State.dropFences (s : State) (p : Nat) : State :=
  let own := (s.fences.filter fun e => keyPart e.1 == p && e.2.kind == .own && !e.2.draining).map fun e => e.1
  let s1 := foldS own (fun s k => ((s.mark (.record k)).loseExports k).adjFence k fun f =>
    { f with draining := true }) s
  { s1 with fences := s1.fences.filter fun e => keyPart e.1 != p || e.2.kind == .own,
            mirrors := s1.mirrors.filter fun m => keyPart m.2.1 != p }

/-- The graphs, tables, layers and cache lines of the partition. -/
def State.dropStores (s : State) (p : Nat) : State :=
  let gs := (s.graphs.filter fun e => e.2.part == p).map fun e => e.1
  let s1 : State := { s with imageReads := s.imageReads.filter fun r => !gs.contains r.graph,
                             graphs := s.graphs.filter fun e => e.2.part != p }
  let ts := (s1.tables.filter fun e => e.2.part == p).map fun e => e.1
  let s1 := if s1.imageReads.head? = s.imageReads.head? then s1 else s1.readImage
  let s2 := (foldS ts State.destroyTable s1).dropTables
  let s3 := s2.adjMarshal fun m => { m with lines := m.lines.filter fun l => l.part != p }
  s3.adjPleach fun q => { q with layers := q.layers.filter fun e => keyPart e.1 != p }

/-- The cleanup has ended: the partition holds context 0 with ring 0 DISABLED where its ENABLE is 1 and its VF is enabled, or
is left disabled and gives its pages back, which are cleared (06 R196).
Mark: DEDUCED (notes/assumptions/20, 136.md); DESIGN CHOICE (notes/assumptions/165.md). -/
def State.torn (s : State) (p : Nat) : State :=
  match (s.part p).teardown with
  | none => s
  | some t =>
    let s1 := (((s.dropWork p).dropFences p).dropStores p)
    let closing := s1.transl.filter fun x => keyPart x.ctx == p && x.closing
    let s2 : State := { s1 with
      ctxs := s1.ctxs.filter fun e => keyPart e.1 != p
      rings := s1.rings.filter fun e => keyPart e.1 != p
      loads := s1.loads.filter fun l => keyPart l.key != p
      transl := s1.transl.filter fun x => keyPart x.ctx != p
      pcnt := Tbl.erase s1.pcnt p
      objs := s1.objs.filter fun e => e.2.part != p
      svc := { s1.svc with requests := s1.svc.requests.filter fun e => e.2.lst.part != p } }
    let s3 := foldS closing (fun s x => s.send (.atsDone p (keyLocal x.ctx) x.page)) s2
    let s5 := s3.adjPart p fun q => { q with teardown := none, up := false, credit := 0, ready := [] }
    let s6 := { s5 with shears :=
      { s5.shears with lastPart := p, escalated := t.escalated, lastUs := min 1000 (ceilDiv (t.ran * 64) 1000),
                       spanned := t.spanned,
                       escCount := if t.escalated then satInc 32 s5.shears.escCount else s5.shears.escCount } }
    if (s6.part p).enable then s6.tryUp p
    else (foldS ((s6.part p).pages0 ++ (s6.part p).pages1) (fun s r => s.clearBytes r.1 (r.2 * Config.pageBytes)) s6).release p

/-- The cleanup of a teardown ends once no segment of the partition runs; it takes effect at the next boundary. -/
def State.teardownDone (s : State) (p : Nat) : State :=
  if s.stop.stopped || (s.part p).teardown.isNone || s.partRuns p || s.later.contains (.torn p) then s
  else { s with later := s.later ++ [.torn p] }

end Sys2Proof.Machine
end

