-- ==== Sys2Proof/Machine/Time.lean ====
section
/-! DEFINITION. Fabric time, control flits from other chips, and the calendar (01 R27-R50; 02 R72, R74; 06 R190; 08
R253-R255; 09 R299). -/
namespace Sys2Proof.Machine

/-- Change the fabric time unit. -/
def State.adjFab (s : State) (f : Fab → Fab) : State := { s with fab := f s.fab }

/-- Change the calendar. -/
def State.adjCal (s : State) (f : Cal → Cal) : State := { s with cal := f s.cal }

/-- Queue a result for the next boundary. -/
def State.defer (s : State) (x : Later) : State := { s with later := s.later ++ [x] }

/-- Is a result the end of an image's read? -/
def Later.isImage : Later → Bool
  | .image _ _ _ => true
  | _ => false

/-- Is it the end of the creation work of table `u`? -/
def Later.isLoadOf (u : Nat) : Later → Bool
  | .tableLoad v _ => v == u
  | _ => false

/-- Is it the end of a stage of table `u`? -/
def Later.isStageOf (u : Nat) : Later → Bool
  | .stage v _ => v == u
  | _ => false

/-- Is it the end of a fill of table `u`? -/
def Later.isFillOf (u : Nat) : Later → Bool
  | .fill v _ => v == u
  | _ => false

/-- Is it the start of the service? -/
def Later.isSvcStart : Later → Bool
  | .svcStart _ => true
  | _ => false

/-- Is it the bring-up of partitions? -/
def Later.isBringup : Later → Bool
  | .bringup _ => true
  | _ => false

/-- A core of the general complex has done its part of the start; the start takes effect at the next boundary (12 R352). -/
def State.serviceStarted (s : State) (io : Io) : State :=
  if s.svc.st ≠ 1 ∨ s.svc.image = [] ∨ (s.duty 10).2 = true ∨ s.later.any Later.isSvcStart then s else s.defer (.svcStart io)

/-! ### Flits as they arrive (01 R36-R41) -/

/-- Is this chip a destination of a flit? -/
def State.isDest (s : State) (f : Flit) : Bool :=
  if bitOf f.dst 15 then f.dst % 2 ^ 15 == 0x7FFF || (f.dst % 2 ^ 15 == groupOf s.fab.chip)
  else f.dst == s.fab.chip

/-- Kinds without an effective tick. -/
def untimedKind (k : Nat) : Bool := decide (k = 0x01 ∨ k = 0x02 ∨ k = 0x03 ∨ k = 0x7E ∨ k = 0x7F)

/-- Strict kinds. -/
def strictKind (k : Nat) : Bool := decide (k = 0x20 ∨ k = 0x21 ∨ k = 0x30)

/-- Kinds of R37. -/
def knownKind (k : Nat) : Bool :=
  untimedKind k || strictKind k || decide (k = 0x10 ∨ k = 0x11 ∨ k = 0x40)

/-- The chip ID of a flit's source. -/
def flitFrom (f : Flit) : Nat := f.src % 2 ^ 15

/-- EFFECTIVE_TICK. -/
def flitTick (f : Flit) : Nat := f.eff % 2 ^ 58

/-- A flit is refused: it is counted, and a REFUSAL goes back unless it is one itself. -/
def State.refuseFlit (s : State) (f : Flit) : State :=
  let s1 := s.discardFlit
  if f.kind = 0x7E then s1
  else
    let b := flitBytes f
    (s1.sendFlit 0x7E (flitFrom f) 0 (BitVec.ofNat 64 (leNat (b.take 8))) (BitVec.ofNat 64 (leNat ((b.drop 8).take 8))) 0).2

/-- What becomes of a flit before its kind is looked at. -/
inductive FlitCheck where
  /-- It is new and may be used. -/
  | good
  /-- It has been seen before. -/
  | twin
  /-- It is refused. -/
  | bad
deriving DecidableEq, Repr

/-- Has a flit of this source been seen (01 R41)? -/
def State.seenFlit (s : State) (f : Flit) : Bool :=
  match Tbl.get? s.fab.accepted (flitFrom f) with
  | none => false
  | some (inc, h) =>
    inc == f.inc && !(let d := (f.seq + 2 ^ 16 - h) % 2 ^ 16; decide (1 ≤ d ∧ d ≤ 32767))

/-- The CRC and the acceptance table (01 R41). -/
def State.judgeFlit (s : State) (f : Flit) : FlitCheck × State :=
  if !flitCrcOk f then (.bad, s.refuseFlit f)
  else if s.seenFlit f then (.twin, s)
  else (.good, s.adjFab fun x => { x with accepted := Tbl.set x.accepted (flitFrom f) (f.inc, f.seq) })

/-- An untimed flit of one kind that reaches this chip: what `act` does with it, or a refusal. -/
def State.untimedFlit (s : State) (kind : Nat) (f : Flit) (act : State → State) : State :=
  if f.kind ≠ kind ∨ s.isDest f = false then s
  else match s.judgeFlit f with
  | (.good, s1) => if f.eff ≠ 0 then s1.refuseFlit f else act s1
  | (_, s1) => s1

/-- A timed flit that is late is counted; for a strict kind LATE_STRICT is set and the interrupt raised. One named for a tick
of the stop in force is not late (11 R343), but for RESUME (11 R346). -/
def State.noteLate (s : State) (f : Flit) : State :=
  if s.tick < flitTick f ∨ (s.stop.stopped = true ∧ s.stop.cut < flitTick f ∧ f.kind ≠ 0x21) then s
  else
    let s1 := s.adjFab fun x => { x with late := satInc 32 x.late }
    if strictKind f.kind then (s1.adjFab fun x => { x with lateStrict := true }).raise 33 else s1

/-- Does the receiver refuse timed flits in its synchronisation state (01 R31, R40)? -/
def State.refusesTimed (s : State) : Bool :=
  match s.fab.sync with | .acquiring => true | .detached => true | .free => true | _ => false

/-- A timed flit of one kind that reaches this chip: refused, or taken by `act` (01 R40). -/
def State.timedFlit (s : State) (ok : Flit → Bool) (f : Flit) (act : State → State) : State :=
  if ok f = false ∨ s.isDest f = false then s
  else match s.judgeFlit f with
  | (.good, s1) =>
    if s1.refusesTimed then s1.refuseFlit f
    else if s1.tick + Config.maxAhead < flitTick f then s1.refuseFlit f
    else if Config.holdFlits ≤ s1.fab.hold.length then (s1.adjFab fun x => { x with holdFull := true }).refuseFlit f
    else act (s1.noteLate f)
  | (_, s1) => s1

/-- A flit waits in the hold queue for its boundary, a late one for the next (01 R39, R40).
Mark: DEDUCED (notes/assumptions/86.md). -/
def State.holdFlit (s : State) (f : Flit) : State := s.adjFab fun x => { x with hold := x.hold ++ [(s.tick, f)] }

/-- A flit of a kind that R37 does not name. -/
def State.unknownFlit (s : State) (f : Flit) : State :=
  if knownKind f.kind || !s.isDest f then s
  else match s.judgeFlit f with
  | (.good, s1) => s1.refuseFlit f
  | (_, s1) => s1

/-- A flit for another chip: it goes on with one hop less, its CRC brought up to date in a way that keeps an error
visible, or is dropped at 0 and counted as refused.
Mark: DEDUCED (notes/assumptions/120.md). -/
def State.relayFlit (s : State) (f : Flit) : State :=
  if s.isDest f then s
  else if f.hops = 0 then s.discardFlit
  else
    let g : Flit := { f with hops := f.hops - 1 }
    s.send (.flit { g with crc := f.crc ^^^ crc32 (flitBytes f) ^^^ crc32 (flitBytes g) })

/-! ### Held flits at their boundary (01 R24, R39) -/

/-- Is a held flit due at the boundary of tick `now`: its tick has come, and it arrived in an earlier one? -/
def flitDue (now : Nat) (h : Nat × Flit) : Bool := decide (h.1 < now) && decide (flitTick h.2 ≤ now)

/-- The held flits of some kinds that are due, in the order of R39; `byTick` puts EFFECTIVE_TICK first, at the end of a
stop (11 R344). -/
def State.dueFlits (s : State) (kinds : Nat → Bool) (byTick : Bool) : List Flit :=
  let key := fun (f : Flit) => [if byTick then flitTick f else 0, flitFrom f]
  sortBy (fun a b => lexLe (key a) (key b)) ((s.fab.hold.filter fun h => flitDue s.tick h && kinds h.2.kind).map fun h => h.2)

/-- Those flits leave the queue. -/
def State.dropDue (s : State) (kinds : Nat → Bool) : State :=
  s.adjFab fun x => { x with hold := x.hold.filter fun h => !(flitDue s.tick h && kinds h.2.kind) }

/-- A timed flit of another chip is applied. -/
def State.noteApplied (s : State) : State :=
  if s.fab.sync = .unlocked then s.adjFab fun x => { x with unlockedApply := true } else s

/-- Apply the due flits of some kinds. -/
def State.applyFlits (s : State) (kinds : Nat → Bool) (byTick : Bool) (act : State → Flit → State) : State :=
  foldS (s.dueFlits kinds byTick) (fun s f => act (if (flitFrom f) = s.fab.chip then s else s.noteApplied) f) (s.dropDue kinds)

/-- OP of an EPOCH_FLIP flit (08 R253). -/
def epochOpOf (f : Flit) : Nat := bitsOf f.w0.toNat 32 8

/-- An EPOCH_FLIP flit takes effect in step 4 (08 R253-R255).
Mark: DEDUCED (notes/assumptions/72.md). -/
def State.applyEpochFlit (s0 : State) (f : Flit) : State :=
  let op := epochOpOf f
  if bitsOf f.w0.toNat 0 32 ≠ s0.epoch ∨ op = 0 ∨ 7 < op then s0.discardFlit
  else
    let s := s0.raise 38
    match op with
    | 1 => if s.coordinates then s.requestFlip else s
    | 2 => (match s.cop.phase with
      | .opening => s.enterPrepare
      | .catchup => s.carrySets.adjCop fun c => { c with prepareHeld := true }
      | _ => s)
    | 3 => if s.coordinates then s.adjCop fun c => { c with readyFrom := dedupNat ((flitFrom f) :: c.readyFrom) } else s
    | 4 => if s.cop.phase = .prepare then s.flip else s
    | 5 => if s.coordinates then s.adjCop fun c => { c with clearFrom := dedupNat ((flitFrom f) :: c.clearFrom) } else s
    | 6 => if s.cop.prev.isSome then s.adjCop fun c => { c with retireDue := true } else s
    | _ =>
      if s.cop.phase = .prepare ∨ s.cop.prepareHeld = true then
        let t : State := { s with
          cop := { s.cop with
            phase := if s.cop.phase = .prepare then .opening else s.cop.phase
            cancelled := true, request := none, requestSent := false, readyDue := false, readySent := false,
            flipSent := false, readyFrom := [], waited := 0, prepareHeld := false }
          tables := Tbl.mapV s.tables fun _ t =>
            { t with committed := t.committed.map fun c => { c with carried := false } } }
        if s.cop.phase = .prepare then t.epochEvent else t
      else s

/-- A COLLECTIVE flit takes effect (09 R299). -/
def State.applyCollective (s : State) (f : Flit) : State :=
  if bitsOf f.w0.toNat 32 8 = 1 then s.cancelServed (flitFrom f) (bitsOf f.w0.toNat 0 32) else s.discardFlit

/-! ### The flit commands -/

/-- A flit of one kind that is held for its boundary. -/
def State.heldKind (s : State) (kind : Nat) (f : Flit) : State :=
  s.timedFlit (fun g => g.kind == kind) f fun s => s.holdFlit f

/-- An EPOCH_FLIP flit of one OP, or of an OP that is not valid, which is discarded at its boundary (08 R253). -/
def State.epochFlit (s : State) (op : Nat) (f : Flit) : State :=
  s.timedFlit (fun g => g.kind == 0x30 && (epochOpOf g == op || epochOpOf g == 0 || decide (7 < epochOpOf g))) f fun s => s.holdFlit f

/-- A STOP flit: its stop is scheduled, and the flit is held until its boundary. -/
def State.stopFlitIn (s : State) (f : Flit) : State :=
  s.timedFlit (fun g => g.kind == 0x20) f fun s =>
    (s.takeStopFlit { f with src := (flitFrom f), eff := flitTick f }).holdFlit f

/-- A RESUME flit with OP RESUME or ABANDON. -/
def State.endFlitIn (s : State) (isAbandon : Bool) (f : Flit) : State :=
  s.timedFlit (fun g => g.kind == 0x21 && ((bitsOf g.w0.toNat 0 8 == 3) == isAbandon)) f fun s =>
    (s.takeEndFlit { f with src := (flitFrom f), eff := flitTick f }).holdFlit f

/-- A REFUSAL: a refused fence flit is counted against the partition that originated it (06 R190). -/
def State.refusalIn (s : State) (f : Flit) : State :=
  s.untimedFlit 0x7E f fun s =>
    let dst := bitsOf f.w0.toNat 32 16
    let seq := bitsOf f.w0.toNat 48 16
    let k := dst * 2 ^ 16 + seq
    match Tbl.get? s.fab.origin k with
    | some p =>
      (s.adjFab fun x => { x with origin := Tbl.erase x.origin k }).adjCounts p fun c =>
        { c with fenceRemote := satInc 32 c.fenceRemote }
    | none => s

/-- A measured path of `ns` over `hops` links: the worst one is kept (01 R34).
Mark: DESIGN CHOICE (notes/assumptions/118.md). -/
def Fab.path (x : Fab) (ns hops : Nat) : Fab :=
  let t := ceilDiv ns 64
  { x with worstPath := max x.worstPath t, worstHops := if x.worstPath < t then min 7 hops else x.worstHops }

/-- A LINK_ECHO goes back unchanged. One that brings back the stamp that this chip sent to its source is the answer: it
measures the path, half of the round trip over the links that it came by. The instant of its arrival is free within the tick.
Mark: DESIGN CHOICE (notes/assumptions/118.md). -/
def State.echoIn (s : State) (f : Flit) : State :=
  s.untimedFlit 0x7F f fun s =>
    if Tbl.get? s.fab.echoes (flitFrom f) = some f.w0.toNat then
      let (k, s1) := s.takeFree
      s1.adjFab fun x =>
        { x.path (ceilDiv (s.ftc + k % 64 - f.w0.toNat) 2) (8 - f.hops) with echoes := Tbl.erase x.echoes (flitFrom f) }
    else (s.sendFlit 0x7F (flitFrom f) 0 f.w0 0 0).2

/-! ### Synchronisation (01 R27-R32) -/

/-- The ticks of one exchange period. -/
def Fab.period (x : Fab) : Nat := 2 ^ x.syncPeriod

/-- A new synchronisation state, from the next boundary.
Mark: DEDUCED (notes/assumptions/117.md). -/
def State.toSync (s : State) (st : SyncState) : State := if s.fab.sync = st then s else s.defer (.sync st)

/-- A period passes without a successful exchange: after 64 a LOCKED chip is UNLOCKED (01 R31). -/
def State.missPeriod (s : State) : State :=
  let t := s.adjFab fun x => { x with missed := x.missed + 1, good := 0 }
  if 64 ≤ t.fab.missed ∧ s.fab.sync = .locked then t.toSync .unlocked else t

/-- A flit that carries the instant at which it leaves; where that falls within the tick is free.
Mark: DESIGN CHOICE (notes/assumptions/3.md). -/
def State.sendStamped (s : State) (kind dst : Nat) : Nat × State :=
  let (k, s1) := s.takeFree
  (s.ftc + k % 64, (s1.sendFlit kind dst 0 (BitVec.ofNat 64 (s.ftc + k % 64)) 0 0).2)

/-- A chip measures the path to one of the chips that it has had flits from, in turn.
Mark: DESIGN CHOICE (notes/assumptions/118.md). -/
def State.measurePath (s : State) : State :=
  let known := Tbl.keys s.fab.accepted
  match known[s.tick / s.fab.period % known.length]? with
  | none => s
  | some c =>
    let (t, s1) := s.sendStamped 0x7F c
    s1.adjFab fun x => { x with echoes := Tbl.set x.echoes c t }

/-- A chip sends TIME_REQ to its parent, once in a period; an exchange that brought no answer counts as missed, and so does a
period without a parent. The root has none to ask. -/
def State.timeExchange (s : State) : State :=
  if s.tick % s.fab.period ≠ 0 ∨ s.fab.sync = .free then s
  else
    let s1 := match s.fab.parent with
      | none => if s.fab.isRoot then s else s.missPeriod
      | some p =>
        let s0 := if s.fab.waitingResp then s.missPeriod else s
        (s0.sendStamped 0x01 p).2.adjFab fun x => { x with waitingResp := true }
    s1.measurePath

/-- A parent answers TIME_REQ with t1, its arrival t2 and its own departure t3. -/
def State.timeReqIn (s : State) (f : Flit) (t2 t3 : Nat) : State :=
  s.untimedFlit 0x01 f fun s =>
    (s.sendFlit 0x02 (flitFrom f) 0 f.w0 (BitVec.ofNat 64 t2) (BitVec.ofNat 64 t3)).2

/-- The offset in sixteenths of a nanosecond; `asym` is the link's asymmetry in ns.
Mark: DEDUCED (notes/assumptions/119.md). -/
def offset16 (t1 t2 t3 t4 : Nat) (asym : Int) : Int :=
  (((t2 : Int) - t1) - ((t4 : Int) - t3)) * 8 - asym * 16

/-- The size of an integer. -/
def absInt (i : Int) : Nat := i.natAbs

/-- The synchronisation state that an offset calls for.
Mark: DEDUCED (notes/assumptions/115.md). -/
def Fab.next (x : Fab) (off : Int) (good : Nat) (stepped : Bool) : SyncState :=
  match x.sync with
  | .free => .free
  | .detached => .detached
  | st =>
    if stepped then st
    else if 100000 * 16 < absInt off then .detached
    else if 16 ≤ good then .locked
    else if 16 * 16 < absInt off ∧ st = .locked then .unlocked
    else st

/-- The FTC is set to another value before bring-up (01 R27, R29): what counts from it goes on from the new value, the
crystal's edges too. -/
def State.stepFtc (s : State) (new : Nat) : State :=
  { s.adjFab fun x => { x with ftc := new } with
    resetFtc := (new : Int) - s.sinceReset
    cal := { s.cal with edge := new * 32768 + (s.cal.edge - s.ftc * 32768) }
    eps := (List.range 526).map fun e => (e, { s.ep e with onAcc := s.sinceReset * 16, onSince := new }) }

/-- A child takes TIME_RESP: it computes the offset and steps or steers its FTC. Before partition bring-up the FTC may be
stepped, here by whole ticks; afterwards it is only steered, which does not show in whole ticks.
Mark: DEDUCED (notes/assumptions/115, 119.md). -/
def State.timeRespIn (s : State) (f : Flit) (t4 : Nat) (asym : Int) : State :=
  s.untimedFlit 0x02 f fun s =>
    if s.fab.parent ≠ some (flitFrom f) ∨ s.fab.waitingResp = false then s
    else
      let off := offset16 f.w0.toNat f.w1.toNat f.w2.toNat t4 asym
      let steps : Int := off.tdiv (64 * 16)
      let stepped := s.fab.sync == .acquiring && s.booting && steps != 0
      let good := if absInt off ≤ 2 * 16 then s.fab.good + 1 else 0
      let st := s.fab.next off good stepped
      let s1 := s.adjFab fun x =>
        { x with offset := off, good := good, missed := 0, waitingResp := false }
      (if stepped then s1.stepFtc ((s.ftc : Int) + steps * 64).toNat else s1).toSync st

/-- The calendar time that an FTC reads as, as TAI (01 R29, R47): seconds and 1/32,768 s. -/
def calOf (ftc : Nat) : Nat × Nat := (ftc / 1000000000, ftc % 1000000000 * 32768 / 1000000000)

/-- The FTC that a valid calendar gives, in whole ticks (01 R29). -/
def Cal.ftc (c : Cal) : Nat :=
  if c.invalid then 0 else (c.sec * 1000000000 + c.sub * 1000000000 / 32768) / 64 * 64

/-- A new synchronisation state takes effect. The first time after a reset that a chip is LOCKED to a root other than
itself, it sets its calendar from the FTC where the root's was valid (01 R47). Only a reset ends DETACHED (14 R401).
Mark: DEDUCED (notes/assumptions/117.md). -/
def State.setSync (s : State) (st : SyncState) : State :=
  if s.fab.sync = .detached then s
  else
  let s1 := (s.adjFab fun x => { x with sync := st }).raise 33
  if st = .locked ∧ s.fab.aligned = false ∧ s.fab.isRoot = false then
    let s2 := s1.adjFab fun x => { x with aligned := true }
    if !s.fab.calValid then s2
    else s2.adjCal fun c => { c with sec := (calOf s.ftc).1 % 2 ^ 48, sub := (calOf s.ftc).2, invalid := false }
  else s1

/-- The best root that the announcements name: the lowest, then the fewest hops, then the lower neighbour (01 R30). A root
candidate looks only for roots below itself. -/
def Fab.best (x : Fab) (cand : Bool) : Option (Nat × Nat × Nat × Bool) :=
  let l := (x.heard.filter fun e => e.2.1 != x.chip && (!cand || decide (e.2.1 < x.chip))).map fun e =>
    (e.2.1, e.2.2.1 + 1, e.1, e.2.2.2)
  (sortBy (fun (a b : Nat × Nat × Nat × Bool) => lexLe [a.1, a.2.1, a.2.2.1] [b.1, b.2.1, b.2.2.1]) l).head?

/-- A chip is LOCKED as soon as it is the root; a DETACHED one stays so until a reset.
Mark: DEDUCED (notes/assumptions/117.md). -/
def State.rootLocked (s : State) : State := if s.fab.sync = .detached then s else s.toSync .locked

/-- A chip chooses its root and parent from what its neighbours announced last. Without one a root candidate is the root, and
any other chip has NO_ROOT. A root that finds a lower one during boot is ACQUIRING again.
Mark: DEDUCED (notes/assumptions/116, 117.md); DESIGN CHOICE (notes/assumptions/139.md). -/
def State.chooseRoot (s : State) : State :=
  match s.fab.best s.cfg.rootCand with
  | some (root, hops, nb, cal) =>
    let same := s.fab.parent == some nb && s.fab.rootChip == root
    let t := s.adjFab fun x =>
      { x with isRoot := false, noRoot := false, rootChip := root, parent := some nb, hopsToRoot := hops, calValid := cal }
    if same then t
    else
      let u := t.adjFab fun x => { x with good := 0, missed := 0, waitingResp := false }
      if s.fab.isRoot && s.booting && s.fab.sync != .detached then u.toSync .acquiring else u
  | none =>
    let t := s.adjFab fun x =>
      { x with isRoot := s.cfg.rootCand, noRoot := !s.cfg.rootCand, rootChip := if s.cfg.rootCand then x.chip else 0,
               parent := none, hopsToRoot := 0, waitingResp := false }
    if s.cfg.rootCand && !s.fab.isRoot then t.rootLocked else t

/-- A chip hears TIME_ANNOUNCE from a neighbour (01 R30).
Mark: DEDUCED (notes/assumptions/116.md). -/
def State.timeAnnounceIn (s : State) (f : Flit) (neighbour : Nat) : State :=
  s.untimedFlit 0x03 f fun s =>
    if s.fab.sync = .free then s
    else
      let said := (bitsOf f.w0.toNat 0 15, bitsOf f.w0.toNat 16 8, bitOf f.w0.toNat 24)
      (s.adjFab fun x => { x with heard := Tbl.set x.heard neighbour said }).chooseRoot

/-! ### Links (01 R35; 02 R72, R74) -/

/-- A peer link has been declared down. -/
def State.linkFails (s : State) (link : Nat) (unacked : List (Nat × Nat × Nat)) : State :=
  if link < 8 ∧ bitOf s.fab.linksUp link = true then s.defer (.linkDown link unacked) else s

/-- The flits of a list of messages that a link had not had acknowledged, in the order in which they were sent.
Mark: DEDUCED (notes/assumptions/140.md). -/
def unackedFlits (l : List Out) (keys : List (Nat × Nat × Nat)) : List Out :=
  l.filter fun o => match o with
    | .flit f => keys.contains (flitFrom f, f.dst, f.seq)
    | _ => false

/-- It is down: LINK_DOWN is set, what the neighbour behind it announced is void and another parent is chosen, and the flits
that it had not had acknowledged are sent again (01 R30, R35).
Mark: DEDUCED (notes/assumptions/140.md). -/
def State.linkGone (s : State) (link : Nat) (unacked : List (Nat × Nat × Nat)) : State :=
  let chip := (Tbl.getD s.fab.links link (0, 0)).1
  let up := clearBit s.fab.linksUp link
  let others := (List.range 8).any fun l => bitOf up l && (Tbl.getD s.fab.links l (0, 0)).1 == chip
  let s1 := (s.adjFab fun x => { x with linksUp := up, linkWentDown := true }).raise 33
  let s2 : State := { s1 with out := s1.out ++ unackedFlits s1.out unacked }
  if others || s.fab.sync == .free then s2
  else (s2.adjFab fun x => { x with heard := Tbl.erase x.heard chip }).chooseRoot

/-- A peer link trains. -/
def State.linkTrains (s : State) (link chip lat : Nat) : State :=
  if decide (link < 8) && decide (chip < 2 ^ 15) && s.cfg.fabric then s.defer (.linkUp link chip lat) else s

/-- It is up: its latency is a measured path.
Mark: DESIGN CHOICE (notes/assumptions/118.md). -/
def State.linkBack (s : State) (link chip lat : Nat) : State :=
  s.adjFab fun x =>
    { x.path lat 1 with links := Tbl.set x.links link (chip, lat % 2 ^ 16), linksUp := setBit x.linksUp link }

/-! ### The calendar (01 R46-R50) -/

/-- The time between two crystal edges in units of 1/32,768 ns: the crystal's error of up to 20 ppm is free, RATE and the
servo's slew add to its rate in parts per billion (01 R46, R48, R50).
Mark: DESIGN CHOICE (notes/assumptions/157.md). -/
def Cal.gap (c : Cal) (k : Nat) : Nat := (1000000000 - (c.adj + c.slew) + (k % 40001 : Nat) - 20000).toNat

/-- A crystal edge: a write that waits is taken and INVALID is clear, else SUBSEC counts; the second's own boundary is
CALENDAR_SECOND.
Mark: DEDUCED (notes/assumptions/121.md); DESIGN CHOICE (notes/assumptions/160.md). -/
def Cal.atEdge (c : Cal) (gap : Nat) : Cal :=
  match c.pendingSet with
  | some (a, b) => { c with sec := a, sub := b, invalid := false, pendingSet := none, edge := c.edge + gap }
  | none => { c with sub := min 32767 (c.sub + 1), edge := c.edge + gap }

/-- The crystal edge that falls in the tick that ends, if one does.
Mark: DEDUCED (notes/assumptions/121.md). -/
def State.calEdge (s : State) : State :=
  if s.ftc * 32768 < s.cal.edge then s
  else
    let (k, s1) := s.takeFree
    s1.adjCal fun c => c.atEdge (c.gap k)

/-- SUBSEC as it runs.
Mark: DESIGN CHOICE (notes/assumptions/157.md). -/
def State.subNow (s : State) : Nat := s.cal.sub

/-- Power returns: the FTC starts again at 0, and the calendar has run on the backup cell meanwhile, if it runs. How far into
the second it is, and when its next edge comes, is free.
Mark: DESIGN CHOICE (notes/assumptions/157.md). -/
def Cal.powered (c : Cal) (k : Nat) : Cal :=
  { c with edge := k % 1000000000 + 1
           sub := if c.invalid then c.sub else c.sub + k / 1000000000 % (32768 - c.sub) }

/-- A second begins, with an edge of the crystal: the FTC is captured with the new seconds, and a write that waits for the
edge is taken after it. Where in the tick it falls is free. On the backup cell,
without module power, the calendar only counts; with INVALID it then stands still.
Mark: DEDUCED (notes/assumptions/121.md). -/
def State.calendarSecond (s : State) : State :=
  if s.boot.unpowered then
    (if s.cal.invalid then s else s.adjCal fun c => { c with sec := (c.sec + 1) % 2 ^ 48, sub := 0 })
  else
    let (k, s1) := s.takeFree
    s1.adjCal fun c =>
      let d : Cal := { c with sec := (c.sec + 1) % 2 ^ 48, sub := 0, capFtc := s.ftc + k % 64, capSec := (c.sec + 1) % 2 ^ 48,
                              edge := (s.ftc + k % 64) * 32768 + c.gap (k / 64) }
      match c.pendingSet with
      | some (a, b) => { d with sec := a, sub := b, invalid := false, pendingSet := none }
      | none => d

/-- A write of MH_CAL_TIME: it takes effect on the next crystal edge.
Mark: DEDUCED (notes/assumptions/121.md); DESIGN CHOICE (notes/assumptions/160.md). -/
def State.calWrite (s : State) (v : Nat) : State :=
  s.adjCal fun c => { c with pendingSet := some (bitsOf v 15 48, bitsOf v 0 15) }

/-- The backup cell falls below its hold threshold. -/
def State.cellFalls (s : State) : State := s.adjCal fun c => { c with cellLow := true }

/-- The backup cell is exhausted while the module has no power: the crystal stops. -/
def State.crystalStops (s : State) : State :=
  if s.boot.unpowered then s.adjCal fun c => { c with invalid := true, cellLow := true } else s

/-- A read of MH_CAL_CAPTURE_FTC latches MH_CAL_CAPTURE_SEC for that reader.
Mark: DEDUCED (notes/assumptions/122.md). -/
def State.capRead (s : State) (who : Agent) : State :=
  ({ s with readData := s.cal.capFtc } : State).adjCal fun c =>
    { c with latchSec := (who, c.capSec) :: c.latchSec.filter fun x => x.1 != who }

/-- A PTP event of the configured port and domain raises its source; with a core that holds the PTP duty the servo steps the
calendar where its error exceeds 1 s, and slews it toward the master's time otherwise, by at most 500 ppm. `err` is the master's time less the calendar's in ns, `sec` and `sub` the
master's time. How fast it slews is free.
Mark: DESIGN CHOICE (notes/assumptions/141, 160.md). -/
def State.ptp (s : State) (nx domain ftc sec sub utc : Nat) (err : Int) : State :=
  if s.cfg.ptpPort ≠ nx + 1 ∨ 1 < nx ∨ domain ≠ s.cfg.ptpDomain ∨ s.ftc + 63 < ftc then s
  else if (s.duty 12).2 then s.raise 40
  else
    let (k, s1) := s.takeFree
    (s1.adjCal fun c =>
      let d : Cal := { c with source := nx + 1, utc := utc % 2 ^ 16, ptpLocked := decide (absInt err ≤ 1000) }
      if absInt err > 1000000000 ∨ c.invalid = true then
        { d with sec := sec % 2 ^ 48, sub := sub % 2 ^ 15, invalid := false, slew := 0 }
      else { d with slew := err.sign * (k % 500001 : Nat) }).raise 40

end Sys2Proof.Machine
end

