-- ==== Sys2Proof/Machine/Processors.lean ====
section
/-! DEFINITION. The firmware processors and their interrupt controller (12 R352-R374; 13 R391-R395): claims and timers,
crashes and restarts, duties, images, activation and the board management port. -/
namespace Sys2Proof.Machine

/-! ### The interrupt controller (13 R391-R395) -/

/-- The shared sources that exist. -/
def sharedSources : List Nat := ((List.range 160).map fun i => i + 32).filter fun n => (icReset n).isSome

/-- PRIO of a source as a processor sees it. -/
def State.icPrio (s : State) (p n : Nat) : Nat :=
  if n < 32 then (s.icProc p).prio.getD n 0 else (s.icSrc n).prio

/-- Is a source active on a processor? -/
def State.icActive (s : State) (p n : Nat) : Bool :=
  if n < 32 then bitOf (s.icProc p).active n
  else (icReset n).isSome && (s.icSrc n).target == p && (s.icSrc n).active

/-- The sources that a processor can see. -/
def State.icSources (s : State) (p : Nat) : List Nat :=
  List.range 32 ++ sharedSources.filter fun n => (s.icSrc n).target == p

/-- Is a source eligible for a processor (13 R393)? -/
def State.icEligible (s : State) (p n : Nat) : Bool :=
  let b := s.icProc p
  let on := if n < 32 then bitOf b.enable n && bitOf b.pending n && !bitOf b.active n
    else let x := s.icSrc n; x.target == p && x.enable && x.pending && !x.active
  on && decide (b.thresh < s.icPrio p n)

/-- GROUP of a priority. -/
def groupOfPrio (prio split : Nat) : Nat := prio / 2 ^ split

/-- The selected source: the highest GROUP, then the highest SUB, then the lowest number. -/
def State.icSelect (s : State) (p : Nat) : Option Nat :=
  let sp := (s.icProc p).split
  let key := fun (n : Nat) => (255 - groupOfPrio (s.icPrio p n) sp) * 2 ^ 16 + (255 - s.icPrio p n % 2 ^ sp) * 2 ^ 8 + n
  minBy key ((s.icSources p).filter fun n => s.icEligible p n)

/-- The running group of a processor, if a source is active. -/
def State.icRunning (s : State) (p : Nat) : Option Nat :=
  match (s.icSources p).filter fun n => s.icActive p n with
  | [] => none
  | l => some (maxNat (l.map fun n => groupOfPrio (s.icPrio p n) (s.icProc p).split))

/-- Is the external interrupt of a processor asserted? -/
def State.icAsserted (s : State) (p : Nat) : Bool :=
  match s.icSelect p, s.icRunning p with
  | some n, some g => decide (g < groupOfPrio (s.icPrio p n) (s.icProc p).split)
  | some _, none => true
  | none, _ => false

/-- A read of MH_IC_CLAIM: the selected source is no longer pending, and active.
Mark: DEDUCED (notes/assumptions/103.md). -/
def State.icClaim (s : State) (p : Nat) : State :=
  match s.icSelect p with
  | none => { s with readData := 0xFFFF }
  | some n =>
    let s1 : State := { s with readData := n }
    if n < 32 then s1.adjIcProc p fun b => { b with pending := clearBit b.pending n, active := setBit b.active n }
    else s1.adjSrc n fun x => { x with pending := false, active := true }

/-- A write to MH_IC_COMPLETE. -/
def State.icComplete (s : State) (p n : Nat) : State :=
  if s.icActive p n then
    if n < 32 then s.adjIcProc p fun b => { b with active := clearBit b.active n }
    else s.adjSrc n fun x => { x with active := false }
  else s.adjIcProc p fun b => { b with err := true }

/-- A write to MH_IC_DB: bits 0 to 7 raise DB0 to DB7. -/
def State.icDoorbell (s : State) (p bits : Nat) : State :=
  if p < 19 then foldS ((List.range 8).filter fun i => bitOf bits i) (fun s i => s.raisePrivate p (3 + i)) s else s

/-- The FTC reaches a timer's COMPARE value in this tick. -/
def State.icTimer (s : State) (p t : Nat) : State :=
  let b := s.icProc p
  let c := if t = 0 then b.timer0 else b.timer1
  if decide (19 ≤ p) || decide (2 ≤ t) || c == 0 || decide (s.ftc + 63 < c) then s
  else (s.adjIcProc p fun b => if t = 0 then { b with timer0 := 0 } else { b with timer1 := 0 }).raisePrivate p t

/-! ### Processors and duties (12 R352, R353) -/

/-- Change the firmware. -/
def State.adjFw (s : State) (f : Fw → Fw) : State := { s with fw := f s.fw }

/-- A processor: 0-7 the general complex, 8 SEC, 9 PWR, 10 SCH, 11-18 the CCCs. -/
def State.proc (s : State) (n : Nat) : Proc := s.fw.procs.getD n Proc.reset

/-- Change a processor. -/
def State.adjProc (s : State) (n : Nat) (f : Proc → Proc) : State :=
  s.adjFw fun w => { w with procs := w.procs.set n (f (s.proc n)) }

/-- Is a processor RUNNING? -/
def State.procUp (s : State) (n : Nat) : Bool := (s.proc n).st == .running

/-- Does Quickset take every WEIGHT as 1 (12 R362)? Not during a switch (R369). -/
def State.schDown (s : State) : Bool :=
  match (s.proc 10).st with | .restarting => true | .heldDown => true | _ => false

/-- Does a core hold the duty of the epoch cycle (08 R251)? -/
def State.epochDuty (s : State) : Bool := !(s.duty 9).2

/-- Is a duty at its quiet point (12 R353)? A servo update is one event, so PTP is always between two of them. -/
def State.dutyQuiet (s : State) (d : Nat) : Bool :=
  if d < 8 then !(s.works.any fun e => match e.2.site with | .ring p 0 => p % 8 == d | _ => false)
  else match d with
  | 8 => !s.later.contains .bias
  | 9 => s.cop.phase == .opening && s.filling.isNone
  | 10 => s.svc.st != 1 && !s.svc.acting
  | 11 => s.fw.busy == []
  | 13 => s.fw.writes == []
  | _ => true

/-- The next RUNNING general-complex core after `n`, in ascending number modulo 8. -/
def State.successor (s : State) (n : Nat) : Option Nat :=
  ((List.range 7).map fun i => (n + 1 + i) % 8).find? fun k => s.procUp k

/-- The duties of a core move to its successor, or wait; the core is to have them back.
Mark: DEDUCED (notes/assumptions/66.md). -/
def State.moveDuties (s : State) (n : Nat) : State :=
  let next := s.successor n
  let mine := (List.range 14).filter fun d => (s.duty d).1 == n
  s.adjFw fun w => { w with
    duties := w.duties.map fun d =>
      if d.1 = n then (match next with | some k => (k, false) | none => (n, true)) else d
    lost := mine.foldl (fun t d => if next.isSome then Tbl.set t d ((Tbl.getD t d []).filter (fun k => k != n) ++ [n]) else t) w.lost }

/-- Shared sources of a core that stops go to its successor; they return when it runs again, those of ADMIN_DB with their
duty (13 R395). -/
def State.moveSources (s : State) (n : Nat) : State :=
  match s.successor n with
  | none => s
  | some k => foldS (sharedSources.filter fun i => (s.icSrc i).target == n) (fun s i => s.adjSrc i fun x =>
      { x with target := k, back := if 64 ≤ i then none else if x.back.isSome then x.back else some n }) s

/-- The shared sources of a processor that stops: those that are active become pending again, and those of a core of the general
complex move (13 R395). -/
def State.releaseSources (s : State) (n : Nat) : State :=
  let s1 := foldS (sharedSources.filter fun i => (s.icSrc i).target == n && (s.icSrc i).active) (fun s i =>
    s.adjSrc i fun x => { x with pending := true, active := false }) s
  if n < 8 then s1.moveSources n else s1

/-- What a crash does to the interrupts of a processor (13 R395).
Mark: DEDUCED (notes/assumptions/98.md). -/
def State.crashSources (s : State) (n : Nat) : State := (s.adjIcProc n fun _ => IcProc.reset).releaseSources n

/-- The sources that return to a processor that runs again. -/
def State.returnSources (s : State) (n : Nat) : State :=
  foldS (sharedSources.filter fun i => (s.icSrc i).back == some n) (fun s i =>
    s.adjSrc i fun x => { x with target := n, back := none }) s

/-- A moved duty returns to the core that lost it, which runs again, at the duty's quiet point; of several the first loser has
it back. ADMIN_DB sources return with it.
Mark: DEDUCED (notes/assumptions/66.md). -/
def State.dutyReturn (s : State) (d : Nat) : State :=
  let l := Tbl.getD s.fw.lost d []
  match l.find? fun k => s.procUp k with
  | none => s
  | some home =>
    if decide (14 ≤ d) || !s.dutyQuiet d then s
    else
      let s1 := s.adjFw fun w =>
        { w with duties := w.duties.set d (home, false), lost := Tbl.set w.lost d (l.takeWhile fun k => k != home) }
      if d < 8 then
        foldS ((List.range 128).filter fun p => p % 8 == d) (fun s p => s.adjSrc (64 + p) fun x => { x with target := home }) s1
      else s1

/-- Has an admin command been posted, as its duty's journal records (12 R354, R363)? -/
def State.journaled (s : State) (x : Work) : Bool :=
  match Tbl.get? s.fw.journal (x.part % 8) with
  | some j => j.part == x.part && j.seq == x.seq
  | none => false

/-- Admin commands of the groups of a core that are in progress and not posted run again from their start (12 R362). -/
def State.rerunAdmin (s : State) (n : Nat) : State :=
  let groups := (List.range 8).filter fun d => (s.duty d).1 == n
  foldS (Tbl.keys s.works) (fun s w => match s.work? w with
    | some x => (match x.site, x.phase with
      | .ring p 0, .decided _ _ =>
        if groups.contains (p % 8) && !s.journaled x && x.abort.isNone && isAdmin (opcodeOf x.cmd)
        then (s.leavePleach w).phase w (.parked .notNeeded) else s
      | .ring p 0, .io _ _ =>
        if groups.contains (p % 8) && !s.journaled x && x.abort.isNone then (s.leavePleach w).phase w (.parked .notNeeded) else s
      | .ring p 0, .aborting _ =>
        if groups.contains (p % 8) && !s.journaled x && x.abort.isNone then s.phase w (.parked .notNeeded) else s
      | _, _ => s)
    | none => s) s

/-! ### Clocks under the PWR clamp (12 R362; 14 R417) -/

/-- Set the engine clocks: the step of core engines and TX, and that of NX and CX, in units of 93.75 MHz; 0 stops. A
fenced core stays gated. -/
def State.setClocks (s : State) (core nx : Nat) : State :=
  let s1 : State := { s with pwr := { s.pwr with coreStep := core, nxStep := nx } }
  foldS (List.range 526) (fun s e =>
    if decide (e < 512) && s.isFenced (e / 4) then s
    else s.adjEp e fun x => x.clock s.ftc (if e < 520 then core else nx)) (s1.countBusyAll s.ftc)

/-- The clocks that a level calls for, given the frequencies in force: NONE 1.5 GHz, SHED 0.75 GHz, TRIP stopped. -/
def levelClocks (level core nx : Nat) : Nat × Nat :=
  match level with
  | 0 => (16, 16)
  | 1 => (clampNat 8 16 core, clampNat 8 16 nx)
  | 2 => (8, 8)
  | _ => (0, 8)

/-- The clamp of a PWR crash acts as SHED on the clocks and does not change the level; stopped clocks stay stopped.
Mark: DEDUCED (notes/assumptions/99.md). -/
def State.clampClocks (s : State) : State :=
  ({ s with pwr := { s.pwr with clamp := true } } : State).setClocks (if s.pwr.coreStep = 0 then 0 else 8) 8

/-- The clamp ends at the boundary after PWR runs again and publishes its first clock setting.
Mark: DEDUCED (notes/assumptions/99.md). -/
def State.endClamp (s : State) : State :=
  if s.pwr.clamp && s.procUp 9 then
    let c := levelClocks s.pwr.level 16 16
    ({ s with pwr := { s.pwr with clamp := false } } : State).setClocks c.1 c.2
  else s

/-! ### Images (12 R355-R359) -/

/-- Bytes of a list of cells. -/
def cellBytes (t : List Host.Cell) (o n : Nat) : List Byte := (List.range n).map fun i => Mem.get t (o + i)

/-- CLASS, OFFSET and BYTES of component `i`. -/
def imgComp (t : List Host.Cell) (i : Nat) : Nat × Nat × Nat := (tn t (64 + 64 * i) 1, tn t (68 + 64 * i) 4, tn t (72 + 64 * i) 4)

/-- The number of components. -/
def imgNcomp (t : List Host.Cell) : Nat := tn t 6 2

/-- The components. -/
def imgComps (t : List Host.Cell) : List (Nat × Nat × Nat) := (List.range (imgNcomp t)).map (imgComp t)

/-- Do two components overlap? -/
def compOverlap (a b : Nat × Nat × Nat) : Bool := decide (a.2.1 < b.2.1 + b.2.2) && decide (b.2.1 < a.2.1 + a.2.2)

/-- The header fields of R357, for an image in `len` bytes.
Mark: DEDUCED (notes/assumptions/95.md). -/
def imgHeaderOk (t : List Host.Cell) (len : Nat) : Bool :=
  let n := imgNcomp t
  let size := tn t 16 4
  let cs := imgComps t
  let count := fun (c : Nat) => (cs.filter fun x => x.1 == c).length
  tn t 0 4 == 0x4746494D && tn t 4 2 == 1 && decide (n = 5 ∨ n = 6) && tn t 12 1 != 0 && tz t 13 3 && tz t 20 44 &&
    decide (4096 ≤ size ∧ size ≤ 25165824) && decide (size ≤ len) && tz t 673 3295 && tz t 4064 32 &&
    ((List.range n).all fun i => tz t (65 + 64 * i) 3 && tz t (76 + 64 * i) 4) &&
    (cs.all fun x => decide (1 ≤ x.1 ∧ x.1 ≤ 6) && decide (x.2.1 + x.2.2 ≤ size)) &&
    ([1, 2, 3, 4, 5].all fun c => count c == 1) && decide (count 6 ≤ 1) &&
    ((List.range n).all fun i => (List.range i).all fun j => !compOverlap (imgComp t i) (imgComp t j)) &&
    decide (sumNat ((cs.filter fun x => decide (x.1 ≤ 5)).map fun x => x.2.2) ≤ 16777216)

/-- KEY of an image and the signature over its header are right (12 R357).
Mark: DESIGN CHOICE (notes/assumptions/94.md). -/
def imgSigned (t : List Host.Cell) (digest : List Byte) : Bool :=
  let key := cellBytes t 576 97
  Config.sha384 key == digest && Config.signed key (cellBytes t 0 3968) (cellBytes t 3968 96)

/-- The digest of component `i` is the one in the header.
Mark: DESIGN CHOICE (notes/assumptions/94.md). -/
def imgDigestOk (t : List Host.Cell) (i : Nat) : Bool :=
  Config.sha384 (cellBytes t (imgComp t i).2.1 (imgComp t i).2.2) == cellBytes t (80 + 64 * i) 48

/-- The checks of R358 on an image, as the FAIL_CAUSE of the first that fails.
Mark: DESIGN CHOICE (notes/assumptions/94.md); DEDUCED (notes/assumptions/95.md). -/
def imgCheck (t : List Host.Cell) (len fuse : Nat) (digest : List Byte) : Option Nat :=
  if !imgHeaderOk t len then some 1
  else if !imgSigned t digest then some 2
  else if tn t 12 1 < fuse then some 3
  else if !((List.range (imgNcomp t)).all (imgDigestOk t)) then some 4
  else none

/-- The slot that runs: that of SEC's component. -/
def State.runB (s : State) : Bool := (s.proc 8).imageB

/-! ### The flash (12 R355, R356) -/

/-- Bytes of an image slot. -/
def imageSlotBytes : Nat := 25165824
/-- Offset of a copy of the boot record. -/
def offRecord (i : Nat) : Nat := 0x8000 * i
/-- Offset of image slot B or A. -/
def offSlot (b : Bool) : Nat := if b then 0x1810000 else 0x10000
/-- Offset of the configuration region. -/
def offConfig : Nat := 0x3010000
/-- Bytes of the configuration region. -/
def configBytes : Nat := 12582912
/-- Entries of 64 bytes that the 1,984 KiB of the crash log hold. -/
def crashEntries : Nat := 31744
/-- Offset of entry `n` of the crash log.
Mark: DESIGN CHOICE (notes/assumptions/156.md). -/
def offCrash (n : Nat) : Nat := 0x3E10000 + 64 * (n % crashEntries)

/-- A slot of the flash. -/
def Flash.slot (f : Flash) (b : Bool) : List Host.Cell := f.region (offSlot b) imageSlotBytes

/-- The configuration region. -/
def Flash.config (f : Flash) : List Host.Cell := f.region offConfig configBytes

/-- The 64 bytes of a boot record around a CRC. -/
def bootBody (seq : Nat) (b : Bool) (crc : Nat) : List Byte :=
  leBytes 4 0x44524342 ++ leBytes 4 seq ++ leBytes 4 (natOfBool b) ++ leBytes 4 crc ++ List.replicate 48 0

/-- The 64 bytes of a boot record (12 R356). -/
def bootBytes (seq : Nat) (b : Bool) : List Byte := bootBody seq b (crc32 (bootBody seq b 0)).toNat

/-- A copy of the boot record, where it is valid: MAGIC and CRC-32 are right. -/
def Flash.copy (f : Flash) (i : Nat) : Option BootRec :=
  let o := offRecord i
  if tn f.cells o 4 = 0x44524342 ∧
      tn f.cells (o + 12) 4 = (crc32 (cellBytes f.cells o 12 ++ leBytes 4 0 ++ cellBytes f.cells (o + 16) 48)).toNat then
    some { seq := tn f.cells (o + 4) 4, activeB := bitOf (tn f.cells (o + 8) 1) 0 }
  else none

/-- The number of the copy that holds: the valid one with the higher SEQ. -/
def Flash.holder (f : Flash) : Option Nat :=
  match f.copy 0, f.copy 1 with
  | some a, some b => some (if a.seq < b.seq then 1 else 0)
  | some _, none => some 0
  | none, some _ => some 1
  | none, none => none

/-- The boot record that holds. -/
def Flash.holds (f : Flash) : Option BootRec := f.holder.bind f.copy

/-- The copy that a new boot record goes into. -/
def Flash.nextCopy (f : Flash) : Nat := if f.holder = some 0 then 1 else 0

/-- A new boot record goes into the other copy with SEQ + 1. -/
def Flash.record (f : Flash) (b : Bool) : Flash :=
  let seq := ((match f.holds with | some r => r.seq | none => 0) + 1) % 2 ^ 32
  f.put (offRecord f.nextCopy) 64 (bytesCells (bootBytes seq b))

/-- A write that is torn (12 R356): of an image a part of free length has gone into the slot, the copy of a boot record is not
valid, and of a snapshot or a crash-log entry the older copy stays.
Mark: DESIGN CHOICE (notes/assumptions/97.md). -/
def Flash.torn (f : Flash) (w : FlashWrite) (n : Nat) : Flash :=
  match w with
  | .image b t _ =>
    f.put (offSlot b) imageSlotBytes
      ((t.filter fun c => decide (c.1 < n)) ++ (f.slot b).filter fun c => decide (n ≤ c.1))
  | .record _ _ => f.put (offRecord f.nextCopy) 64 []
  | .snapshot _ => f.put (biasOff (1 - f.biasHolder)) biasCopy []
  | .crash _ => f.put (offCrash f.logged) 64 []

/-- Ask FLASH for a write. -/
def State.askFlash (s : State) (x : FlashWrite) : State := s.adjFw fun w => { w with writes := w.writes ++ [x] }

/-- A firmware command fails with a cause. -/
def State.fwFail (s : State) (cause : Nat) : State := s.adjFw fun w => { w with act := 7, fail := cause }

/-- An image is in its slot: it is STAGED; in recovery the boot record names slot A (12 R367; 14 R413).
Mark: DEDUCED (notes/assumptions/96.md). -/
def State.imageWritten (s : State) (b : Bool) (t : List Host.Cell) : State :=
  let s1 := s.adjFw fun w =>
    { w with act := 2, fail := 0, stagedOk := true, stagedVersion := tn t 8 4, stagedSvn := tn t 12 1
             flash := w.flash.put (offSlot b) imageSlotBytes t }
  if s.boot.phase = .recovery then s1.askFlash (.record false none) else s1

/-- A boot record is written. FW_VERSION and FW_IMAGE_B follow at the next boundary where it ends an activation (12 R369;
02 R74). -/
def State.recordWritten (s : State) (b : Bool) (fw : Option (Nat × Nat)) : State :=
  let s1 := s.adjFw fun w => { w with flash := w.flash.record b, activeB := b }
  match fw with | some v => s1.defer (.fwVersion v.1 v.2 b) | none => s1

/-- A flash write has its effect; the crash log keeps the entries that it has room for.
Mark: DESIGN CHOICE (notes/assumptions/156.md). -/
def State.flashed (s : State) (x : FlashWrite) : State :=
  match x with
  | .image b t ok => if ok then s.imageWritten b t else s.fwFail 8
  | .record b fw => s.recordWritten b fw
  | .snapshot l => s.adjFw fun w => { w with flash := w.flash.putSnaps l }
  | .crash r => s.adjFw fun w => { w with flash :=
      { w.flash.put (offCrash w.flash.logged) 64 (bytesCells r) with logged := w.flash.logged + 1 } }

/-- A flash operation ends: the oldest write is done, and FLASH_DONE is raised. No write is done while no core holds
FLASH (12 R353, R364). -/
def State.flashDone (s : State) : State :=
  match s.fw.writes with
  | [] => s
  | x :: l => if (s.duty 13).2 then s else ((s.adjFw fun w => { w with writes := l }).flashed x).raise 41

/-- The capability table names the new firmware.
Mark: DEDUCED (notes/assumptions/104.md). -/
def State.showVersion (s : State) (version svn : Nat) (b : Bool) : State :=
  s.adjFw fun w => { w with runVersion := version, runSvn := svn, capB := b }

/-! ### Watchdogs and the verified image cache (12 R352, R358, R361) -/

/-- The period of a processor's watchdog in ns: 10 µs for the general complex, PRIV_WDT_US for the others (12 R360). -/
def State.wdtNs (s : State) (n : Nat) : Nat := if n < 8 then 10000 else s.fw.wdtUs * 1000

/-- May a processor be declared crashed for a cause? Its watchdog expires no sooner than a period after it began to run.
Mark: DEDUCED (notes/assumptions/158.md). -/
def State.mayCrash (s : State) (n cause : Nat) : Bool :=
  decide (1 ≤ cause ∧ cause ≤ 4) && (cause != 1 || decide ((s.proc n).wdtFrom + s.wdtNs n ≤ s.sinceReset))

/-- The component class that a processor runs: 1 GC, 2 SEC, 3 PWR, 4 SCH, 5 CCC (12 R357). -/
def compOf (n : Nat) : Nat := if n < 8 then 1 else if n < 11 then n - 6 else 5

/-- The key of a component in the cache.
Mark: DEDUCED (notes/assumptions/159.md). -/
def cacheKey (c : Nat) (b : Bool) : Nat := 2 * c + natOfBool b

/-- The bytes of the component of a class in a slot. -/
def Flash.comp (f : Flash) (b : Bool) (c : Nat) : List Host.Cell :=
  match (imgComps (f.slot b)).find? fun x => x.1 == c with
  | some x => f.region (offSlot b + x.2.1) x.2.2
  | none => []

/-- Those bytes as a list. -/
def Flash.compBytes (f : Flash) (b : Bool) (c : Nat) : List Byte :=
  match (imgComps (f.slot b)).find? fun x => x.1 == c with
  | some x => cellBytes (f.slot b) x.2.1 x.2.2
  | none => []

/-- SEC copies a component into the verified image cache.
Mark: DEDUCED (notes/assumptions/159.md). -/
def State.cacheComp (s : State) (c : Nat) (b : Bool) : State :=
  s.adjFw fun w => { w with cache := Tbl.set w.cache (cacheKey c b) (w.flash.comp b c) }

/-- A processor runs: its SRAM is loaded and its watchdog starts. -/
def Proc.runs (p : Proc) (now : Nat) : Proc := { p with st := .running, wdtFrom := now, sramUe := false }

/-! ### MH_FW_CMD (12 R359, R367, R368, R370) -/

/-- STAGE: SEC checks the image in the staging window, and FLASH is asked to write it to the inactive slot, in recovery to
slot A; `ok` says whether the write will come out right.
Mark: DEDUCED (notes/assumptions/96.md). -/
def State.stage (s : State) (len : Nat) (ok : Bool) : State :=
  let w := s.fw
  if w.act = 1 ∨ w.act = 3 ∨ w.act = 4 ∨ w.reverting = true then s
  else if !s.procUp 8 then s.fwFail 5
  else match imgCheck w.staged len w.fuseSvn s.cfg.keyDigest with
  | some c => s.fwFail c
  | none =>
    (s.adjFw fun w => { w with act := 1, fail := 0 }).askFlash
      (.image (s.boot.phase != .recovery && !s.runB) (w.staged.filter fun c => decide (c.1 < len)) ok)

/-- ACTIVATE. -/
def State.activateFw (s : State) : State :=
  if !s.procUp 8 then s.fwFail 5
  else if s.fw.act ≠ 2 then s
  else s.adjFw fun w => { w with act := 3, next := 0, fail := 0, switchList := [] }

/-- An activation stops: processors already switched go back in reverse order, and a boot record that has not been written yet is
not written (12 R370). -/
def State.stopActivation (s : State) (cause : Nat) : State :=
  s.adjFw fun w =>
    { w with act := 7, fail := cause, reverting := w.switchList != [], stagedOk := false
             writes := w.writes.filter fun x => match x with | .record _ (some _) => false | _ => true }

/-- ABORT. -/
def State.abortFw (s : State) : State := if s.fw.act = 3 ∨ s.fw.act = 4 then s.stopActivation 7 else s

/-- COMMIT_SVN. -/
def State.commitSvn (s : State) : State :=
  if !s.procUp 8 then s.fwFail 5 else s.adjFw fun w => { w with fuseSvn := max w.fuseSvn w.runSvn }

/-- A write to MH_FW_CMD takes effect; how a flash write of STAGE ends is `ok`.
Mark: DEDUCED (notes/assumptions/96.md); DESIGN CHOICE (notes/assumptions/97.md). -/
def State.fwCommand (s : State) (cmd : Nat) (ok : Bool) : State :=
  let s1 := s.raise 42
  match cmd with
  | 1 => s1.stage s.fw.stageLen ok
  | 2 => s1.activateFw
  | 3 => s1.abortFw
  | 4 => s1.commitSvn
  | _ => s1

/-! ### Activation (12 R368-R370) -/

/-- The processor that an activation switches after `n`; none after PWR. -/
def nextSwitch (n : Nat) : Option Nat :=
  if n < 7 then some (n + 1) else if n = 7 then some 11 else if n < 9 then some 9 else if n = 9 then none
  else if n = 10 then some 8 else if n < 18 then some (n + 1) else some 10

/-- Has there been no emergency for 100 ms? -/
def State.calmFor (s : State) : Bool :=
  s.pwr.level == 0 && (s.fw.calm == 0 || decide (s.fw.calm + 100000000 ≤ s.ftc))

/-- Is a processor at its quiet point (12 R368)? SEC's operations that last are SPDM requests, PWR's emergency handler is that of
source 36, and what SCH does takes no time.
Mark: DEDUCED (notes/assumptions/96.md). -/
def State.procQuiet (s : State) (n : Nat) : Bool :=
  if n < 8 then (List.range 14).all fun d => (s.duty d).1 != n || s.dutyQuiet d
  else if n = 8 then s.fw.busy.all fun m => m.2 != 5
  else if n = 9 then s.fw.idle && s.works == [] && !(s.svc.requests.any fun r => r.2.held) && s.pwr.due.isNone &&
    !(s.icSrc 36).pending && !(s.icSrc 36).active
  else if 11 ≤ n then !(s.proc n).gate
  else true

/-- May a processor switch now? -/
def State.maySwitch (s : State) (n : Nat) : Bool := s.calmFor && s.procUp 8 && s.procUp n && s.procQuiet n

/-- A processor restarts from another component: duties and sources move first; SEC and PWR act as in a crash. -/
def State.beginSwitch (s : State) (n : Nat) : State :=
  let s1 := (if n < 8 then s.moveDuties n else if n = 9 then s.clampClocks else s).releaseSources n
  (s1.cacheComp (compOf n) !(s.proc n).imageB).adjProc n fun p => { p with st := .switching }

/-- A processor reaches its quiet point during an activation, or while one is taken back. -/
def State.fwSwitch (s : State) (n : Nat) : State :=
  let w := s.fw
  if w.act = 3 ∧ w.next = n ∧ s.maySwitch n = true then (s.beginSwitch n).adjFw fun w => { w with act := 4 }
  else if w.reverting = true ∧ w.switchList.head? = some n ∧ s.procUp n = true ∧ s.procQuiet n = true then s.beginSwitch n
  else s

/-- A processor that was switching runs its new component, or the old one again. -/
def State.endSwitch (s : State) (n : Nat) : State :=
  let w := s.fw
  if w.reverting && w.switchList.contains n then
    let rest := w.switchList.filter fun k => k != n
    (s.adjProc n fun p => { p with imageB := !p.imageB, version := p.old, switched := none }).adjFw fun w =>
      { w with switchList := rest, reverting := rest != [] }
  else
    let s1 := s.adjProc n fun p => { p with imageB := !p.imageB, version := w.stagedVersion, old := p.version, switched := some s.ftc }
    if w.act ≠ 4 then s1.adjFw fun w => { w with switchList := n :: w.switchList, reverting := true }
    else match nextSwitch n with
    | some k => s1.adjFw fun w => { w with act := 3, next := k, switchList := n :: w.switchList }
    | none => (s1.adjFw fun w => { w with act := 6, switchList := n :: w.switchList }).askFlash
        (.record (s1.proc 9).imageB (some (w.stagedVersion, w.stagedSvn)))

/-! ### Crashes and restarts (12 R360-R366) -/

/-- The 64 bytes of a crash record, its STAMP at a free instant of the tick (01 R43); mcause and the rest of the trap state are the processor's.
Mark: DEDUCED (notes/assumptions/101.md). -/
def State.crashRecord (s : State) (n cause crashes : Nat) (held : Bool) (pc info : Nat) : List Byte :=
  let duties := sumNat ((List.range 14).map fun d => if (s.duty d).1 = n ∧ (s.duty d).2 = false then 2 ^ d else 0)
  leBytes 8 ((s.ftc + (Config.word (s.free + 1)).toNat % 64) % 2 ^ 63) ++ leBytes 1 n ++ leBytes 1 cause ++ leBytes 1 crashes ++
  leBytes 1 (natOfBool held) ++
    leBytes 4 ((Config.word s.free).toNat % 2 ^ 32) ++ leBytes 4 pc ++ leBytes 4 info ++ leBytes 4 (s.proc n).version ++
    leBytes 4 duties ++ leBytes 8 0 ++ List.replicate 24 0

/-- Write a crash record: into the first free register, or counted in LOST; FLASH copies it to the crash log (12 R365). -/
def State.logCrash (s : State) (r : List Byte) : State :=
  (s.adjFw fun w =>
    if w.crashRecs.length < 16 then { w with crashRecs := w.crashRecs ++ [r] }
    else { w with crashLost := satInc 8 w.crashLost }).askFlash (.crash r)

/-- What the crash of a processor does to the device (12 R362, R364). -/
def State.crashEffects (s : State) (n : Nat) (held : Bool) : State :=
  if n < 8 then
    let s1 := (s.rerunAdmin n).moveDuties n
    if (s.duty 11).1 = n then s1.adjFw fun w => { w with busy := [] } else s1
  else if n = 9 then s.clampClocks
  else if 11 ≤ n then s.adjProc n fun p => { p with gate := !held, degraded := if held then true else p.degraded }
  else s

/-- A crash of SEC sends the boot to recovery (14 R410, R413): no other processor runs, and SEC restarts.
Mark: DEDUCED (notes/assumptions/117.md). -/
def State.toRecovery (s : State) : State :=
  let sec := { s.proc 8 with st := .restarting }
  let s1 := s.adjFw fun w => { w with procs := (List.replicate 19 Proc.reset).set 8 sec }
  { s1 with boot := { s1.boot with phase := .recovery } }

/-- A firmware processor is declared crashed. One that crashes within 1 s of its switch, or while it switches, restarts from the
old image (12 R370). -/
def State.procCrash (s : State) (n cause pc info : Nat) : State :=
  let p := s.proc n
  let alive := match p.st with
    | .running => true | .booting => true | .switching => true
    | _ => n == 8 && s.booting && s.boot.phase == .rom
  if decide (19 ≤ n) || !alive || !s.mayCrash n cause then s
  else
    let switching := match p.st with | .switching => true | _ => false
    let going := switching && !(s.fw.reverting && s.fw.switchList.contains n)
    let fresh := match p.switched with | some t => decide (s.ftc < t + 1000000000) | none => false
    let back := going || fresh
    let flips := (fresh && !going) || (switching && !going)
    let times := s.ftc :: p.declared.filter fun t => decide (s.ftc < t + 10000000000)
    let twice := n == 8 && p.declared.any fun t => decide (s.ftc < t + 1000000000)
    let held := decide (3 ≤ times.length) || twice
    let code := if back then 5 else cause
    let crashes := satInc 8 p.crashes
    let s0 : State := { s with free := s.free + 2 }
    let s1 := (s0.logCrash (s.crashRecord n code crashes held pc info)).adjProc n fun p =>
      { p with sramUe := cause == 3, st := if held then .heldDown else .restarting, crashes := crashes, cause := code, declared := times,
               imageB := if flips then !p.imageB else p.imageB, version := if flips then p.old else p.version,
               switched := none }
    let s2 := ((s1.crashEffects n held).crashSources n).raise 44
    let rest := s2.fw.switchList.filter fun k => k != n
    let s3 := if back then (s2.adjFw fun w => { w with switchList := rest }).stopActivation 6
      else if flips then s2.adjFw fun w => { w with switchList := rest, reverting := rest != [] }
      else s2
    let s4 := if twice then s3.machineCheck 8 0 0 0 0 else s3
    if n = 8 ∧ s.booting = true ∧ (1 ≤ p.crashes ∨ s.boot.phase = .rom ∨ s.boot.phase = .image) then s4.toRecovery else s4

/-- The restart time goes into the newest record of the processor that has none.
Mark: DEDUCED (notes/assumptions/101.md). -/
def stampRestart (n ftc : Nat) : List (List Byte) → List (List Byte)
  | [] => []
  | r :: rs =>
    if r.getD 8 0 = BitVec.ofNat 8 n ∧ leNat ((r.drop 32).take 8) = 0 then
      (r.take 32 ++ leBytes 8 ftc ++ r.drop 40) :: stampRestart n ftc rs
    else r :: stampRestart n ftc rs

/-- Duties that wait are taken up by a core that runs again.
Mark: DEDUCED (notes/assumptions/66.md). -/
def State.takeDuties (s : State) (n : Nat) : State :=
  if n < 8 then s.adjFw fun w => { w with duties := w.duties.map fun d => if d.2 then (n, false) else d } else s

/-- A processor runs again: after a crash from the verified cache, or, where its digest differs, from flash (a free
choice, which stands until SEC has read it again), which waits while SEC is down; after a switch from the other component.
Mark: DEDUCED (notes/assumptions/66, 101.md); DESIGN CHOICE (notes/assumptions/100.md). -/
def State.procRestart (s : State) (n : Nat) : State :=
  let p := s.proc n
  match p.st with
  | .restarting =>
    let key := cacheKey (compOf n) p.imageB
    let refetch := Config.flip s.free || s.fw.bad.contains key || !Tbl.has s.fw.cache key
    let s0 : State := { s with free := s.free + 2 }
    if refetch && n != 8 && !s.procUp 8 then s0.adjFw fun w => { w with bad := dedupNat (key :: w.bad) }
    else
      let s1 := (if refetch then s0.cacheComp (compOf n) p.imageB else s0).adjProc n fun p =>
        { p.runs s.sinceReset with degraded := false }
      let s2 := s1.adjFw fun w =>
        { w with refetch := w.refetch || refetch, bad := if refetch then w.bad.filter fun k => k != key else w.bad
                 crashRecs := stampRestart n (s.ftc + (Config.word (s.free + 1)).toNat % 64) w.crashRecs }
      (s2.returnSources n).takeDuties n
  | .switching => (((s.adjProc n fun p => p.runs s.sinceReset).endSwitch n).returnSources n).takeDuties n
  | _ => s

/-- 5 ms after a CCC was declared its launch gate opens and DEGRADED is set. -/
def State.gateTimeout (s : State) (n : Nat) : State :=
  let p := s.proc n
  if decide (11 ≤ n ∧ n < 19) && p.gate && !s.procUp n &&
      (match p.declared with | t :: _ => decide (t + 5000000 ≤ s.ftc) | [] => false) then
    s.adjProc n fun p => { p with gate := false, degraded := true }
  else s

/-- At the boundary after a CCC runs again its gate opens. -/
def State.openGates (s : State) : State :=
  s.adjFw fun w => { w with procs := w.procs.map fun p => if p.gate ∧ p.st = .running then { p with gate := false } else p }

/-- A processor's watchdog warning. -/
def State.wdtWarn (s : State) (n : Nat) : State := if n < 19 ∧ s.procUp n = true then s.raisePrivate n 2 else s

/-! ### The board management port (12 R371-R373) -/

/-- Is TELEMETRY held by a core that runs? -/
def State.telemetryUp (s : State) : Bool := !(s.duty 11).2 && s.procUp (s.duty 11).1

/-- A reply on PP4 whose content the spec leaves to the standards: a free word follows the head.
Mark: PRESUMED (notes/assumptions/93.md). -/
def State.mctpReply (s : State) (eid mtype : Nat) (head : List Word) : State :=
  ({ s with free := s.free + 1 } : State).send (.mctp eid mtype (head ++ [Config.word s.free]))

/-- An MCTP message arrives. A control message that sets the endpoint ID (command 1 in byte 1, the ID in byte 3 of its
body) is carried out; a PLDM or SPDM request occupies its requester, one at a time; another type is rejected.
Mark: PRESUMED (notes/assumptions/93.md). -/
def State.mctpIn (s : State) (eid mtype : Nat) (body : List Word) : State :=
  let s1 := s.raise 39
  if !s1.telemetryUp then s1
  else
    let w := (body.headD 0).toNat
    if mtype = 0 then
      (if bitsOf w 8 8 = 1 then s1.adjFw fun x => { x with eid := bitsOf w 24 8 } else s1).mctpReply eid 0 []
    else if mtype = 1 ∨ mtype = 5 then
      if s1.fw.busy.any fun m => m.1 == eid then s1 else s1.adjFw fun x => { x with busy := (eid, mtype) :: x.busy }
    else s1.mctpReply eid mtype []

/-- The requester of a message is free again. -/
def State.mctpEnds (s : State) (eid : Nat) : State := s.adjFw fun x => { x with busy := x.busy.filter fun m => m.1 != eid }

/-- May a request of a requester be answered: it came as an MCTP message, and TELEMETRY runs? -/
def State.mctpHas (s : State) (eid mtype : Nat) : Bool := s.telemetryUp && s.fw.busy.contains (eid, mtype)

/-- SPDM requests that SEC supports, by code.
Mark: PRESUMED (notes/assumptions/93.md). -/
def spdmKnown (code : Nat) : Bool := [0x81, 0x82, 0x83, 0x84, 0xE0, 0xE1, 0xE3].contains code

/-- What an SPDM measurement covers (12 R372): the boot ROM; the running SEC, GC, PWR, SCH and CCC components; the loaded patch;
the configuration region; grade, array map and FUSE_SVN, with TEST (14 R402). -/
def State.measured (s : State) (i : Nat) : List Byte :=
  match i with
  | 1 => Config.bootRom
  | 2 => s.fw.flash.compBytes (s.proc 8).imageB 2
  | 3 => s.fw.flash.compBytes (s.proc 0).imageB 1
  | 4 => s.fw.flash.compBytes (s.proc 9).imageB 3
  | 5 => s.fw.flash.compBytes (s.proc 10).imageB 4
  | 6 => s.fw.flash.compBytes (s.proc 11).imageB 5
  | 7 => s.bw.words.flatMap fun w => leBytes 20 w.2
  | 8 => cellBytes s.fw.flash.config 0 configBytes
  | _ => leBytes 2 s.cfg.grade ++ ((List.range 128).map fun c => BitVec.ofNat 8 (s.cfg.arrays c)) ++
      leBytes 1 s.fw.fuseSvn ++ leBytes 1 (bitsOf s.boot.straps 8 1)

/-- A measurement: a SHA-384 digest, and zeros for the patch where none is loaded.
Mark: PRESUMED (notes/assumptions/93.md). -/
def State.measurement (s : State) (i : Nat) : List Byte :=
  if i = 7 ∧ s.bw.shownId = 0 then List.replicate 48 0 else Config.sha384 (s.measured i)

/-- What SEC answers to a supported request behind its header: the measurement of the index in byte 3, or all of them for 0xFF;
the certificate chain of slot 0; the rest is left to the standard.
Mark: PRESUMED (notes/assumptions/93.md). -/
def State.spdmBody (s : State) (code : Nat) (body : List Word) : List Word :=
  let i := bitsOf (body.headD 0).toNat 24 8
  if code = 0xE0 then
    let l := if 1 ≤ i ∧ i ≤ 9 then [i] else if i = 0xFF then (List.range 9).map (· + 1) else []
    l.flatMap fun k => bytesWords 6 (s.measurement k)
  else if code = 0x82 then bytesWords ((Config.certChain.length + 7) / 8) Config.certChain
  else []

/-- SEC answers an SPDM request: ERROR Busy while it is down, ERROR for a request that it does not support.
Mark: PRESUMED (notes/assumptions/93.md). -/
def State.spdmIn (s : State) (eid code : Nat) (body : List Word) : State :=
  if !s.mctpHas eid 5 then s
  else
    let s1 := s.mctpEnds eid
    if !s.procUp 8 then s1.send (.mctp eid 5 [BitVec.ofNat 64 (0x7F * 2 ^ 8 + 0x03 * 2 ^ 16)])
    else if spdmKnown code then s1.mctpReply eid 5 (BitVec.ofNat 64 (code % 128 * 2 ^ 8) :: s.spdmBody code body)
    else s1.send (.mctp eid 5 [BitVec.ofNat 64 (0x7F * 2 ^ 8 + 0x07 * 2 ^ 16)])

/-- TELEMETRY answers a PLDM request; `type_` is its PLDM type. Type 2 reads the sensor that the body names. Type 5 brings
image words for the staging window behind an offset, and stages at the end, when no word follows; both take effect at the next
boundary (12 R352).
Mark: PRESUMED (notes/assumptions/93.md). -/
def State.pldmIn (s : State) (eid type_ : Nat) (body : List Word) : State :=
  if !s.mctpHas eid 1 then s
  else
    let s1 := s.mctpEnds eid
    match type_, body with
    | 2, k :: _ => s1.send (.mctp eid 1 [BitVec.ofNat 64 (s.fw.sensors.getD k.toNat 0)])
    | 5, body =>
      let (k, s2) := s1.takeFree
      (s2.hostOp (.pldm body (Config.flip k))).mctpReply eid 1 []
    | _, _ => s1.mctpReply eid 1 []

/-- A PLDM update's message takes effect: image words, of which the end is kept as the image's length, or the request to stage.
Mark: PRESUMED (notes/assumptions/93.md). -/
def State.pldmOp (s : State) (body : List Word) (ok : Bool) : State :=
  match body with
  | [] => (s.stage s.fw.pldmEnd ok).adjFw fun x => { x with pldmEnd := 0 }
  | o :: ws =>
    let cells := (wordBytes ws).zipIdx.map fun c => (o.toNat + c.2, c.1)
    s.adjFw fun x =>
      { x with staged := Mem.putAll (cells.filter fun c => decide (c.1 < imageSlotBytes)) x.staged
               pldmEnd := max x.pldmEnd (min imageSlotBytes (o.toNat + 8 * ws.length)) }

/-- The fenced cores. -/
def State.fencedCount (s : State) : Nat := ((List.range 128).filter fun c => s.isFenced c).length

/-- The sensors are updated, every 100 ms: Mahorn W, module W, hub die temperature and requests per second are measured; the level and
the fenced cores are Mahorn's own. -/
def State.sensorUpdate (s : State) (r : List Nat) : State :=
  if !s.telemetryUp || decide (s.sinceReset < s.fw.sensorAt + 100000000) then s
  else s.adjFw fun x =>
    { x with sensors := [r.getD 0 0, r.getD 1 0, r.getD 2 0, s.pwr.level, r.getD 3 0, s.fencedCount], sensorAt := s.sinceReset }

/-- A write of 1 to MH_FW_CRASH_CTRL.CLEAR: every crash record becomes invalid. -/
def State.clearCrashes (s : State) : State := s.adjFw fun w => { w with crashRecs := [] }

end Sys2Proof.Machine
end

