-- ==== Sys2Proof/Machine/Boxwood.lean ====
section
/-! DEFINITION. The patch store and the dispatch table of Boxwood, and the memory port arbiter (13 R375-R376, R382-R390,
R396-R397). -/
namespace Sys2Proof.Machine

/-! ### Patches (13 R382-R384) -/

/-- Change Boxwood. -/
def State.adjBw (s : State) (f : Boxwood → Boxwood) : State := { s with bw := f s.bw }

/-- Does a write to the patch and dispatch registers count? Only SEC writes them, and only until LOCK is set. -/
def State.mayPatch (s : State) (who : Agent) : Bool := who == .proc 8 && !s.bw.lock

/-- The 160 bits that five writes give, the first lowest. -/
def patchWord : List Nat → Nat
  | [] => 0
  | v :: vs => v % 2 ^ 32 + 2 ^ 32 * patchWord vs

/-- Is a word at an index one that SEC has to write: that of the patch offered, or any where none is?
Mark: DESIGN CHOICE (notes/assumptions/94.md). -/
def Boxwood.wordDue (b : Boxwood) (i v : Nat) : Bool := b.patchId == 0 || b.offerWords[i]? == some v

/-- Is it so for a dispatch entry? Without a patch an ADDR in the patch store is refused (13 R376).
Mark: DESIGN CHOICE (notes/assumptions/94.md). -/
def Boxwood.dispDue (b : Boxwood) (op v : Nat) : Bool :=
  if b.patchId = 0 then !(bitOf v 15 && decide (16384 ≤ v % 2 ^ 15)) else b.offerDisp.contains (op, v)

/-- Has SEC written all of a patch? -/
def State.patchWritten (s : State) : Bool :=
  ((List.range s.bw.offerWords.length).all fun i => Tbl.get? s.bw.words i == s.bw.offerWords[i]?) &&
    s.bw.offerDisp.all fun d => Tbl.get? s.dispTable d.1 == some d.2

/-- A write to MH_BW_PATCH_DATA: the fifth writes the word at INDEX in all four copies and adds 1 to INDEX.
Mark: DEDUCED (notes/assumptions/103.md). -/
def State.patchDataWrite (s : State) (who : Agent) (v : Nat) : State :=
  if !s.mayPatch who then s
  else
    let ps := s.bw.parts ++ [v % 2 ^ 32]
    if ps.length < 5 then s.adjBw fun b => { b with parts := ps }
    else if !s.bw.wordDue s.bw.index (patchWord ps) then s
    else s.adjBw fun b =>
      { b with parts := [], words := Tbl.set b.words b.index (patchWord ps), index := (b.index + 1) % 2 ^ 11 }

/-- A write to MH_BW_PATCH_ADDR. -/
def State.patchAddrWrite (s : State) (who : Agent) (v : Nat) : State :=
  if s.mayPatch who then s.adjBw fun b => { b with index := v % 2 ^ 11 } else s

/-- A write to MH_BW_DISP_WR: the entry of OPCODE holds ADDR in [14:0] and VALID in [15]. -/
def State.dispatchEntryWrite (s : State) (who : Agent) (v : Nat) : State :=
  let e := bitsOf v 8 15 + 2 ^ 15 * bitsOf v 23 1
  if s.mayPatch who && s.bw.dispDue (bitsOf v 0 8) e then
    { s with dispTable := Tbl.set s.dispTable (bitsOf v 0 8) e }
  else s

/-- LOCK is set. A patch that SEC was loading is then loaded, and UCODE_PATCH_ID shows it from the next boundary. -/
def State.patchLock (s : State) (who : Agent) : State :=
  if !s.mayPatch who || !s.patchWritten then s
  else
    let s1 := s.adjBw fun b => { b with lock := true }
    if s1.bw.patchId = 0 then s1 else (s1.adjBw fun b => { b with patchStatus := 1 }).defer .patched

/-- UCODE_PATCH_ID reads the PATCH_ID of the loaded patch.
Mark: DEDUCED (notes/assumptions/104.md). -/
def State.showPatch (s : State) : State := s.adjBw fun b => { b with shownId := b.patchId }

/-! ### The arbiter (13 R385-R390) -/

/-- BUDGET of an input, none for input 0. -/
def arbBudget : Nat → Option Nat
  | 7 => some 4 | 6 => some 48 | 5 => some 4 | 4 => some 4 | 3 => some 16 | 2 => some 4 | 1 => some 3 | _ => none

/-- The head of an input's queue. -/
def Arb.head (a : Arb) (k : Nat) : Option Xfer := (a.queues.getD k []).head?

/-- Is the head of an input's queue presented in this cycle (13 R389)?
Mark: DEDUCED (notes/assumptions/102.md). -/
def Arb.presents (a : Arb) (k : Nat) : Bool :=
  match a.head k with
  | none => false
  | some x =>
    match arbBudget k with
    | none => true
    | some b =>
      let left := b - a.used.getD k 0
      if arbRestart k then decide (ceilDiv (x.sectors - x.moved) 16 ≤ left) else decide (1 ≤ left)

/-- The input that the port is granted to in this cycle: the highest that presents a transfer. -/
def Arb.winner (a : Arb) : Option Nat := [7, 6, 5, 4, 3, 2, 1, 0].find? a.presents

/-- Change the head of an input's queue. -/
def Arb.setHead (a : Arb) (k : Nat) (f : Xfer → Xfer) : Arb :=
  { a with queues := a.queues.set k (match a.queues.getD k [] with | [] => [] | x :: xs => f x :: xs) }

/-- Add to entry `k` of a list of counts. -/
def bumpAt (l : List Nat) (k : Nat) (f : Nat → Nat) : List Nat := l.set k (f (l.getD k 0))

/-- The owner loses its grant to a higher input: a restart-class transfer starts over. -/
def Arb.lose (a : Arb) (k : Nat) : Arb :=
  if a.going && a.owner != k then
    let o := a.owner
    let a1 := { a with loss := bumpAt a.loss o (satInc 32) }
    if arbRestart o then a1.setHead o fun x => { x with moved := 0 } else a1
  else a

/-- Input `k` holds the port for a cycle. -/
def Arb.hold (a : Arb) (k : Nat) : Arb :=
  match a.head k with
  | none => a
  | some x =>
    let moved := x.moved + 16
    let done := decide (x.sectors ≤ moved)
    let a1 := { a with owner := k, used := bumpAt a.used k (· + 1), held := bumpAt a.held k fun n => (n + 1) % Config.two64 }
    let a2 := if done then { a1 with queues := a1.queues.set k ((a1.queues.getD k []).drop 1) }
      else a1.setHead k fun x => { x with moved := moved }
    let a3 := { a2 with progress := if arbRestart k then a2.progress else a2.progress.set k (if done then 0 else moved) }
    { a3 with going := !done && a3.presents k }

/-- One cycle of the port; a queue that then has room takes what waits for it. -/
def Arb.tickOne (a : Arb) : Arb :=
  match a.winner with
  | none => { a with going := false, cycle := a.cycle + 1 }
  | some k => { ((a.lose k).hold k).queueUp with cycle := a.cycle + 1 }

/-- So many cycles.
Mark: DESIGN CHOICE (notes/assumptions/4.md). -/
def Arb.run (a : Arb) : Nat → Arb
  | 0 => a
  | n + 1 => Arb.run a.tickOne n

/-- The tick ends: the remaining cycles pass, and every budget is full again.
Mark: DESIGN CHOICE (notes/assumptions/4.md). -/
def Arb.endTick (a : Arb) : Arb :=
  let b := if a.queues.all fun q => q == [] then { a with going := false } else a.run (Config.cyclesPerTick - a.cycle)
  { b with used := List.replicate 8 0, cycle := 0 }

/-- A part presents a transfer at an input in a cycle of the tick; with its queue full it waits.
Mark: DEDUCED (notes/assumptions/102.md). -/
def State.transferRequest (s : State) (k cycle sectors : Nat) : State :=
  if 8 ≤ k ∨ sectors = 0 ∨ arbMost k < sectors ∨ Config.cyclesPerTick ≤ cycle then s
  else ({ s with arb := s.arb.run (cycle - s.arb.cycle) } : State).present k sectors

end Sys2Proof.Machine
end

