-- ==== Sys2Proof/Machine/Trace.lean ====
section
/-! DEFINITION. The trace unit, the sampler, the serial trace port and the counter latches (15 R425, R428-R440). -/
namespace Sys2Proof.Machine

/-- Change the trace unit. -/
def State.adjTrace (s : State) (f : TraceUnit → TraceUnit) : State := { s with trace := f s.trace }

/-! ### Records (15 R430, R433, R434) -/

/-- Records that the buffer holds. -/
def traceRecords : Nat := 2097152

/-- One bit of CRC-16 with the polynomial x^16 + x^12 + x^5 + 1.
Mark: PRESUMED (notes/assumptions/129.md). -/
def crc16Bit (c : Nat) : Nat := if c / 2 ^ 15 % 2 = 1 then Nat.xor (c * 2 % 2 ^ 16) 0x1021 else c * 2 % 2 ^ 16

/-- One byte of it. -/
def crc16Byte (c : Nat) (b : Byte) : Nat :=
  crc16Bit (crc16Bit (crc16Bit (crc16Bit (crc16Bit (crc16Bit (crc16Bit (crc16Bit (Nat.xor c (b.toNat * 2 ^ 8)))))))))

/-- CRC-16 of 15 R434, initial value 0xFFFF.
Mark: PRESUMED (notes/assumptions/129.md). -/
def crc16 (bs : List Byte) : Nat := bs.foldl crc16Byte 0xFFFF

/-- STAMP without DEFERRED of a message of tick `n`; a deferred one carries OFFSET 0.
Mark: DEDUCED (notes/assumptions/128.md). -/
def traceTime (m : TraceMsg) (n : Nat) : Nat := n * 64 + (if m.deferred then 0 else m.offset % 64)

/-- Does the chip's time carry no bound on other chips' times (15 R430)? -/
def State.unsync (s : State) : Bool := match s.fab.sync with | .locked => false | .free => false | _ => true

/-- The 32 bytes of the record of a message of tick `n`. -/
def State.traceBytes (s : State) (n : Nat) (x : TraceSent) : List Byte :=
  let m := x.msg
  leBytes 8 (traceTime m n % 2 ^ 63 + (if m.deferred then 2 ^ 63 else 0)) ++ leBytes 2 (m.src % 2 ^ 10) ++ leBytes 1 m.event ++
    leBytes 1 (natOfBool x.loss + 2 * natOfBool s.unsync) ++ leBytes 4 s.trace.records ++ leBytes 4 m.d0 ++ leBytes 4 m.d1 ++
    leBytes 4 m.d2 ++ leBytes 2 (s.fab.chip % 2 ^ 15) ++ leBytes 2 0

/-- The frame of a record on the serial port. -/
def traceFrame (count : Nat) (r : List Byte) : List Word :=
  bytesWords 5 (leBytes 1 0xA5 ++ leBytes 1 count ++ leBytes 2 (crc16 r) ++ r)

/-- A record goes to the serial port, which takes 8 in the tick and queues 64 more. -/
def State.toPort (s : State) (r : List Byte) : State :=
  if !s.trace.portEn then s
  else if 72 ≤ s.trace.portQ.length then s.adjTrace fun t => { t with portDrop := satInc 32 t.portDrop }
  else s.adjTrace fun t => { t with portQ := t.portQ ++ [traceFrame (t.frame % 256) r], frame := t.frame + 1 }

/-- A message of tick `n` becomes a record, unless the buffer is full. -/
def State.writeRecord1 (s : State) (n : Nat) (x : TraceSent) : State :=
  if s.trace.st = .full then s.adjTrace fun t => { t with lost := satInc 32 t.lost }
  else
    let r := s.traceBytes n x
    let s1 := (s.storeBytes (s.trace.base + s.trace.records % traceRecords * 32) r).toPort r
    s1.adjTrace fun t =>
      { t with records := t.records + 1, wrapped := t.wrapped || decide (traceRecords ≤ t.records),
               unsyncSeen := t.unsyncSeen || s.unsync,
               st := if t.modeStop ∧ t.records + 1 = traceRecords then .full else t.st }

/-- The records of the tick that ends, written on input 0 of the memory port in ascending STAMP and then ascending SOURCE; the port sends 8 frames.
Mark: DEDUCED (notes/assumptions/128.md). -/
def State.flushTrace (s : State) : State :=
  let n := s.tick
  let l := sortBy (fun (a b : TraceSent) => lexLe [traceTime a.msg n, a.msg.src] [traceTime b.msg n, b.msg.src]) s.trace.sent
  let s0 := foldS l (fun s x => s.writeRecord1 n x) (s.adjTrace fun t => { t with sent := [] })
  let first := s.trace.base + s.trace.records % traceRecords * 32
  let s1 := s0.presentAt 0 true (some first) (sectorsIn first (32 * (s0.trace.records - s.trace.records)))
  let s2 := foldS (s1.trace.portQ.take 8) (fun s f => s.send (.port f)) s1
  s2.adjTrace fun t => { t with portQ := t.portQ.drop 8 }

/-! ### Slots (15 R429) -/

/-- The trace sources but for the sampler and the host marker, in ascending number. -/
def traceSources : List Nat :=
  List.range 526 ++ ((List.range 32).map fun i => 768 + i) ++ [800, 801, 802, 803, 804, 805, 806, 809]

/-- The slots that are granted where the last source granted before is `last`, `used` of them being gone. -/
def TraceUnit.grants (t : TraceUnit) (last used : Nat) : List Nat × List Nat :=
  let fixed := [807, 808].filter t.enabled
  let on := traceSources.filter t.enabled
  (fixed, ((on.filter fun n => decide (last < n)) ++ on.filter fun n => decide (n ≤ last)).take (120 - used - fixed.length))

/-- At a boundary the slots of the tick that begins are granted; with the buffer full messages are still sent, and counted
(15 R433).
Mark: DEDUCED (notes/assumptions/128.md). -/
def State.grantTrace (s : State) : State :=
  let t := s.trace
  if t.st = .on ∨ t.st = .full then
    let (fixed, got) := t.grants t.lastGranted 0
    s.adjTrace fun t =>
      { t with onTick := true, holders := fixed ++ got, grantFrom := t.lastGranted, lastGranted := (got.getLast?).getD t.lastGranted }
  else s.adjTrace fun t => { t with onTick := false, holders := [] }

/-- Register writes of this boundary have changed which sources are enabled: the slots of the tick are granted anew, but for
those that have been used (15 R429, R436).
Mark: DEDUCED (notes/assumptions/128.md). -/
def State.regrant (s : State) (before : TraceUnit) : State :=
  let t := s.trace
  if !t.onTick || (t.classes == before.classes && t.coreLo == before.coreLo && t.coreHi == before.coreHi) then s
  else
    let used := t.sent.map fun x => x.msg.src
    let (fixed, got) := t.grants t.grantFrom used.length
    s.adjTrace fun t =>
      { t with holders := dedupNat (used ++ fixed ++ got), lastGranted := (got.getLast?).getD t.grantFrom }

/-! ### Start and end (15 R436) -/

/-- The boundary of START_TICK is the next one, or has passed.
Mark: DEDUCED (notes/assumptions/130.md). -/
def State.traceStart (s : State) : State :=
  let t := s.trace
  if t.st = .armed ∧ t.enable = true ∧ t.startTick ≤ s.tick + 1 then s.adjTrace fun t => { t with turn := some true } else s

/-- The boundary of STOP_TICK is the next one, or has passed.
Mark: DEDUCED (notes/assumptions/130.md). -/
def State.traceStop (s : State) : State :=
  let t := s.trace
  if (t.st = .on ∨ t.st = .full) ∧ t.stopTick ≠ 0 ∧ t.stopTick ≤ s.tick + 1 then s.adjTrace fun t => { t with turn := some false }
  else s

/-- The start or end takes effect; a start resets the record count.
Mark: DEDUCED (notes/assumptions/130.md). -/
def State.turnTrace (s : State) : State :=
  match s.trace.turn with
  | none => s
  | some true => s.adjTrace fun t =>
      { t with turn := none, st := .on, records := 0, wrapped := false }
  | some false => s.adjTrace fun t => { t with turn := none, st := .off }

/-- A write to MH_TRACE_CTRL takes effect: ENABLE set arms the trace, ENABLE cleared ends it.
Mark: DEDUCED (notes/assumptions/130.md). -/
def State.traceCtrl (s : State) (v : Nat) : State :=
  let on := bitOf v 0
  let s1 := s.adjTrace fun t => { t with enable := on, modeStop := bitOf v 1, portEn := bitOf v 2 }
  if !on then s1.adjTrace fun t => { t with st := .off, onTick := false, holders := [], sent := [], turn := none }
  else if s.trace.enable then s1
  else s1.adjTrace fun t => { t with st := .armed }

/-! ### The messages of Mahorn's own parts (15 R431, R432) -/

/-- MARKER: `writer` is 1 for the PF and 2 for PP5. -/
def State.marker (s : State) (v writer : Nat) : State :=
  s.event 808 0x0B none (v % 2 ^ 32) (v / 2 ^ 32 % 2 ^ 32) writer

/-- One step of the sampler's LFSR, x^16 + x^14 + x^13 + x^11 + 1. -/
def lfsrNext (l : Nat) : Nat :=
  let b := (natOfBool (bitOf l 0) + natOfBool (bitOf l 2) + natOfBool (bitOf l 3) + natOfBool (bitOf l 5)) % 2
  l / 2 + 2 ^ 15 * b

/-- The sampler reads one sequencer (15 R432). Where its routine stands in that cycle is not stated: whether it still runs
or waits, and at which word, is free.
Mark: DESIGN CHOICE (notes/assumptions/131.md). -/
def State.pcSample (s : State) : State :=
  let t := s.trace
  if t.sampleTicks = 0 ∨ t.sampleDone = true ∨ s.stop.stopped = true ∨ s.tick % t.sampleTicks ≠ 0 then s
  else
    let q := t.samples % 32
    let cycle := 8 + t.lfsr % 96
    let run := if s.seqrOn q then s.ran.find? fun r => r.1 == q else none
    let w := (Config.word s.free).toNat
    let st := if !s.seqrOn q then 9 else match run with | some _ => w % 9 | none => 0
    let op := match run with | some r => if st = 0 then 0 else r.2.1 | none => 0
    let ring := match run with | some r => if st = 0 then 0 else r.2.2.1 | none => 0
    let s1 : State := { s with free := s.free + 1 }
    let m : TraceMsg :=
      { src := 807, event := 0x0A, offset := cycle / 2, deferred := false, part := none,
        d0 := q + st * 2 ^ 8 + w / 16 % 2 ^ 15 * 2 ^ 16, d1 := op % 2 ^ 8 + ring % 2 ^ 16 * 2 ^ 16, d2 := cycle }
    (s1.trace1 m).adjTrace fun t =>
      { t with samples := t.samples + 1, lfsr := lfsrNext t.lfsr, sampleDone := true }

/-- A write to MH_SAMPLE_CTRL takes effect: sampling that begins counts from 0 and starts from SEED.
Mark: DESIGN CHOICE (notes/assumptions/131.md). -/
def State.sampleCtrl (s : State) (v : Nat) : State :=
  let seed := if bitsOf v 16 16 = 0 then 0xACE1 else bitsOf v 16 16
  s.adjTrace fun t =>
    let fresh := t.sampleTicks == 0 || t.seed != seed
    { t with sampleTicks := bitsOf v 0 16, seed := seed, lfsr := if fresh then seed else t.lfsr,
             samples := if t.sampleTicks = 0 then 0 else t.samples }

/-- Trace at the boundary that begins tick `s.tick`, before the six steps. -/
def State.traceBoundary (s : State) : State := (s.turnTrace.grantTrace).adjTrace fun t => { t with sampleDone := false }

/-! ### Latches (15 R425) -/

/-- The latched copy of a bank. -/
def Counters.latch (c : Counters) (ftc : Nat) : Counters :=
  if c.want then { c with copy := c.live, latched := true, stamp := ftc % 2 ^ 63, want := false } else c

/-- Cycles of an endpoint's clock since the last reset.
Mark: DEDUCED (notes/assumptions/114.md). -/
def Ep.onCycles (x : Ep) (now : Nat) : Nat :=
  (x.onAcc + (if x.clockStopped then 0 else (now - x.onSince) * x.step)) * 3 / 32

/-- The four members of an endpoint's pair: ON_NS, ON_CYC, BUSY_NS, BUSY_CYC (15 R424).
Mark: DEDUCED (notes/assumptions/114.md). -/
def State.epPair (s : State) (e : Nat) : Nat × Nat × Nat × Nat :=
  let x := s.ep e
  (s.sinceReset % Config.two64, (x.onCycles s.ftc) % Config.two64, x.busyNs % Config.two64, x.busyCyc / 32)

/-- Every latch that was asked for is taken, after the six steps. -/
def State.takeLatches (s0 : State) : State :=
  let s := s0.countBusyAll s0.ftc
  let s1 : State := { s with pcnt := Tbl.mapV s.pcnt fun _ c => c.latch s.ftc }
  if s1.gcnt.want then
    { s1 with gcnt := s1.gcnt.latch s1.ftc, epCopy := (List.range 526).map fun e => (e, s1.epPair e) }
  else s1

end Sys2Proof.Machine
end

