-- ==== Sys2Proof/Machine/ResetBoot.lean ====
section
/-! DEFINITION. Resets, the configuration region and the boot sequence (14 R399-R413). -/
namespace Sys2Proof.Machine

/-! ### Resets (14 R399-R401) -/

/-- The flash as the next run finds it: a write in progress is torn, and the crash log holds the cores that the run
has fenced; one that brought up no partitions fenced none (12 R356, R366).
Mark: DEDUCED (notes/assumptions/109.md). -/
def State.flashKept (s : State) : Flash :=
  let f := match s.fw.writes with
    | [] => s.fw.flash
    | w :: _ => s.fw.flash.torn w (Config.pick s.free)
  { f with fencedLog := if s.boot.phase = .up then s.fenced else f.fencedLog }

/-- A reset of a KIND of MH_RST_CAUSE is carried out: what it keeps stays, everything else is as after a reset. The messages
already sent, the free values taken and the last read are the model's own and go on.
Mark: DEDUCED (notes/assumptions/108.md); PRESUMED (notes/assumptions/170.md). -/
def State.resetTo (s : State) (kind straps resets ftc : Nat) : State :=
  { State.fresh kind straps resets ftc s.fab.chip s.fab.fabricChips s.cal s.flashKept s.fw.fuseSvn s.cfg with
    stores := s.stores, cleared := s.cleared, free := s.free + min 1 s.fw.writes.length, out := s.out, readData := s.readData
    tapIr := if kind = 1 then 0x01 else s.tapIr
    eps := (List.range 526).map fun e => (e, { Ep.idle with onSince := ftc }) }

/-- Module power is applied: the FTC starts at 0 and memory holds nothing.
Mark: DESIGN CHOICE (notes/assumptions/13.md); DEDUCED (notes/assumptions/111.md). -/
def State.powerOn (s : State) (straps : Nat) : State :=
  let (k, s1) := s.takeFree
  ((s1.adjCal fun c => c.powered k).resetTo 1 (straps % 2 ^ 9) 0 0).clearBytes 0 (2 ^ 64)

/-- Mahorn resets since power-on. -/
def State.moreResets (s : State) : Nat := satInc 16 s.boot.resets

/-- PERST# is deasserted: a module reset.
Mark: DEDUCED (notes/assumptions/106, 107, 111.md). -/
def State.perst (s : State) (straps : Nat) : State := s.resetTo 2 (straps % 2 ^ 9) s.boot.resets s.ftc

/-- The VFs that stay enabled.
Mark: DEDUCED (notes/assumptions/107.md). -/
def State.vfsKept (s : State) (on : Bool) (t : State) : State :=
  if on then { t with parts := (s.parts.filter fun e => e.2.vf).map fun e => (e.1, { Part.reset with vf := true }) } else t

/-- A Function Level Reset of the PF: a Mahorn reset that clears VF Enable.
Mark: DEDUCED (notes/assumptions/106, 107.md). -/
def State.pfFlr (s : State) : State := s.resetTo 5 s.boot.straps s.moreResets s.ftc

/-- A write to MH_RST_CTRL in a tick: KIND 1 resets Mahorn and KIND 2 the module at the next boundary. `straps` is what a
module reset samples.
Mark: DEDUCED (notes/assumptions/106.md). -/
def State.rstWrite (s : State) (v straps : Nat) : State :=
  if bitsOf v 8 8 ≠ 0x5A then s
  else if bitsOf v 0 2 = 1 then s.adjBoot fun b => { b with due := some (4, s.boot.straps) }
  else if bitsOf v 0 2 = 2 then s.adjBoot fun b => { b with due := some (3, straps % 2 ^ 9) }
  else s

/-- The reset that a register asked for begins at this boundary: of Mahorn (4), or of the module (3).
Mark: DEDUCED (notes/assumptions/106.md). -/
def State.dueReset (s : State) (kind straps : Nat) : State :=
  if kind = 4 then s.vfsKept true (s.resetTo 4 straps s.moreResets s.ftc) else s.resetTo kind straps s.boot.resets s.ftc

/-! ### The configuration region (14 R404-R407) -/

/-- HOSTLINK of the straps. -/
def Boot.hostLink (b : Boot) : Nat := bitsOf b.straps 5 2

/-- Is the parameter block legal, with tier 1 of some bytes? -/
def paramsOk (t : List Host.Cell) (hostLink tier1 : Nat) : Bool :=
  let seg := tn t 64 2
  let f := tn t 67 1
  let port := tn t 68 1
  let smb := tn t 70 1
  let w := tn t 72 2
  let cxl := tn t 80 8
  decide (seg ≤ 1000) && decide (tn t 66 1 ≤ 64) && decide (bitsOf f 5 2 ≤ 2) && decide (f < 128) &&
    (!bitOf f 3 || hostLink == 3) && decide (port ≤ 2) && (port != 1 || bitOf f 0) && (port != 2 || bitOf f 1) &&
    decide (tn t 69 1 ≤ 127) && decide (smb = 0 ∨ (0x08 ≤ smb ∧ smb ≤ 0x77)) && tz t 71 1 &&
    decide (w = 0 ∨ (400 ≤ w ∧ w ≤ 850)) && tz t 74 6 && decide (cxl % Config.pageBytes = 0) &&
    decide (cxl ≤ tier1) && (cxl == 0 || bitOf f 3) && tz t 88 168

/-- The parameters that a legal block sets. -/
def paramCfg (t : List Host.Cell) (c : ChipCfg) : ChipCfg :=
  let f := tn t 67 1
  { c with segMaxUs := if tn t 64 2 = 0 then 20 else tn t 64 2, sliceTicks := if tn t 66 1 = 0 then 4 else tn t 66 1,
           nic0 := bitOf f 0, nic1 := bitOf f 1, fabric := bitOf f 2, cxlMem := bitOf f 3, fenceKeep := bitOf f 4,
           domain := bitsOf f 5 2, ptpPort := tn t 68 1, ptpDomain := tn t 69 1, smbus := tn t 70 1, cxlBytes := tn t 80 8 }

/-- A quota record's place. -/
def quotaAt (i : Nat) : Nat := 256 + 64 * i

/-- The quotas that the 40 register bytes at `b` hold. -/
def quotaOf (t : List Host.Cell) (b : Nat) : Quota :=
  { rings := clampNat 1 16384 (tn t (b + 4) 4), contexts := clampNat 1 4096 (bitsOf (tn t (b + 8) 4) 0 16),
    resMin := min 256 (bitsOf (tn t (b + 8) 4) 16 16), nodes := clampNat 1 65536 (tn t (b + 12) 4),
    fences := clampNat 1 1048576 (tn t (b + 16) 4), graphs := min 8192 (bitsOf (tn t (b + 20) 4) 0 16),
    storeKib := min 8192 (bitsOf (tn t (b + 20) 4) 16 16), requests := min 4096 (bitsOf (tn t (b + 24) 4) 0 16),
    hotrowMib := min 384 (bitsOf (tn t (b + 24) 4) 16 16), tables := min 4096 (tn t (b + 28) 4),
    mem0 := tn t (b + 32) 4, mem1 := tn t (b + 36) 4 }

/-- Are the reserved bits of a quota record zero? -/
def quotaOk (t : List Host.Cell) (b : Nat) : Bool :=
  decide (tn t b 1 < 128) && tz t (b + 1) 7 && tz t (b + 48) 16 &&
    bitsOf (tn t (b + 8) 4) 1 7 == 0 && bitsOf (tn t (b + 8) 4) 16 16 == 0 && decide (tn t (b + 12) 4 < 2 ^ 15) &&
    bitsOf (tn t (b + 16) 4) 13 3 == 0 && decide (tn t (b + 16) 4 < 2 ^ 25) && decide (tn t (b + 20) 4 < 2 ^ 17) &&
    decide (tn t (b + 24) 4 < 2 ^ 21) && bitsOf (tn t (b + 28) 4) 14 2 == 0 && decide (tn t (b + 28) 4 < 2 ^ 30) &&
    bitsOf (tn t (b + 32) 4) 13 3 == 0 && decide (tn t (b + 32) 4 < 2 ^ 25) && decide (tn t (b + 36) 4 < 2 ^ 13) &&
    decide (tn t (b + 40) 4 < 2 ^ 20) && decide (tn t (b + 44) 4 < 2 ^ 20)

/-- NQUOTA. -/
def cfgQuotas (t : List Host.Cell) : Nat := tn t 6 2

/-- The partition of record `i`. -/
def quotaPart (t : List Host.Cell) (i : Nat) : Nat := bitsOf (tn t (quotaAt i) 1) 0 7

/-- A partition that a quota record describes: the quotas, WEIGHT and ENABLE of bytes 8 to 47. -/
def quotaRecord (t : List Host.Cell) (i : Nat) : Nat × Bool × Nat × Quota :=
  let b := quotaAt i + 8
  (quotaPart t i, bitOf (tn t b 4) 0, max 1 (bitsOf (tn t b 4) 8 8), quotaOf t b)

/-- CRC-32 of the region with bytes 12-15 taken as zero. -/
def cfgCrc (t : List Host.Cell) (len : Nat) : Nat :=
  (crc32 ((List.range len).map fun i => if 12 ≤ i ∧ i < 16 then 0 else Mem.get t i)).toNat

/-- The fault of a region as CFG_CAUSE; none where it is valid.
Mark: DEDUCED (notes/assumptions/110.md). -/
def State.cfgFault (s : State) (t : List Host.Cell) : Option Nat :=
  let n := cfgQuotas t
  let len := tn t 8 4
  let recs := (List.range n).map (quotaRecord t)
  let on := recs.filter fun r => r.2.1
  let c := paramCfg t s.cfg
  let pages1 := if c.tier1 then Config.pages1 - c.cxlBytes / Config.pageBytes else 0
  if tn t 0 4 ≠ 0x47464E43 ∨ tn t 4 2 ≠ 1 then some 1
  else if 128 < n ∨ 8388608 < tn t 16 4 ∨ tz t 20 44 = false ∨ len ≠ 256 + 64 * n + tn t 16 4 ∨ 12582912 < len then some 2
  else if tn t 12 4 ≠ cfgCrc t len then some 2
  else if paramsOk t s.boot.hostLink (if s.cfg.tier1 then Config.pages1 * Config.pageBytes else 0) = false then some 3
  else if ((List.range n).all fun i => quotaOk t (quotaAt i)) = false ∨ (dedupNat (recs.map fun r => r.1)).length ≠ n then some 4
  else if Config.residentSlots < sumNat (on.map fun r => r.2.2.2.resMin) ∨
      tier0Pages c.stackCount - 256 < sumNat (on.map fun r => r.2.2.2.mem0) ∨ pages1 < sumNat (on.map fun r => r.2.2.2.mem1) then some 5
  else none

/-- The quotas of one of `n` equal partitions (14 R403). -/
def State.evenQuota (s : State) (n : Nat) : Quota :=
  { rings := 16384 / n, contexts := 4096 / n, resMin := 256 / n, nodes := 65536 / n, fences := 1048576 / n,
    graphs := 8192 / n, storeKib := 8192 / n, requests := 4096 / n, hotrowMib := 384 / n, tables := 4096 / n,
    mem0 := s.tierPages 0 / n, mem1 := s.tierPages 1 / n }

/-- Give partitions their quotas and note which of them bring-up enables. -/
def State.setQuotas (s : State) (l : List (Nat × Bool × Nat × Quota)) : State :=
  let s1 := foldS l (fun s r => s.adjPart r.1 fun q => { q with weight := r.2.2.1, quota := r.2.2.2 }) s
  s1.adjBoot fun b => { b with enables := sortBy (fun a b => decide (a ≤ b)) ((l.filter fun r => r.2.1).map fun r => r.1) }

/-- The default quotas: 2^STRAP_PARTS equal partitions, at most 128. -/
def State.evenQuotas (s : State) : State :=
  let n := min 128 (2 ^ bitsOf s.boot.straps 2 3)
  s.setQuotas ((List.range n).map fun p => (p, true, 1, s.evenQuota n))

/-- GC0 reads the configuration region: an absent or faulty one leaves every default and the service OFF.
Mark: DEDUCED (notes/assumptions/110.md). -/
def State.readConfig (s : State) : State :=
  let t := s.fw.flash.config
  if t = [] then (s.adjBoot fun b => { b with cfgStatus := 1 }).evenQuotas
  else match s.cfgFault t with
  | some c => (s.adjBoot fun b => { b with cfgStatus := 2, cfgCause := c }).evenQuotas
  | none =>
    let off := 256 + 64 * cfgQuotas t
    let image := (t.filter fun c => decide (off ≤ c.1) && decide (c.1 < off + tn t 16 4)).map fun c => (c.1 - off, c.2)
    let s1 : State := { s with
      cfg := paramCfg t s.cfg
      pwr := { s.pwr with limitW := if tn t 72 2 = 0 then 850 else tn t 72 2 }
      svc := { s.svc with image := if tn t 16 4 = 0 then [] else image } }
    if cfgQuotas t = 0 then s1.evenQuotas else s1.setQuotas ((List.range (cfgQuotas t)).map (quotaRecord t))

/-! ### The boot sequence (14 R408-R410) -/

/-- Recovery: only SEC runs. -/
def State.enterRecovery (s : State) : State :=
  ((s.adjFw fun w => { w with procs := List.replicate 19 Proc.reset }).adjProc 8 fun p => p.runs s.sinceReset).adjBoot
    fun b => { b with phase := .recovery }

/-- Slot B first? The straps may override the boot record; without a valid record slot A is first. -/
def State.bootB (s : State) : Bool :=
  match bitsOf s.boot.straps 0 2 with
  | 1 => false
  | 2 => true
  | _ => match s.fw.flash.holds with | some r => r.activeB | none => false

/-- The slot that boots, and whether it is the fallback. -/
def State.bootSlot (s : State) : Option (Bool × Bool) :=
  let ok := fun (b : Bool) => (imgCheck (s.fw.flash.slot b) imageSlotBytes s.fw.fuseSvn s.cfg.keyDigest).isNone
  let b := s.bootB
  if ok b then some (b, false) else if ok (!b) then some (!b, true) else none

/-- SEC starts every processor from the verified image cache. ACTIVE_B is the slot that the boot record names, whichever boots
(12 R374). -/
def State.startProcs (s : State) (b fallback : Bool) : State :=
  let t := s.fw.flash.slot b
  let v := tn t 8 4
  (foldS [1, 2, 3, 4, 5] (fun s c => s.cacheComp c b) s).adjFw fun w =>
    { w with procs := w.procs.map fun (p : Proc) => { p.runs s.sinceReset with imageB := b, version := v },
             activeB := (match w.flash.holds with | some r => r.activeB | none => false), fallback := fallback,
             runVersion := v, runSvn := tn t 12 1, capB := b }

/-- A number in a decrypted patch. -/
def patchNum (t : List Byte) (o n : Nat) : Nat := leNat ((t.drop o).take n)

/-- NWORDS of a patch. -/
def patchWords (t : List Byte) : Nat := patchNum t 12 2
/-- NDISP of a patch. -/
def patchDisps (t : List Byte) : Nat := patchNum t 14 2
/-- A dispatch record of a patch. -/
def patchDisp (t : List Byte) (i : Nat) : Nat := patchNum t (64 + 4 * i) 4
/-- A microword of a patch. -/
def patchMicro (t : List Byte) (i : Nat) : Nat := patchNum t (64 + 4 * patchDisps t + 20 * i) 20

/-- The checks on a decrypted patch, in the order of 13 R383: the fields of R382, then every dispatch ADDR (R376); the
PATCH_STATUS of the first that fails. Bytes behind the last word, and a component too short for it, are a wrong header.
Mark: DESIGN CHOICE (notes/assumptions/94.md). -/
def patchCheck (t : List Byte) (stepping : Nat) : Option Nat :=
  let n := patchWords t
  let recs := (List.range (patchDisps t)).map (patchDisp t)
  if patchNum t 0 4 ≠ 0x48435450 ∨ patchNum t 4 2 ≠ 1 then some 3
  else if patchNum t 6 1 ≠ stepping then some 4
  else if patchNum t 7 1 ≠ 0 ∨ patchNum t 8 4 = 0 ∨ n = 0 ∨ 2048 < n ∨ 256 < patchDisps t ∨ patchNum t 16 48 ≠ 0 then some 3
  else if (recs.any fun r => bitsOf r 24 8 != 0) = true ∨ (dedupNat (recs.map fun r => r % 256)).length ≠ recs.length then some 3
  else if t.length ≠ 64 + 4 * patchDisps t + 20 * n then some 3
  else if (recs.any fun r => bitOf r 23 && decide (16384 + n ≤ bitsOf r 8 15)) = true then some 5
  else none

/-- SEC checks the UCODE component of the slot that runs: without one there is no patch; with SEC down, a wrong tag or a check that
fails nothing is loaded. Otherwise SEC has to write the patch's words and dispatch entries, and then to set LOCK (13 R383).
Mark: DESIGN CHOICE (notes/assumptions/94, 138.md). -/
def State.offerPatch (s : State) : State :=
  let b := s.fw.capB
  if !((imgComps (s.fw.flash.slot b)).any fun c => c.1 == 6) then s
  else if !s.procUp 8 then s.adjBw fun w => { w with patchStatus := 6 }
  else
    let enc := s.fw.flash.compBytes b 6
    if !Config.genuine enc then s.adjBw fun w => { w with patchStatus := 2 }
    else
      let t := Config.decrypted enc
      match patchCheck t s.cfg.stepping with
      | some c => s.adjBw fun w => { w with patchStatus := c }
      | none => s.adjBw fun w =>
        { w with patchId := patchNum t 8 4, offerWords := (List.range (patchWords t)).map (patchMicro t)
                 offerDisp := (List.range (patchDisps t)).map fun i => (patchDisp t i % 256, bitsOf (patchDisp t i) 8 16) }

/-- Fabric time at bring-up (01 R29-R31): the FTC is set from the calendar after a power-on reset only; a chip of a fabric
is ACQUIRING; a root candidate takes itself for the root until it hears of a lower one, and any other chip has NO_ROOT until it
hears of one.
Mark: DEDUCED (notes/assumptions/115.md); DESIGN CHOICE (notes/assumptions/139.md). -/
def State.alignTime (s : State) : State :=
  let s1 := if s.boot.kind = 1 then s.stepFtc s.cal.ftc else s
  if !s.cfg.fabric then s1
  else
    ((s1.adjFab fun x => { x with sync := .acquiring, calValid := s.cfg.rootCand && !s.cal.invalid }).raise 33).chooseRoot

/-- Fabric bring-up finds the other chips of the fabric, and FABRIC_CHIPS counts them with this one (02 R74; 14 R408).
Mark: DESIGN CHOICE (notes/assumptions/12.md). -/
def State.findChips (s : State) : State :=
  let l := if s.cfg.fabric then dedupNat (Config.fabricChips.filter fun c => decide (c < 2 ^ 15) && c != s.fab.chip) else []
  { s with fab := { s.fab with found := l, fabricChips := l.length + 1 } }

/-- One step of the boot at a boundary; the times within the boot are left out.
Mark: DESIGN CHOICE (notes/assumptions/105.md); DEDUCED (notes/assumptions/117.md). -/
def State.bootStep (s0 : State) : State :=
  if !s0.booting then s0
  else
    let s := s0.adjBoot fun b => { b with ticks := b.ticks + 1 }
    let whom := fun (s : State) (p : BootPhase) => s.adjBoot fun b => { b with phase := p }
    match s.boot.phase with
    | .rom =>
      if bitsOf s.boot.straps 0 2 = 3 then s.enterRecovery else whom (s.adjProc 8 fun p => { p with st := .booting }) .image
    | .image => (match s.bootSlot with
      | some (b, f) => whom (s.startProcs b f) .config
      | none => (s.adjFw fun w => { w with fallback := true }).enterRecovery)
    | .config =>
      if !s.procUp 0 then s
      else (whom (s.readConfig.offerPatch.alignTime.findChips) .fabric).adjBoot fun b => { b with align := b.ticks }
    | .fabric => if !s.cfg.fabric || s.fab.sync == .locked || s.boot.ftTimeout then whom s .bringup else s
    | _ => s

/-- 200 ms of alignment have passed without LOCKED. -/
def State.alignTimeout (s : State) : State :=
  if s.boot.phase = .fabric ∧ s.cfg.fabric = true ∧ s.fab.sync ≠ .locked ∧ 200000000 ≤ (s.boot.ticks - s.boot.align) * 64 then
    s.adjBoot fun b => { b with ftTimeout := true }
  else s

/-- Page clearing ends: every page that partitions can be given reads zero. What CXL.mem exposes is known, and left, from the
reading of the configuration region on.
Mark: DEDUCED (notes/assumptions/6.md); DESIGN CHOICE (notes/assumptions/105.md). -/
def State.pagesCleared (s : State) : State :=
  match s.boot.phase with
  | .up => s
  | .recovery => s
  | .rom => s
  | .image => s
  | .config => s
  | _ =>
    ((s.clearBytes 0 (s.tierPages 0 * Config.pageBytes)).clearBytes Config.tier1Base (s.tierPages 1 * Config.pageBytes)).adjBoot
      fun b => { b with cleared := true }

/-- The first page of the snapshot area: the highest block of 32 pages whose number is a multiple of 32 (14 R411). -/
def snapPage (stackCount : Nat) : Nat := (tier0Pages stackCount / 32 - 1) * 32

/-- May partitions be brought up? -/
def State.mayBringUp (s : State) : Bool :=
  s.boot.phase == .bringup && s.boot.cleared && (s.bw.patchId == 0 || s.bw.lock)

/-- PARTITION_BRINGUP: it takes effect at the next boundary.
Mark: DESIGN CHOICE (notes/assumptions/105.md). -/
def State.bringupAsked (s : State) (failed : List Nat) : State :=
  if s.mayBringUp && !s.later.any Later.isBringup then s.defer (.bringup failed) else s

/-- The cores that are fenced at boot: those that failed self-test, and with FENCE_KEEP those of the crash log (12 R366).
Mark: DEDUCED (notes/assumptions/109.md). -/
def State.bootFences (s : State) (failed : List Nat) : State :=
  let old := if s.cfg.fenceKeep then (List.range 128).filter fun c => bitOf s.fw.flash.fencedLog c else []
  foldS (dedupNat (old ++ failed.filter fun c => decide (c < 128))) (fun s c =>
    foldS (List.range 4) (fun s i => s.adjEp (4 * c + i) fun x => x.clock s.ftc 0) { s with fenced := setBit s.fenced c }) s

/-- Partitions are brought up. -/
def State.partsUp (s : State) (failed : List Nat) : State :=
  let snap := snapPage s.cfg.stackCount * Config.pageBytes
  let tr := (snapPage s.cfg.stackCount - 32) * Config.pageBytes
  let s1 := s.bootFences failed
  let s2 : State := { s1 with
    fab := { s1.fab with incarnation := s1.ftc % 2 ^ 32, seqTo := [] }
    cop := { s1.cop with coord := some (s1.domainChips.foldl Nat.min s1.fab.chip) }
    trace := { s1.trace with base := tr }
    svc := { s1.svc with st := if s1.svc.image = [] then 0 else 1 }
    boot := { s1.boot with phase := .up, bootMs := min 0xFFFF (s1.boot.ticks * 64 / 1000000), stopBase := snap, traceBase := tr } }
  foldS s2.boot.enables State.enablePart s2

end Sys2Proof.Machine
end

