-- ==== Sys2Proof/Machine/Power.lean ====
section
/-! DEFINITION. Emergency levels, the engine clocks, loss of power and orderly shutdown (14 R414-R417). -/
namespace Sys2Proof.Machine

/-- Change the power unit. -/
def State.adjPwr (s : State) (f : Power → Power) : State := { s with pwr := f s.pwr }

/-- Is the cause of level `l` present, at a power in W and a temperature in °C (14 R415)? -/
def State.cause (s : State) (watts celsius l : Nat) : Bool :=
  let w := s.pwr.limitW
  match l with
  | 1 => decide (w < watts) || decide (95 ≤ celsius)
  | 2 => (decide (105 * w < 100 * watts) && s.pwr.coreStep == 8) || decide (100 ≤ celsius)
  | _ => decide (12 * w < 10 * watts) || decide (105 ≤ celsius)

/-- The time for which the cause of a level must have been absent, in ns.
Mark: DEDUCED (notes/assumptions/112.md). -/
def levelHold (l : Nat) : Nat := if l = 3 then 1000000 else 10000000

/-- A decision on the level is made in this tick; it takes effect at the next boundary.
Mark: DEDUCED (notes/assumptions/112.md). -/
def State.decideLevel (s : State) (l : Nat) (hw : Bool) : State := s.adjPwr fun p => { p with due := some (l, hw) }

/-- PWR compares the averaged power and the temperature with the limits. MH_PWR_READ shows the module's input power as it was
compared; Mahorn's own is free (14 R419). It raises the level by any number of steps up to
SHED (hardware alone raises TRIP), and lowers it by one.
Mark: DEDUCED (notes/assumptions/112.md). -/
def State.powerCompare (s : State) (watts celsius : Nat) : State :=
  if !s.procUp 9 then s
  else
    let here := fun l => s.cause watts celsius l
    let s1 := s.adjPwr fun p =>
      { p with causes := (List.range 3).map fun i => if here (i + 1) then s.ftc else p.causes.getD i 0
               moduleW := watts % 2 ^ 16, mahornMw := (Config.word s.free).toNat % 2 ^ 16 }
    let s1 : State := { s1 with free := s.free + 1 }
    let l := s.pwr.level
    if s.pwr.due.isSome then s1
    else if l < 2 ∧ here 2 = true then s1.decideLevel 2 false
    else if l < 1 ∧ here 1 = true then s1.decideLevel 1 false
    else if l ≠ 0 ∧ here l = false ∧ s1.pwr.causes.getD (l - 1) 0 + levelHold l ≤ s.ftc then s1.decideLevel (l - 1) false
    else s1

/-- The current or thermal sensor fires: core and TX clocks stop at once; TRIP takes effect at the next boundary, and a fall from
it that was decided in this tick does not. At 105 °C the causes of the lower levels are present too (14 R415, R416).
Mark: DEDUCED (notes/assumptions/112.md). -/
def State.hwTrips (s : State) (thermal : Bool) : State :=
  let s1 := s.adjPwr fun p => { p with causes := if thermal then [s.ftc, s.ftc, s.ftc] else p.causes.set 2 s.ftc }
  if s.pwr.level = 3 then s1.adjPwr fun p => { p with due := none }
  else (s1.setClocks 0 s.pwr.nxStep).decideLevel 3 true

/-- MX endpoints whose pass was abandoned: those of running segments whose clocks are stopped.
Mark: DEDUCED (notes/assumptions/113.md). -/
def State.abandonedPasses (s : State) : List Nat :=
  (s.eps.filter fun e => decide (e.1 < 512) && e.1 % 4 == 0 && e.2.clockStopped && !s.isFenced (e.1 / 4) &&
    (match e.2.seg with | some g => g.begun.isSome | none => false)).map fun e => e.1

/-- The level decided in the last tick takes effect, in step 5.
Mark: DEDUCED (notes/assumptions/113.md). -/
def State.applyLevel (s : State) : State :=
  match s.pwr.due with
  | none => s
  | some (l, hw) =>
    let old := s.pwr.level
    let c := levelClocks l (if old = 1 then s.pwr.coreStep else 16) (if old = 1 then s.pwr.nxStep else 16)
    let c' := if s.pwr.clamp then (min c.1 8, min c.2 8) else c
    let s1 := s.adjPwr fun p =>
      { p with level := l, due := none, hwTrip := if l = 3 then hw else p.hwTrip, lastStamp := s.ftc % 2 ^ 63,
               throttles := if l = 1 ∧ old ≠ 1 then satInc 16 p.throttles else p.throttles,
               sheds := if l = 2 ∧ old ≠ 2 then satInc 16 p.sheds else p.sheds,
               trips := if l = 3 ∧ old ≠ 3 then satInc 16 p.trips else p.trips,
               hwTrips := if l = 3 ∧ old ≠ 3 ∧ hw = true then satInc 16 p.hwTrips else p.hwTrips }
    let s2 := if old = 3 ∧ l ≠ 3 then s1.rerunAt s.abandonedPasses else s1
    let s3 := ((s2.setClocks c'.1 c'.2).raise 36).event 809 0x0C none (l + 2 ^ 8 * natOfBool (l == 3 && hw)) 0 0
    if l = 3 then s3.tripRequests else s3

/-- The FTC of the last tick with an emergency, for the activation conditions of 12 R368. -/
def State.noteCalm (s : State) : State := if s.pwr.level = 0 then s else s.adjFw fun w => { w with calm := s.ftc }

/-- Within THROTTLE, PWR changes the frequency of the core engines and TX, or of NX and CX.
Mark: DEDUCED (notes/assumptions/113.md). -/
def State.engineFreq (s : State) (ep step : Nat) : State :=
  if s.pwr.level ≠ 1 ∨ s.pwr.clamp = true ∨ (∃ d ∈ s.pwr.due, d.1 = 3) ∨ s.procUp 9 = false ∨ step < 8 ∨ 16 < step ∨ 526 ≤ ep then s
  else if ep < 520 then s.setClocks step s.pwr.nxStep
  else s.setClocks s.pwr.coreStep step

/-- Module power is lost: every volatile state ends; the calendar, the flash and the fuses stay.
Mark: DESIGN CHOICE (notes/assumptions/13.md). -/
def State.powerLost (s : State) : State :=
  ((s.resetTo 1 0 0 0).clearBytes 0 (2 ^ 64)).adjBoot fun b => { b with unpowered := true }

/-- The bias loop has a snapshot of every keyed layer written to the flash: one flash operation (09 R286). -/
def State.writeSnapshot (s : State) : State := if s.biasSnaps = [] then s else s.askFlash (.snapshot s.biasSnaps)

/-- The snapshot of every 10 minutes, by the core that holds BIAS. -/
def State.biasSnapshot (s : State) : State :=
  if (s.duty 8).2 || decide (s.sinceReset < s.pleach.lastSnap + 600000000000) then s
  else s.writeSnapshot.adjPleach fun q => { q with lastSnap := s.sinceReset }

/-- An orderly shutdown: the bias loop writes a snapshot. -/
def State.shutdown (s : State) : State := if (s.duty 8).2 then s else s.writeSnapshot

/-- The highest generation that STRAP_HOSTLINK lets the host link train to: 0 is 5.0, 1 is 6.0 and 2 is 7.0 (14 R402). -/
def Boot.genMost (b : Boot) : Nat := if b.hostLink = 1 then 1 else if b.hostLink = 2 then 0 else 2

/-- The host link trains to a generation that the straps allow. -/
def State.hostLinkTrains (s : State) (gen : Nat) : State := if gen ≤ s.boot.genMost then s.defer (.linkGen gen) else s

end Sys2Proof.Machine
end

