-- ==== Sys2Proof/Machine/RegRead.lean ====
section
/-! DEFINITION. The registers as they read (16 R441): where an access falls, the value of every register and of the
capability table (02 R72), and reads with what they clear, latch and claim (00 R15, R444; 01 R33, R50; 13 R394). -/
namespace Sys2Proof.Machine

/-! ### Where an access falls (02 R52; 15 R439) -/

/-- A place of a register map: an offset in the window of a partition, an offset in the management window, or neither. -/
inductive Space where
  | win (p off : Nat)
  | mgmt (off : Nat)
  | none
deriving DecidableEq, Repr

/-- The place of an address of the PF's BAR0. -/
def pfSpace (addr : Nat) : Space :=
  if addr < 0x08000000 then .win (addr / 2 ^ 20) (addr % 2 ^ 20)
  else if 0x10000000 ≤ addr ∧ addr < 0x20000000 then .mgmt (addr - 0x10000000)
  else .none

/-- The place that an access names. Firmware processors use the PF's addresses; the debug port reaches the management
window alone. -/
def spaceOf (a : RegAcc) : Space :=
  match a.who with
  | .vf p => if p < Config.partitions ∧ a.addr < 2 ^ 20 then .win p a.addr else .none
  | .pf => pfSpace a.addr
  | .proc n => if n < 19 then pfSpace a.addr else .none
  | .jtag => if a.addr < 2 ^ 28 then .mgmt a.addr else .none

/-! ### Which registers are 64 bits wide -/

/-- Does a 64-bit register of a partition window hold the byte at an offset? -/
def winWide (o : Nat) : Bool :=
  decide (0x10 ≤ o ∧ o < 0x20) || decide (0x1010 ≤ o ∧ o < 0x1020) || decide (0x1100 ≤ o ∧ o < 0x1108) ||
    decide (0x1200 ≤ o ∧ o < 0x1218) || decide (0x1400 ≤ o ∧ o < 0x1408) || decide (0x1F00 ≤ o ∧ o < 0x1F08) ||
    (decide (0x2000 ≤ o ∧ o < 0x3000) && decide (o % 16 < 8)) || decide (0x8000 ≤ o ∧ o < 0x10000) ||
    (decide (0x10000 ≤ o ∧ o < 0x50000) && decide (0x18 ≤ o % 64 ∧ o % 64 < 0x20)) || decide (0x50000 ≤ o ∧ o < 0x70000) ||
    decide (0x80008 ≤ o ∧ o < 0x80010) || decide (0x80100 ≤ o ∧ o < 0x80500) || decide (0x80800 ≤ o ∧ o < 0x80870) ||
    decide (0x81100 ≤ o ∧ o < 0x81500) || decide (0x81800 ≤ o ∧ o < 0x81870)

/-- Does a 64-bit register of the management window hold the byte at an offset? -/
def mgmtWide (o : Nat) : Bool :=
  decide (0x10 ≤ o ∧ o < 0x20) || decide (0x10000 ≤ o ∧ o < 0x10010) || decide (0x10100 ≤ o ∧ o < 0x10118) ||
    decide (0x60010 ≤ o ∧ o < 0x60020) || decide (0x60208 ≤ o ∧ o < 0x60218) || decide (0x70008 ≤ o ∧ o < 0x70020) ||
    decide (0x70028 ≤ o ∧ o < 0x70030) || decide (0x80100 ≤ o ∧ o < 0x80180) ||
    (decide (0x81000 ≤ o ∧ o < 0x81400) && (decide (8 ≤ o % 64 ∧ o % 64 < 0x20) || decide (0x30 ≤ o % 64 ∧ o % 64 < 0x38))) ||
    decide (0x82000 ≤ o ∧ o < 0x82800) || decide (0x90000 ≤ o ∧ o < 0x90010) || decide (0x90030 ≤ o ∧ o < 0x90048) ||
    decide (0x90050 ≤ o ∧ o < 0x90058) || decide (0xA0000 ≤ o ∧ o < 0xA0098) || decide (0xA0100 ≤ o ∧ o < 0xA0108) ||
    decide (0xB0100 ≤ o ∧ o < 0xB0110) || decide (0xC0008 ≤ o ∧ o < 0xC0010) || decide (0xC0040 ≤ o ∧ o < 0xC0080) ||
    (decide (0xD0000 ≤ o ∧ o < 0xD1300) && decide (0x40 ≤ o % 256 ∧ o % 256 < 0x50)) || decide (0xE0020 ≤ o ∧ o < 0xE0030) ||
    decide (0xF0008 ≤ o ∧ o < 0xF0018) || decide (0xF0030 ≤ o ∧ o < 0xF0038) || decide (0xF0048 ≤ o ∧ o < 0xF0058) ||
    decide (0xF0108 ≤ o ∧ o < 0xF0110) || decide (0xF1000 ≤ o ∧ o < 0xF1400) || decide (0xF2000 ≤ o ∧ o < 0xF2400) ||
    decide (0xF4000 ≤ o ∧ o < 0xF81C0) || decide (0xF9000 ≤ o ∧ o < 0xFD1C0)

/-- Is every field of the 64-bit register at an offset of a partition window RO or RC, or is it a time register (01 R33)?
Mark: DEDUCED (notes/assumptions/123.md). -/
def winLatches (o : Nat) : Bool :=
  winWide o && !(decide (0x1100 ≤ o ∧ o < 0x1218) || decide (0x8000 ≤ o ∧ o < 0x70000))

/-- The same of the management window.
Mark: DEDUCED (notes/assumptions/123.md). -/
def mgmtLatches (o : Nat) : Bool :=
  mgmtWide o && !(decide (0x80100 ≤ o ∧ o < 0x80180) || decide (0x90030 ≤ o ∧ o < 0x90040) || decide (0xB0100 ≤ o ∧ o < 0xB0108) ||
    decide (0xD0000 ≤ o ∧ o < 0xD1300) || decide (0xF0008 ≤ o ∧ o < 0xF0018) || decide (0xF0048 ≤ o ∧ o < 0xF0050))

/-- The first byte of the register that holds the byte at a place. -/
def Space.base : Space → Space
  | .win p o => .win p (if winWide o then o / 8 * 8 else o / 4 * 4)
  | .mgmt o => .mgmt (if mgmtWide o then o / 8 * 8 else o / 4 * 4)
  | .none => .none

/-- The place some bytes further on. -/
def Space.plus : Space → Nat → Space
  | .win p o, n => if o + n < 2 ^ 20 then .win p (o + n) else .none
  | .mgmt o, n => if o + n < 2 ^ 28 then .mgmt (o + n) else .none
  | .none, _ => .none

/-- The offset of a place. -/
def Space.off : Space → Nat
  | .win _ o => o
  | .mgmt o => o
  | .none => 0

/-! ### The capability table (02 R72, R73) -/

/-- Has every graph of the active service table completed 256 times?
Mark: DEDUCED (notes/assumptions/78.md). -/
def State.serviceWarm (s : State) : Bool :=
  s.svc.models != [] && s.svc.models.all fun m =>
    match Tbl.get? s.svc.listeners m.listener with
    | some l => decide (256 ≤ (s.est (estKey l m) m.priorUs).n)
    | none => false

/-- The WARM flags and BIAS_SNAPSHOT; the capability table shows them as they stood at the last boundary (02 R74).
Mark: DEDUCED (notes/assumptions/78.md). -/
def State.warmWord (s : State) : Nat :=
  natOfBool s.marshal.hotWarm + 2 * natOfBool s.serviceWarm + 4 * natOfBool (s.pleach.snapLoaded || decide (1000 ≤ s.pleach.warmPeriods)) +
    8 * natOfBool s.marshal.reorderWarm + 2 ^ 8 * natOfBool s.pleach.snapLoaded

/-- The quota that a view shows: the partition's, or the chip's totals.
Mark: DEDUCED (notes/assumptions/127.md). -/
def State.viewQuota (s : State) : Option Nat → Quota
  | some p => (s.part p).quota
  | none =>
    { rings := Config.hardRings, contexts := Config.contexts, resMin := Config.residentSlots, nodes := Config.nodeSlots,
      fences := Config.fenceRecords, graphs := 8192, storeKib := Config.blocks, requests := 4096, hotrowMib := 384,
      tables := Config.tables, mem0 := s.tierPages 0, mem1 := s.tierPages 1 }

/-- Word `o` (a multiple of 4) of the capability table, of a partition or of the management view. -/
def State.capWord (s : State) (v : Option Nat) (o : Nat) : Nat :=
  let c := s.cfg
  let q := s.viewQuota v
  let m0 := q.mem0 * Config.pageBytes
  let m1 := q.mem1 * Config.pageBytes
  match o with
  | 0x000 => 0x10000001
  | 0x004 => (match v with
    | some p => p % 128
    | none => 128 + 2 ^ 8 * (s.parts.filter fun e => e.2.up).length)
  | 0x008 => c.grade % 2 ^ 16 + 2 ^ 16 * (c.arraysMin % 256) + 2 ^ 24 * (c.stepping % 256)
  | 0x00C => c.stackCount % 16 + 16 * natOfBool (decide (8 ≤ c.stackCount)) + 32 * natOfBool c.tier1 + 64 * natOfBool c.cxlMem +
      2 ^ 8 * (c.linkGen % 4) + 2 ^ 10 * natOfBool c.nic0 + 2 ^ 11 * natOfBool c.nic1 + 2 ^ 12 * natOfBool c.fabric
  | 0x010 => m0 % 2 ^ 32
  | 0x014 => m0 / 2 ^ 32 % 2 ^ 32
  | 0x018 => m1 % 2 ^ 32
  | 0x01C => m1 / 2 ^ 32 % 2 ^ 32
  | 0x020 => q.rings % 2 ^ 15
  | 0x024 => q.contexts % 2 ^ 13 + 2 ^ 16 * (q.resMin % 2 ^ 9)
  | 0x028 => q.fences % 2 ^ 21 + 2 ^ 21 * Config.watchSlots
  | 0x02C => q.nodes % 2 ^ 17
  | 0x030 => q.graphs % 2 ^ 14 + 2 ^ 16 * (q.storeKib % 2 ^ 14)
  | 0x034 => q.requests % 2 ^ 13
  | 0x038 => q.hotrowMib % 2 ^ 9
  | 0x03C => 1048576
  | 0x040 => q.tables % 2 ^ 13 + 2 ^ 16 * 1024
  | 0x044 => 256 + 2 ^ 12 * 8
  | 0x048 => 2000 + 2 ^ 16 * 1500
  | 0x04C => 64 + 2 ^ 16 * 526
  | 0x050 => c.segMaxUs % 2 ^ 10 + 2 ^ 16 * (c.sliceTicks % 2 ^ 7)
  | 0x054 => s.bw.shownId % 2 ^ 32
  | 0x058 => s.fw.runVersion % 2 ^ 32
  | 0x05C => natOfBool s.fw.capB
  | 0x060 => s.fab.chip % 2 ^ 15 + 2 ^ 16 * (s.fab.linksUp % 256) + 2 ^ 24 * s.fab.sync.code
  | 0x064 => s.fab.fabricChips % 2 ^ 16
  | 0x090 => s.shownWarm
  | 0x100 => 256
  | _ =>
    if 0x68 ≤ o ∧ o < 0x88 then
      let i := (o - 0x68) / 4
      let l := Tbl.getD s.fab.links i (0, 0)
      if bitOf s.fab.linksUp i then l.1 % 2 ^ 15 + 2 ^ 15 + 2 ^ 16 * (l.2 % 2 ^ 12) else 0
    else if 0xA0 ≤ o ∧ o < 0xE0 then sumNat ((List.range 8).map fun i => 16 ^ i * c.arrays ((o - 0xA0) * 2 + i))
    else if 0xE0 ≤ o ∧ o < 0xF0 then bitsOf s.fenced ((o - 0xE0) * 8) 32
    else 0

/-- The capability table's register at an offset: 64 bits where it is wide. -/
def State.capReg (s : State) (v : Option Nat) (o : Nat) : Nat :=
  if winWide o then s.capWord v o + 2 ^ 32 * s.capWord v (o + 4) else s.capWord v o

/-! ### The partition window -/

/-- A counter of a bank. -/
def Bank.op (b : Bank) (i : Nat) : Nat := Tbl.getD b.ops i 0
/-- Half `h` of a busy pair: 0 BUSY_NS, 1 BUSY_CYC. -/
def Bank.pair (b : Bank) (e h : Nat) : Nat := if h = 0 then (Tbl.getD b.busy e (0, 0)).1 else (Tbl.getD b.busy e (0, 0)).2 / 32

/-- The ring registers that a partition window shows: none while the partition is torn down (02 R57).
Mark: DEDUCED (notes/assumptions/124.md). -/
def State.ringShown (s : State) (p r : Nat) : Option Ring := if s.resetting p then none else s.ring? (pkey p r)

/-- The register of a ring at +`o`. -/
def Ring.reg (r : Ring) (o : Nat) : Nat :=
  match o with
  | 0x00 => r.pi % 2 ^ 32
  | 0x10 => r.ci % 2 ^ 32
  | 0x18 => r.stateWord
  | 0x20 => r.dropsWord
  | 0x28 => r.infoWord
  | _ => 0

/-- MH_ADMIN_CFG. -/
def AdminRegs.cfgWord (a : AdminRegs) : Nat :=
  a.sizeLog2 % 32 + 2 ^ 5 * natOfBool a.loc + 2 ^ 6 * natOfBool a.cseqLoc + 2 ^ 7 * natOfBool a.errLoc +
    2 ^ 8 * (a.errLog2 % 32) + 2 ^ 16 * (a.vector % 256)

/-- The counter banks of a partition window, at an offset from 0x8_0000 on. -/
def Counters.reg (c : Counters) (o : Nat) : Nat :=
  if o = 0 then 2 * natOfBool c.latched
  else if o = 8 then c.stamp
  else if 0x100 ≤ o ∧ o < 0x500 then c.live.op ((o - 0x100) / 8)
  else if 0x800 ≤ o ∧ o < 0x870 then c.live.pair ((o - 0x800) / 16) (o / 8 % 2)
  else if 0x1100 ≤ o ∧ o < 0x1500 then c.copy.op ((o - 0x1100) / 8)
  else if 0x1800 ≤ o ∧ o < 0x1870 then c.copy.pair ((o - 0x1800) / 16) (o / 8 % 2)
  else 0

/-- The partition control and status block.
Mark: DESIGN CHOICE (notes/assumptions/154.md). -/
def State.partReg (s : State) (p o : Nat) : Nat :=
  let q := s.part p
  let c := q.counts
  match o with
  | 0x1000 => q.statusWord
  | 0x1008 => q.faultWord
  | 0x1010 => q.faultAddr % 2 ^ 64
  | 0x1018 => q.faultFtc % 2 ^ 64
  | 0x1020 => c.ctxLoads
  | 0x1024 => c.ctxWaits
  | 0x1028 => c.dropped
  | 0x1030 => q.faultVector % 256
  | 0x1200 => q.admin.base
  | 0x1208 => q.admin.cseq
  | 0x1210 => q.admin.err
  | 0x1218 => q.admin.cfgWord
  | 0x121C => q.admin.pasid % 2 ^ 20 + 2 ^ 20 * natOfBool q.admin.hostAccess
  | 0x1300 => c.fenceLow
  | 0x1304 => c.fenceSat
  | 0x1308 => c.fenceDrop
  | 0x130C => c.fenceRemote
  | 0x1310 => c.recDrop
  | 0x1400 => s.epoch % 2 ^ 32 + 2 ^ 32 * s.cop.phase.code + 2 ^ 34 * natOfBool s.cop.prev.isSome
  | 0x1500 => c.svcDone
  | 0x1504 => c.svcShed
  | 0x1508 => c.svcDeadline
  | 0x150C => c.svcFailed
  | 0x1F00 => s.ftc % 2 ^ 64
  | _ => 0

/-- The fence page: MH_FENCE_VAL and MH_FENCE_STAT of a fence that exists.
Mark: DEDUCED (notes/assumptions/124.md). -/
def State.fenceReg (s : State) (p f : Nat) (stat : Bool) : Nat :=
  if !s.fenceLive p f then 0 else if stat then s.fenceStat (pkey p f) else (s.fenceView (pkey p f)).1 % 2 ^ 64

/-- The register of a partition's window that begins at an offset (16 R441): the whole window of a partition that is not
enabled reads zero (02 R53). -/
def State.winReg (s : State) (p o : Nat) : Nat :=
  if !s.isUp p then 0
  else if o < 0x1000 then s.capReg (some p) o
  else if o < 0x2000 then s.partReg p o
  else if o < 0x3000 then
    let v := s.vec p ((o - 0x2000) / 16)
    (match o % 16 with | 0 => v.lastWord | 8 => v.ctrlWord | 12 => v.events | _ => 0)
  else if o < 0x8000 then 0
  else if o < 0x10000 then (match s.ctx? (pkey p ((o - 0x8000) / 8)) with | some c => c.stateWord | none => 0)
  else if o < 0x50000 then (match s.ringShown p ((o - 0x10000) / 64) with | some r => r.reg (o % 64) | none => 0)
  else if o < 0x70000 then s.fenceReg p ((o - 0x50000) / 16) (o % 16 == 8)
  else if o < 0x80000 then 0
  else ((s.countBusyAll s.ftc).pcount p).reg (o - 0x80000)

/-! ### The management window -/

/-- A signed number as 32 bits. -/
def word32 (i : Int) : Nat := (i % 2 ^ 32).toNat

/-- Fabric time and the calendar, 0x1001_0000 (01 R34, R50). -/
def State.timeReg (s : State) (o : Nat) : Nat :=
  let f := s.fab
  match o with
  | 0x000 => s.ftc % 2 ^ 64
  | 0x008 => s.tick % 2 ^ 58
  | 0x010 => f.leadTicks % 2 ^ 16 + 2 ^ 16 * (f.syncPeriod % 16) + 2 ^ 20 * natOfBool s.cfg.rootCand
  | 0x018 => f.sync.code + 8 * natOfBool f.isRoot + 2 ^ 4 * natOfBool f.lateStrict + 2 ^ 5 * natOfBool f.holdFull +
      2 ^ 6 * natOfBool f.unlockedApply + 2 ^ 7 * natOfBool f.linkWentDown + 2 ^ 8 * natOfBool f.noRoot + 2 ^ 16 * (f.rootChip % 2 ^ 15)
  | 0x020 => word32 f.offset
  | 0x028 => f.worstPath % 2 ^ 16 + 2 ^ 16 * (f.worstHops % 8)
  | 0x030 => f.late
  | 0x034 => f.refused
  | 0x100 => s.subNow % 2 ^ 15 + 2 ^ 15 * (s.cal.sec % 2 ^ 48) + 2 ^ 63 * natOfBool s.cal.invalid
  | 0x108 => s.cal.capFtc % 2 ^ 64
  | 0x110 => s.cal.capSec % 2 ^ 48
  | 0x118 => word32 s.cal.adj
  | 0x120 => s.cal.source % 4 + 4 * natOfBool s.cal.ptpLocked + 8 * natOfBool s.cal.cellLow + 2 ^ 16 * (s.cal.utc % 2 ^ 16)
  | _ => 0

/-- The quota registers of a partition, +`o` (02 R68). -/
def Part.quotaReg (q : Part) (o : Nat) : Nat :=
  let x := q.quota
  match o with
  | 0x00 => natOfBool q.enable + 2 ^ 8 * (q.weight % 256)
  | 0x04 => x.rings
  | 0x08 => x.contexts + 2 ^ 16 * x.resMin
  | 0x0C => x.nodes
  | 0x10 => x.fences
  | 0x14 => x.graphs + 2 ^ 16 * x.storeKib
  | 0x18 => x.requests + 2 ^ 16 * x.hotrowMib
  | 0x1C => x.tables
  | 0x20 => x.mem0
  | 0x24 => x.mem1
  | 0x30 => natOfBool q.overcommit + 2 * natOfBool q.vf + 4 * natOfBool q.teardown.isSome
  | _ => 0

/-- Pins on an epoch (08 R245). -/
def State.epochPins (s : State) (e : Nat) : Nat :=
  (s.works.filter fun x => x.2.epochPin == some e).length + s.requestPins e + (s.marshal.served.filter fun x => x.epoch == e).length

/-- Topiary, Espalier, fence and Shears registers, 0x1003_0000 to 0x1005_FFFF (05 R174; 06 R193; 07 R226). -/
def State.storeReg (s : State) (o : Nat) : Nat :=
  match o with
  | 0x30000 => s.blocksOf (fun _ => true) + 2 ^ 16 * (s.graphs.filter fun e => e.2.num.isSome).length
  | 0x30008 => s.slotsOf fun _ => true
  | 0x3000C => s.espWaits
  | 0x40000 => s.watch.length
  | 0x40004 => sumNat (s.listed.map fun x => s.waits x.fence)
  | 0x40008 => s.fences.length
  | 0x50004 => natOfBool (s.parts.any fun e => e.2.teardown.isSome) + 2 ^ 8 * (s.shears.lastPart % 128) +
      2 ^ 15 * natOfBool s.shears.escalated
  | 0x50008 => s.shears.lastUs % 2 ^ 10 + 2 ^ 10 * natOfBool s.shears.spanned
  | 0x5000C => s.shears.escCount
  | _ => 0

/-- The Coppice and marshal registers, 0x1006_0000 (08 R265). -/
def State.copReg (s : State) (o : Nat) : Nat :=
  let c := s.cop
  let m := s.marshal
  match o with
  | 0x000 => s.epoch % 2 ^ 32
  | 0x004 => c.phase.code + 4 * natOfBool c.prev.isSome + 8 * (c.half % 2) + 16 * natOfBool c.request.isSome +
      32 * natOfBool c.expired + 64 * natOfBool c.cancelled
  | 0x008 => 2 ^ 8 * (c.graceMs % 2 ^ 10) + 2 ^ 18 * (c.flipWaitMs % 2 ^ 10)
  | 0x010 => s.epochPins s.epoch % 2 ^ 17 + 2 ^ 32 * ((match c.prev with | some e => s.epochPins e | none => 0) % 2 ^ 17)
  | 0x018 => c.lastFlip
  | 0x100 => s.cfg.domain % 4 + 4 * natOfBool s.coordinates + 2 ^ 16 * (c.coord.getD 0 % 2 ^ 15)
  | 0x108 => c.expiredCount
  | 0x10C => natOfBool m.fixed + 16 * (m.fixedW % 16) + 2 ^ 8 * (m.window % 16)
  | 0x110 => m.eff % 2 ^ 16
  | 0x200 => s.linesUsed % 2 ^ 23
  | 0x208 => m.hits
  | 0x210 => m.misses
  | _ => 0

/-- Exchanges open on this chip, as requester or server (09 R301). -/
def State.xchgOpen (s : State) : Nat :=
  (s.marshal.gathers.filter fun g => g.2.peers != []).length + s.marshal.served.length

/-- The Pleach, walker and exchange registers, 0x1007_0000 (09 R301). -/
def State.pleachReg (s : State) (o : Nat) : Nat :=
  let q := s.pleach
  match o with
  | 0x00 => q.periodUs % 2 ^ 16 + 2 ^ 16 * natOfBool q.loopOff
  | 0x04 => s.unitsBusy + 2 ^ 16 * q.layers.length
  | 0x08 => q.routes
  | 0x10 => q.spills
  | 0x18 => q.residual
  | 0x20 => q.nans
  | 0x28 => q.skips
  | 0x30 => q.reruns
  | 0x34 => s.marshal.xchgMs % 2 ^ 10
  | 0x38 => s.xchgOpen % 2 ^ 16 + 2 ^ 16 * (s.marshal.overdue % 2 ^ 16)
  | _ => 0

/-- The block of listener `l`, +`o` (10 R326). -/
def State.listenerReg (s : State) (l o : Nat) : Nat :=
  let c := Tbl.getD s.svc.counts l ListCount.zero
  match o with
  | 0x00 => natOfBool (match Tbl.get? s.svc.listeners l with | some x => x.isOpen | none => false) +
      16 * (s.svc.requests.filter fun e => e.2.held && e.2.lno == l).length
  | 0x08 => c.recv
  | 0x10 => c.done
  | 0x18 => c.shed
  | 0x20 => c.deadline
  | 0x24 => c.malformed
  | 0x28 => c.failed
  | 0x2C => c.noslot
  | 0x30 => c.lastFail
  | _ => 0

/-- MH_SVC_EST of model entry `m` (10 R326). -/
def State.estReg (s : State) (m : Nat) : Nat :=
  match s.svc.models[m]? with
  | none => 0
  | some x => match Tbl.get? s.svc.listeners x.listener with
    | none => 0
    | some l =>
      let e := s.est (estKey l x) x.priorUs
      e.q % 2 ^ 32 + 2 ^ 32 * (e.n % 2 ^ 9) + 2 ^ 41 * natOfBool (decide (256 ≤ e.n))

/-- The service registers, 0x1008_0000 (10 R326).
Mark: DEDUCED (notes/assumptions/80.md). -/
def State.svcReg (s : State) (o : Nat) : Nat :=
  let v := s.svc
  if o = 4 then v.st % 4 + 4 * natOfBool v.acting + 8 * natOfBool v.actFailed + 16 * (v.failStep % 16) + 2 ^ 8 * (v.failStatus % 256) +
    2 ^ 16 * (v.failIndex % 2 ^ 16)
  else if o = 8 then v.tableGen % 2 ^ 32
  else if o = 0xC then v.failDetail % 2 ^ 16
  else if 0x100 ≤ o ∧ o < 0x180 then
    let c := s.svcClass ((o - 0x100) / 8)
    c.deadlineUs % 2 ^ 20 + 2 ^ 32 * (c.guardUs % 2 ^ 20) + 2 ^ 52 * (c.shed % 4) + 2 ^ 54 * natOfBool c.lateOk
  else if 0x1000 ≤ o ∧ o < 0x1400 then s.listenerReg ((o - 0x1000) / 64) (o % 64)
  else if 0x2000 ≤ o ∧ o < 0x2800 then s.estReg ((o - 0x2000) / 8)
  else 0

/-- The bytes of records of `size` bytes that stand `stride` bytes apart, as the word at `o`. -/
def recWord (recs : List (List Byte)) (stride o : Nat) : Nat := leNat (((recs.getD (o / stride) []).drop (o % stride)).take 4)

/-- The fault and stop registers, 0x1009_0000 (11 R350). -/
def State.faultReg (s : State) (o : Nat) : Nat :=
  let f := s.flt
  let x := s.stop
  if 0x1000 ≤ o ∧ o < 0x3000 then recWord f.recs 0x200 (o - 0x1000)
  else match o with
  | 0x00 => f.ce
  | 0x08 => f.ue
  | 0x10 => f.host
  | 0x18 => natOfBool f.hang + 2 * natOfBool f.mchk + 4 * natOfBool f.snapped + 2 ^ 8 * (f.vector % 256)
  | 0x20 => s.cfg.hangUs % 2 ^ 16
  | 0x24 => f.recs.length + 2 ^ 16 * (f.lost % 2 ^ 16)
  | 0x38 =>
    let st := if x.stopped then 2 else if x.plan.isSome then 1 else 0
    let p := match x.plan with | some p => p | none => x.last
    st + 4 * natOfBool (x.stopped && x.snapDone) + 8 * natOfBool x.late + 16 * natOfBool x.refused + 2 ^ 8 * (p.reason % 256) +
      2 ^ 16 * (p.scope % 4) + 2 ^ 32 * (p.id % 2 ^ 32)
  | 0x40 => (match x.plan with | some p => p.at_ | none => x.cut) % 2 ^ 58
  | 0x50 => s.boot.stopBase
  | 0x58 => x.held.length % 2 ^ 13 + 2 ^ 16 * (x.drops % 2 ^ 16)
  | _ => 0

/-- The code of a processor's state. -/
def ProcState.code : ProcState → Nat
  | .off => 0 | .booting => 1 | .running => 2 | .restarting => 3 | .switching => 4 | .heldDown => 5

/-- MH_FW_PSTAT (12 R374). -/
def Proc.word (p : Proc) : Nat :=
  p.st.code + 8 * natOfBool p.imageB + 16 * natOfBool p.degraded + 2 ^ 8 * (p.crashes % 256) + 2 ^ 16 * (p.cause % 256) +
    2 ^ 32 * (p.version % 2 ^ 32)

/-- MH_FW_DUTY. -/
def dutyWord : List (Nat × Bool) → Nat
  | [] => 0
  | d :: ds => d.1 % 8 + 8 * natOfBool d.2 + 16 * dutyWord ds

/-- The firmware registers, 0x100A_0000 (12 R374). -/
def State.fwReg (s : State) (o : Nat) : Nat :=
  let w := s.fw
  if o < 0x98 then (s.proc (o / 8)).word
  else if 0x1000 ≤ o ∧ o < 0x1400 then recWord w.crashRecs 0x40 (o - 0x1000)
  else match o with
  | 0x100 => dutyWord w.duties
  | 0x108 => w.wdtUs % 2 ^ 14
  | 0x204 => (if w.act = 3 ∧ s.calmFor = false then 5 else w.act) + 2 ^ 8 * (w.next % 32) + 2 ^ 16 * (w.fail % 256)
  | 0x208 => w.stageLen % 2 ^ 25
  | 0x210 => natOfBool w.activeB + 2 * natOfBool w.fallback + 4 * natOfBool w.refetch + 2 ^ 8 * (w.fuseSvn % 256)
  | 0x300 => w.crashRecs.length + 2 ^ 24 * (w.crashLost % 256)
  | _ => 0

/-- An entry of the dispatch table (13 R376): where the ROM's routines start is free.
Mark: DESIGN CHOICE (notes/assumptions/44.md). -/
def State.dispWord (s : State) (op : Nat) : Nat :=
  match Tbl.get? s.dispTable op with
  | some v => v % 2 ^ 16 + 2 ^ 16
  | none => if romOpcode op then (Config.word op).toNat % 16384 + 2 ^ 15 else 0

/-- SEQ_EN: 8 sequencers for each enabled group. -/
def Boxwood.seqEn (b : Boxwood) : Nat := sumNat ((List.range 4).map fun g => if bitOf b.groups g then 0xFF * 256 ^ g else 0)

/-- The Boxwood registers, 0x100B_0000 (13 R396). -/
def State.bwReg (s : State) (o : Nat) : Nat :=
  let b := s.bw
  if 0x400 ≤ o ∧ o < 0x800 then s.dispWord ((o - 0x400) / 4)
  else match o with
  | 0x000 => b.seqEn
  | 0x008 => b.parks
  | 0x010 => natOfBool b.lock + 2 ^ 8 * (b.patchStatus % 256)
  | 0x014 => b.index % 2 ^ 11
  | 0x100 => natOfBool b.synValid + b.syn
  | 0x108 => b.synFtc
  | 0x110 => b.mchks
  | _ => 0

/-- The arbiter registers, 0x100C_0000 (13 R397). -/
def State.arbReg (s : State) (o : Nat) : Nat :=
  let a := s.arb
  if o = 0 then a.owner % 8 + sumNat ((List.range 8).map fun k => min arbQueue (a.depth k) * 2 ^ (4 + 3 * k))
  else if o = 8 then a.progress.getD 0 0 % 2 ^ 11 + 2 ^ 16 * (a.progress.getD 1 0 % 2 ^ 11) + 2 ^ 32 * (a.progress.getD 2 0 % 2 ^ 11)
  else if 0x10 ≤ o ∧ o < 0x30 then a.loss.getD ((o - 0x10) / 4) 0
  else if 0x40 ≤ o ∧ o < 0x80 then a.held.getD ((o - 0x40) / 8) 0
  else 0

/-- The interrupt controller block of processor `n`, +`o` (13 R398). -/
def State.icReg (s : State) (n o : Nat) : Nat :=
  let b := s.icProc n
  if 0x20 ≤ o ∧ o < 0x40 then sumNat ((List.range 4).map fun j => b.prio.getD (o - 0x20 + j) 0 % 256 * 256 ^ j)
  else if 0x60 ≤ o ∧ o < 0x80 then
    sumNat ((List.range 32).map fun i => if s.icActive n ((o - 0x60) * 8 + i) then 2 ^ i else 0)
  else match o with
  | 0x00 => (s.icSelect n).getD 0xFFFF
  | 0x08 => b.thresh % 256 + 2 ^ 8 * (b.split % 8) + 2 ^ 16 * natOfBool b.err
  | 0x0C => (match s.icRunning n with | some g => g % 256 | none => 2 ^ 8)
  | 0x10 => b.enable % 2 ^ 32
  | 0x14 => b.pending % 2 ^ 32
  | 0x18 => bitsOf b.pending 3 8
  | 0x40 => b.timer0 % 2 ^ 64
  | 0x48 => b.timer1 % 2 ^ 64
  | _ => 0

/-- MH_IC_SRC; the words of reserved sources read zero. -/
def State.srcReg (s : State) (n : Nat) : Nat :=
  if (icReset n).isNone then 0
  else
    let x := s.icSrc n
    x.prio % 256 + 2 ^ 8 * (x.target % 32) + 2 ^ 16 * natOfBool x.enable + 2 ^ 17 * natOfBool x.pending + 2 ^ 18 * natOfBool x.active

/-- The code of a boot phase. -/
def BootPhase.code : BootPhase → Nat
  | .rom => 0 | .image => 1 | .config => 2 | .fabric => 3 | .bringup => 4 | .up => 5 | .recovery => 6

/-- The reset, boot and power registers, 0x100E_0000 (14 R418, R419). -/
def State.bootReg (s : State) (o : Nat) : Nat :=
  let b := s.boot
  let p := s.pwr
  match o with
  | 0x00 => b.straps % 2 ^ 9
  | 0x08 => b.kind % 8 + 2 ^ 8 * (b.resets % 2 ^ 16)
  | 0x0C => b.phase.code + 8 * natOfBool b.ftTimeout + 16 * (b.cfgStatus % 4) + 2 ^ 6 * natOfBool (bitOf b.straps 8) +
      2 ^ 8 * (b.cfgCause % 256) + 2 ^ 16 * (b.bootMs % 2 ^ 16)
  | 0x10 => p.level % 4 + 4 * natOfBool p.hwTrip + 8 * natOfBool p.clamp + 2 ^ 8 * (p.coreStep % 32)
  | 0x14 => p.limitW % 2 ^ 10
  | 0x18 => p.mahornMw % 2 ^ 16 + 2 ^ 16 * (p.moduleW % 2 ^ 16)
  | 0x20 => p.throttles + 2 ^ 16 * p.sheds + 2 ^ 32 * p.trips + 2 ^ 48 * p.hwTrips
  | 0x28 => p.lastStamp
  | _ => 0

/-- Member `i` of a pair's four (15 R440). -/
def pairAt (x : Nat × Nat × Nat × Nat) (i : Nat) : Nat :=
  match i with | 0 => x.1 | 1 => x.2.1 | 2 => x.2.2.1 | _ => x.2.2.2

/-- STATE of MH_TRACE_STATUS. -/
def TraceState.code : TraceState → Nat
  | .off => 0 | .armed => 1 | .on => 2 | .full => 3

/-- The trace and global counter registers, 0x100F_0000 (15 R440). -/
def State.traceReg (s : State) (o : Nat) : Nat :=
  let t := s.trace
  if 0x1000 ≤ o ∧ o < 0x1400 then s.gcnt.live.op ((o - 0x1000) / 8)
  else if 0x2000 ≤ o ∧ o < 0x2400 then s.gcnt.copy.op ((o - 0x2000) / 8)
  else if 0x4000 ≤ o ∧ o < 0x81C0 then pairAt ((s.countBusyAll s.ftc).epPair ((o - 0x4000) / 32)) (o / 8 % 4)
  else if 0x9000 ≤ o ∧ o < 0xD1C0 then pairAt (Tbl.getD s.epCopy ((o - 0x9000) / 32) (0, 0, 0, 0)) (o / 8 % 4)
  else if 0x20 ≤ o ∧ o < 0x30 then bitsOf t.parts ((o - 0x20) * 8) 32
  else match o with
  | 0x000 => natOfBool t.enable + 2 * natOfBool t.modeStop + 4 * natOfBool t.portEn
  | 0x004 => bitsOf t.events 1 14 * 2
  | 0x008 => t.startTick % 2 ^ 58
  | 0x010 => t.stopTick % 2 ^ 58
  | 0x018 => t.classes % 2 ^ 9 + 2 ^ 16 * (t.coreLo % 128) + 2 ^ 24 * (t.coreHi % 128)
  | 0x030 => t.records % 2 ^ 64
  | 0x038 => t.st.code + 4 * natOfBool t.wrapped + 8 * natOfBool t.unsyncSeen
  | 0x03C => t.lost
  | 0x040 => t.portDrop
  | 0x050 => s.boot.traceBase
  | 0x058 => t.sampleTicks % 2 ^ 16 + 2 ^ 16 * (t.seed % 2 ^ 16)
  | 0x100 => 2 * natOfBool s.gcnt.latched
  | 0x108 => s.gcnt.stamp
  | _ => 0

/-- Eight bytes of an area of tier 0 that a window shows, at an offset of the window. -/
def State.areaWord (s : State) (base o : Nat) : Nat := s.readNat (base + o) 4

/-- The register of the management window that begins at an offset (16 R441). -/
def State.mgmtReg (s : State) (o : Nat) : Nat :=
  if o < 0x1000 then s.capReg none o
  else if o < 0x10000 then 0
  else if o < 0x20000 then s.timeReg (o - 0x10000)
  else if o < 0x22000 then (s.part ((o - 0x20000) / 64)).quotaReg (o % 64)
  else if o < 0x30000 then 0
  else if o < 0x60000 then s.storeReg o
  else if o < 0x70000 then s.copReg (o - 0x60000)
  else if o < 0x80000 then s.pleachReg (o - 0x70000)
  else if o < 0x90000 then s.svcReg (o - 0x80000)
  else if o < 0xA0000 then s.faultReg (o - 0x90000)
  else if o < 0xB0000 then s.fwReg (o - 0xA0000)
  else if o < 0xC0000 then s.bwReg (o - 0xB0000)
  else if o < 0xD0000 then s.arbReg (o - 0xC0000)
  else if o < 0xD1300 then s.icReg ((o - 0xD0000) / 256) (o % 256)
  else if o < 0xD2080 then 0
  else if o < 0xD2400 then s.srcReg ((o - 0xD2000) / 4)
  else if o < 0xE0000 then 0
  else if o < 0xF0000 then s.bootReg (o - 0xE0000)
  else if o < 0x100000 then s.traceReg (o - 0xF0000)
  else if o < 0x8000000 then 0
  else if o < 0xC000000 then (if s.stop.snapDone then s.areaWord s.boot.stopBase (o - 0x8000000) else 0)
  else if s.boot.phase = .up then s.areaWord s.boot.traceBase (o - 0xC000000)
  else 0

/-- The register at a place. -/
def State.regAt (s : State) : Space → Nat
  | .win p o => s.winReg p o
  | .mgmt o => s.mgmtReg o
  | .none => 0

/-! ### What a read clears (00 R15, R444) -/

/-- Clear the RC field of a partition window whose least significant byte is at an offset. -/
def State.winClear (s : State) (p o : Nat) : State :=
  if !s.isUp p then s
  else if 0x2000 ≤ o ∧ o < 0x3000 ∧ o % 16 = 12 then
    (if Tbl.has (s.part p).vecs ((o - 0x2000) / 16) then s.adjVec p ((o - 0x2000) / 16) fun v => { v with events := 0 } else s)
  else if 0x10000 ≤ o ∧ o < 0x50000 then
    (if s.resetting p then s
     else if o % 64 = 0x20 then s.adjRing (pkey p ((o - 0x10000) / 64)) fun r => { r with piDrops := 0 }
     else if o % 64 = 0x22 then s.adjRing (pkey p ((o - 0x10000) / 64)) fun r => { r with dbIgnored := 0 }
     else s)
  else match o with
  | 0x1020 => s.adjCounts p fun c => { c with ctxLoads := 0 }
  | 0x1024 => s.adjCounts p fun c => { c with ctxWaits := 0 }
  | 0x1028 => s.adjCounts p fun c => { c with dropped := 0 }
  | 0x1300 => s.adjCounts p fun c => { c with fenceLow := 0 }
  | 0x1304 => s.adjCounts p fun c => { c with fenceSat := 0 }
  | 0x1308 => s.adjCounts p fun c => { c with fenceDrop := 0 }
  | 0x130C => s.adjCounts p fun c => { c with fenceRemote := 0 }
  | 0x1310 => s.adjCounts p fun c => { c with recDrop := 0 }
  | 0x1500 => s.adjCounts p fun c => { c with svcDone := 0 }
  | 0x1504 => s.adjCounts p fun c => { c with svcShed := 0 }
  | 0x1508 => s.adjCounts p fun c => { c with svcDeadline := 0 }
  | 0x150C => s.adjCounts p fun c => { c with svcFailed := 0 }
  | _ => s

/-- Clear an RC field of a listener's block. -/
def State.listClear (s : State) (l o : Nat) : State :=
  match o with
  | 0x08 => s.adjList l fun c => { c with recv := 0 }
  | 0x10 => s.adjList l fun c => { c with done := 0 }
  | 0x18 => s.adjList l fun c => { c with shed := 0 }
  | 0x20 => s.adjList l fun c => { c with deadline := 0 }
  | 0x24 => s.adjList l fun c => { c with malformed := 0 }
  | 0x28 => s.adjList l fun c => { c with failed := 0 }
  | 0x2C => s.adjList l fun c => { c with noslot := 0 }
  | _ => s

/-- Clear the RC field of the management window whose least significant byte is at an offset; a read of MH_IC_CLAIM's
least significant byte claims (13 R394). -/
def State.mgmtClear (s : State) (o : Nat) : State :=
  if 0x81000 ≤ o ∧ o < 0x81400 then s.listClear ((o - 0x81000) / 64) (o % 64)
  else if 0xC0010 ≤ o ∧ o < 0xC0030 then
    (if o % 4 = 0 then { s with arb := { s.arb with loss := s.arb.loss.set ((o - 0xC0010) / 4) 0 } } else s)
  else if 0xC0040 ≤ o ∧ o < 0xC0080 then
    (if o % 8 = 0 then { s with arb := { s.arb with held := s.arb.held.set ((o - 0xC0040) / 8) 0 } } else s)
  else if 0xD0000 ≤ o ∧ o < 0xD1300 then (if o % 256 = 0 then s.icClaim ((o - 0xD0000) / 256) else s)
  else match o with
  | 0x10030 => s.adjFab fun x => { x with late := 0 }
  | 0x10034 => s.adjFab fun x => { x with refused := 0 }
  | 0x3000C => { s with espWaits := 0 }
  | 0x5000C => { s with shears := { s.shears with escCount := 0 } }
  | 0x60108 => s.adjCop fun c => { c with expiredCount := 0 }
  | 0x60208 => s.adjMarshal fun m => { m with hits := 0 }
  | 0x60210 => s.adjMarshal fun m => { m with misses := 0 }
  | 0x70008 => s.adjPleach fun q => { q with routes := 0 }
  | 0x70010 => s.adjPleach fun q => { q with spills := 0 }
  | 0x70018 => s.adjPleach fun q => { q with residual := 0 }
  | 0x70020 => s.adjPleach fun q => { q with nans := 0 }
  | 0x70028 => s.adjPleach fun q => { q with skips := 0 }
  | 0x70030 => s.adjPleach fun q => { q with reruns := 0 }
  | 0x7003A => s.adjMarshal fun m => { m with overdue := 0 }
  | 0x90000 => s.adjFlt fun f => { f with ce := 0 }
  | 0x90008 => s.adjFlt fun f => { f with ue := 0 }
  | 0x90010 => s.adjFlt fun f => { f with host := 0 }
  | 0x90026 => s.adjFlt fun f => { f with lost := 0 }
  | 0x9005A => s.adjStop fun x => { x with drops := 0 }
  | 0xA0303 => s.adjFw fun w => { w with crashLost := 0 }
  | 0xB0008 => s.adjBw fun b => { b with parks := 0 }
  | 0xB0110 => s.adjBw fun b => { b with mchks := 0 }
  | 0xE0020 => s.adjPwr fun p => { p with throttles := 0 }
  | 0xE0022 => s.adjPwr fun p => { p with sheds := 0 }
  | 0xE0024 => s.adjPwr fun p => { p with trips := 0 }
  | 0xE0026 => s.adjPwr fun p => { p with hwTrips := 0 }
  | 0xF003C => s.adjTrace fun t => { t with lost := 0 }
  | 0xF0040 => s.adjTrace fun t => { t with portDrop := 0 }
  | _ => s

/-- Clear what a read of the byte at a place clears.
Mark: DEDUCED (notes/assumptions/103.md). -/
def State.clearAt (s : State) : Space → State
  | .win p o => s.winClear p o
  | .mgmt o => s.mgmtClear o
  | .none => s

/-! ### Reads (00 R444; 01 R33, R50) -/

/-- The byte at a place as it reads. -/
def State.byteAt (s : State) (x : Space) : Nat := s.regAt x.base / 256 ^ (x.off - x.base.off) % 256

/-- The number that `n` bytes from a place spell. -/
def State.bytesAt (s : State) (x : Space) : Nat → Nat
  | 0 => 0
  | n + 1 => s.byteAt x + 256 * s.bytesAt (x.plus 1) n

/-- Clear what a read of `n` bytes from a place clears. -/
def State.clearFrom (s : State) (x : Space) : Nat → State
  | 0 => s
  | n + 1 => State.clearFrom (s.clearAt x) (x.plus 1) n

/-- Does the 64-bit register at a place latch its high word at a 32-bit read of its low word?
Mark: DEDUCED (notes/assumptions/123.md). -/
def Space.latches : Space → Bool
  | .win _ o => winLatches o
  | .mgmt o => mgmtLatches o
  | .none => false

/-- The key of a latched word: a place as one number. -/
def Space.key : Space → Nat
  | .win p o => p * 2 ^ 20 + o
  | .mgmt o => 2 ^ 28 + o
  | .none => 2 ^ 29

/-- The latched high word that a read returns, for a 32-bit read of a high word.
Mark: DEDUCED (notes/assumptions/123.md). -/
def State.latched (s : State) (who : Agent) (x : Space) (n : Nat) : Option Nat :=
  if n = 4 then (s.latches.find? fun l => l.1 == who && l.2.1 == x.key).map fun l => l.2.2 else none

/-- The MH_CAL_CAPTURE_SEC that a requester latched by its read of MH_CAL_CAPTURE_FTC.
Mark: DEDUCED (notes/assumptions/122.md). -/
def State.latchedSec (s : State) (who : Agent) (x : Space) (n : Nat) : Option Nat :=
  if x = .mgmt 0x10110 then ((s.cal.latchSec.find? fun l => l.1 == who).map fun l => l.2 % 256 ^ n)
  else if x = .mgmt 0x10114 then ((s.cal.latchSec.find? fun l => l.1 == who).map fun l => l.2 / 2 ^ 32 % 256 ^ n)
  else none

/-- Latch what a read latches: the high word of a 64-bit register, and MH_CAL_CAPTURE_SEC (01 R50).
Mark: DEDUCED (notes/assumptions/122.md). -/
def State.latchAt (s : State) (who : Agent) (x : Space) (n : Nat) : State :=
  let s1 := if x = .mgmt 0x10108 then s.capRead who else s
  if n = 4 && x.latches && x == x.base then
    let k := (x.plus 4).key
    { s1 with latches := (who, k, s.regAt x / 2 ^ 32 % 2 ^ 32) :: s1.latches.filter fun l => !(l.1 == who && l.2.1 == k) }
  else s1

/-- A latched word that a read has returned is gone.
Mark: DEDUCED (notes/assumptions/123.md). -/
def State.unlatch (s : State) (who : Agent) (x : Space) (n : Nat) : State :=
  if n = 4 then { s with latches := s.latches.filter fun l => !(l.1 == who && l.2.1 == x.key) } else s

/-- Is a read one of the high word alone of a register that latches its high word? Without a latched value it clears nothing
(00 R444).
Mark: DEDUCED (notes/assumptions/123.md). -/
def Space.highWord (x : Space) (n : Nat) : Bool := n == 4 && x.base.latches && x.plus 0 == x.base.plus 4

/-- A register read: the bytes asked for, what the read clears and what it latches. MGMT_ACCESS of the debug port returns
DATA with ERR clear. -/
def State.regRead (s : State) (a : RegAcc) : State :=
  let x := spaceOf a
  let n := min a.bytes 64
  let v := match s.latched a.who x n with
    | some v => v
    | none => (match s.latchedSec a.who x n with | some v => v | none => s.bytesAt x n)
  let s1 := match s.latched a.who x n with
    | some _ => (s.unlatch a.who x n).clearFrom x n
    | none => if x.highWord n then s.latchAt a.who x n else (s.latchAt a.who x n).clearFrom x n
  { s1 with readData := v }

end Sys2Proof.Machine
end

