-- ==== Sys2Proof/Machine/RegWrite.lean ====
section
/-! DEFINITION. Register writes (16 R441): byte enables (00 R443), which host writes wait for the next boundary (01 R23),
and what the write of each register does. -/
namespace Sys2Proof.Machine

/-! ### Byte enables (00 R443). An access `a` here holds an offset of its window as its address. -/

/-- Does a write cover every byte of the field at bit `lo`, `w` bits wide, of the register at `b`? -/
def covers (a : RegAcc) (b lo w : Nat) : Bool :=
  decide (a.addr ≤ b + lo / 8) && decide (b + (lo + w - 1) / 8 < a.addr + a.bytes) &&
    a.skip.all fun i => decide (a.addr + i < b + lo / 8) || decide (b + (lo + w - 1) / 8 < a.addr + i)

/-- The field that a write gives, where it covers it. -/
def wfld (a : RegAcc) (b lo w : Nat) : Nat :=
  let d := a.data % 256 ^ a.bytes
  bitsOf (if b ≤ a.addr then d * 256 ^ (a.addr - b) else d / 256 ^ (b - a.addr)) lo w

/-- Does a write give 1 to a bit that it covers? -/
def sets (a : RegAcc) (b i : Nat) : Bool := covers a b i 1 && wfld a b i 1 == 1

/-- The value of an RW field after a write: the one written, or the old one. -/
def newFld (a : RegAcc) (b lo w old : Nat) : Nat := if covers a b lo w then wfld a b lo w else old

/-- The same of one bit. -/
def newBit (a : RegAcc) (b i : Nat) (old : Bool) : Bool := if covers a b i 1 then wfld a b i 1 == 1 else old

/-- A W1C bit after a write.
Mark: DEDUCED (notes/assumptions/126.md). -/
def w1c (a : RegAcc) (b i : Nat) (old : Bool) : Bool := old && !sets a b i

/-- A list with one thing, or none. -/
def onlyIf {α : Type} (c : Bool) (x : α) : List α := if c then [x] else []

/-- The bytes of an access whose byte enables are set. -/
def bytesOn (a : RegAcc) : List Nat := (List.range a.bytes).filter fun i => !a.skip.contains i

/-- The bases of the registers that the bytes of an access reach. -/
def basesOf (x : Space) (a : RegAcc) : List Nat := dedupNat ((bytesOn a).map fun i => (x.plus i).base.off)

/-! ### Partition windows: what a write asks for (01 R23; 02 R65, R71; 03 R78-R94; 06 R191) -/

/-- A state command written as CMD. -/
def cmdOps (p r cmd : Nat) : List HostOp := onlyIf (decide (1 ≤ cmd ∧ cmd ≤ 3)) (.stateCmd p r cmd)

/-- What a write asks of ring `r`'s register at `b`, +`k`; of a clear of REJECTED and a CMD in one write the clear comes first.
Mark: DESIGN CHOICE (notes/assumptions/152.md). -/
def ringOps (a : RegAcc) (p r b k : Nat) : List HostOp :=
  match k with
  | 0x00 => onlyIf (covers a b 0 32) (.pi p r (wfld a b 0 32))
  | 0x08 => [.doorbell p r]
  | 0x18 => onlyIf (sets a b 7) (.clearRejected p r) ++ (if covers a b 4 3 then cmdOps p r (wfld a b 4 3) else [])
  | _ => []

/-- What a write asks of the register at `b` of partition `p`'s window; the registers that only hold values or start
nothing of a ring, a context or a fence are left to `plainWin`.
Mark: DEDUCED (notes/assumptions/124.md). -/
def winOps (a : RegAcc) (p b : Nat) : List HostOp :=
  if b = 0x1000 then onlyIf (sets a b 2) (.clearPartFault p)
  else if b = 0x1100 then onlyIf (covers a b 0 14 && covers a b 32 32) (.pi p (wfld a b 0 14) (wfld a b 32 32))
  else if b = 0x1108 then onlyIf (covers a b 0 14) (.doorbell p (wfld a b 0 14))
  else if b = 0x110C then (if covers a b 0 14 && covers a b 16 3 then cmdOps p (wfld a b 0 14) (wfld a b 16 3) else [])
  else if 0x8000 ≤ b ∧ b < 0x10000 then onlyIf (sets a b 2) (.clearFault p ((b - 0x8000) / 8))
  else if 0x10000 ≤ b ∧ b < 0x50000 then ringOps a p ((b - 0x10000) / 64) b (b % 64)
  else if 0x50000 ≤ b ∧ b < 0x70000 then
    (if b % 16 = 0 then [.fenceVal p ((b - 0x50000) / 16) (wfld a b 0 64) (a.addr == b && a.bytes == 8 && a.skip == [])]
     else [if sets a b 8 then .fenceFail p ((b - 0x50000) / 16) else .fenceIdle p])
  else []

/-- Is the register at `b` of a partition window one that `plainWin` writes? -/
def plainWinReg (b : Nat) : Bool :=
  b == 0x1030 || (decide (0x1200 ≤ b ∧ b < 0x1220)) || (decide (0x2000 ≤ b ∧ b < 0x3000)) || b == 0x80000

/-- May the admin registers be written (03 R95)? -/
def State.adminOpen (s : State) (p : Nat) : Bool :=
  match s.ring? (pkey p 0) with | some r => r.state == .disabled | none => false

/-- Is ring 0 the only ring of context 0? -/
def State.loneRing0 (s : State) (p : Nat) : Bool := s.ringsOf (pkey p 0) == [pkey p 0]

/-- Change the admin registers, while they may be written. -/
def State.adjAdmin (s : State) (p : Nat) (f : AdminRegs → AdminRegs) : State :=
  if s.adminOpen p then s.adjPart p fun q => { q with admin := f q.admin } else s

/-- MH_VEC_CTRL (07 R212). -/
def writeVec (a : RegAcc) (b : Nat) (v : Vec) : Vec :=
  { v with holdoff := newFld a b 0 16 v.holdoff, batch := if covers a b 16 8 then max 1 (wfld a b 16 8) else v.batch }

/-- A write takes effect on a register of partition `p`'s window that holds a value, or on LATCH.
Mark: DEDUCED (notes/assumptions/126.md). -/
def State.plainWin (s : State) (a : RegAcc) (p b : Nat) : State :=
  if b = 0x1030 then s.adjPart p fun q => { q with faultVector := newFld a b 0 8 q.faultVector }
  else if b = 0x1200 then s.adjAdmin p fun d => { d with base := newFld a b 12 52 (d.base / 2 ^ 12) * 2 ^ 12 }
  else if b = 0x1208 then s.adjAdmin p fun d => { d with cseq := newFld a b 3 61 (d.cseq / 2 ^ 3) * 2 ^ 3 }
  else if b = 0x1210 then s.adjAdmin p fun d => { d with err := newFld a b 5 59 (d.err / 2 ^ 5) * 2 ^ 5 }
  else if b = 0x1218 then s.adjAdmin p fun d =>
    { d with sizeLog2 := newFld a b 0 5 d.sizeLog2, loc := newBit a b 5 d.loc, cseqLoc := newBit a b 6 d.cseqLoc,
             errLoc := newBit a b 7 d.errLoc, errLog2 := newFld a b 8 5 d.errLog2, vector := newFld a b 16 8 d.vector }
  else if b = 0x121C then
    (if s.loneRing0 p then s.adjAdmin p fun d =>
      { d with pasid := newFld a b 0 20 d.pasid, hostAccess := newBit a b 20 d.hostAccess } else s)
  else if 0x2000 ≤ b ∧ b < 0x3000 ∧ b % 16 = 8 then s.adjVec p ((b - 0x2000) / 16) (writeVec a b)
  else if b = 0x80000 ∧ sets a b 0 = true then { s with pcnt := Tbl.set s.pcnt p { s.pcount p with want := true } }
  else s

/-! ### The management window: what a write asks for -/

/-- What a write asks of the management register at `b` beyond values: ENABLE of a partition, a teardown, STAGE. `ok` says
how the flash write of a STAGE ends. -/
def mgmtOps (a : RegAcc) (b : Nat) (ok : Bool) : List HostOp :=
  if 0x20000 ≤ b ∧ b < 0x22000 ∧ b % 64 = 0 then
    (if covers a b 0 1 then [if wfld a b 0 1 = 1 then .enable ((b - 0x20000) / 64) else .disable ((b - 0x20000) / 64)] else [])
  else if b = 0x50000 then onlyIf (covers a b 0 7 && sets a b 8) (.shears (wfld a b 0 7))
  else if b = 0xA0200 then onlyIf (covers a b 0 3 && wfld a b 0 3 == 1) (.fwStage ok)
  else []

/-- Is a register one whose write acts when it arrives: a core fencing, a reset or the calendar's time, whose own rules say
when the effect comes? -/
def atArrival (b : Nat) : Bool := b == 0x90028 || b == 0xE0004 || b == 0x10100

/-- Such a write.
Mark: DEDUCED (notes/assumptions/89.md). -/
def State.arrive (s : State) (a : RegAcc) (b straps : Nat) : State :=
  if b = 0x90028 then (if covers a b 0 7 && sets a b 8 then s.decideFence (wfld a b 0 7) 3 else s)
  else if b = 0xE0004 then (if covers a b 0 2 && covers a b 8 8 then s.rstWrite (wfld a b 0 16) straps else s)
  else if covers a b 0 15 || covers a b 15 48 then
    let old := s.cal.pendingSet.getD (s.cal.sec, s.cal.sub)
    s.calWrite (newFld a b 0 15 old.2 + 2 ^ 15 * newFld a b 15 48 old.1)
  else s

/-- The quota registers of a partition (02 R66, R68): those of its sizes only while it is not enabled. -/
def writeQuota (a : RegAcc) (b : Nat) (q : Part) : Part :=
  let x := q.quota
  let set := fun (y : Quota) => if q.up then q else { q with quota := y }
  match b % 64 with
  | 0x00 => { q with weight := if covers a b 8 8 then max 1 (wfld a b 8 8) else q.weight }
  | 0x04 => set { x with rings := clampNat 1 16384 (newFld a b 0 15 x.rings) }
  | 0x08 => set { x with contexts := clampNat 1 4096 (newFld a b 0 13 x.contexts), resMin := min 256 (newFld a b 16 9 x.resMin) }
  | 0x0C => set { x with nodes := clampNat 1 65536 (newFld a b 0 17 x.nodes) }
  | 0x10 => set { x with fences := clampNat 1 1048576 (newFld a b 0 21 x.fences) }
  | 0x14 => set { x with graphs := min 8192 (newFld a b 0 14 x.graphs), storeKib := min 8192 (newFld a b 16 14 x.storeKib) }
  | 0x18 => set { x with requests := min 4096 (newFld a b 0 13 x.requests), hotrowMib := min 384 (newFld a b 16 9 x.hotrowMib) }
  | 0x1C => set { x with tables := min 4096 (newFld a b 0 13 x.tables) }
  | 0x20 => set { x with mem0 := newFld a b 0 20 x.mem0 }
  | 0x24 => set { x with mem1 := newFld a b 0 20 x.mem1 }
  | 0x30 => { q with overcommit := w1c a b 0 q.overcommit }
  | _ => q

/-- A signed field of 32 bits. -/
def signed32 (n : Nat) : Int := signedOf 32 n

/-- An integer within bounds. -/
def clampInt (lo hi i : Int) : Int := if i < lo then lo else if hi < i then hi else i

/-- Fabric time and the calendar (01 R34, R50). -/
def State.writeTime (s : State) (a : RegAcc) (b : Nat) : State :=
  match b with
  | 0x10010 => s.adjFab fun x =>
    { x with leadTicks := if covers a b 0 16 then clampNat 8 4096 (wfld a b 0 16) else x.leadTicks,
             syncPeriod := if covers a b 16 4 then clampNat 6 14 (wfld a b 16 4) else x.syncPeriod }
  | 0x10018 => s.adjFab fun x =>
    { x with lateStrict := w1c a b 4 x.lateStrict, holdFull := w1c a b 5 x.holdFull,
             unlockedApply := w1c a b 6 x.unlockedApply, linkWentDown := w1c a b 7 x.linkWentDown }
  | 0x10118 => if covers a b 0 32 then s.adjCal fun c => { c with adj := clampInt (-500000) 500000 (signed32 (wfld a b 0 32)) } else s
  | 0x10120 => s.adjCal fun c => { c with source := newFld a b 0 2 c.source, utc := newFld a b 16 16 c.utc }
  | _ => s

/-- INVALIDATE empties the hot-row cache (08 R265, R73 of 02). -/
def State.emptyCache (s : State) : State := s.adjMarshal fun m => { m with lines := [], hotWarm := false }

/-- Coppice and the marshal (08 R265). -/
def State.writeCop (s : State) (a : RegAcc) (b : Nat) : State :=
  match b with
  | 0x60004 => s.adjCop fun c => { c with expired := w1c a b 5 c.expired, cancelled := w1c a b 6 c.cancelled }
  | 0x60008 =>
    let s1 := s.adjCop fun c =>
      { c with graceMs := if covers a b 8 10 then clampNat 1 1000 (wfld a b 8 10) else c.graceMs,
               flipWaitMs := if covers a b 18 10 then clampNat 1 1000 (wfld a b 18 10) else c.flipWaitMs }
    if sets a b 0 then s1.requestFlip else s1
  | 0x6010C => s.adjMarshal fun m =>
    { m with fixed := newBit a b 0 m.fixed, fixedW := if covers a b 4 4 then clampNat 1 8 (wfld a b 4 4) else m.fixedW }
  | 0x60218 => if sets a b 0 then s.emptyCache else s
  | _ => s

/-- Pleach and exchanges (09 R301). -/
def State.writePleach (s : State) (a : RegAcc) (b : Nat) : State :=
  match b with
  | 0x70000 => s.adjPleach fun q =>
    { q with periodUs := if covers a b 0 16 then max 100 (wfld a b 0 16) else q.periodUs, loopOff := newBit a b 16 q.loopOff }
  | 0x70034 => if covers a b 0 10 then s.adjMarshal fun m => { m with xchgMs := clampNat 1 1000 (wfld a b 0 10) } else s
  | _ => s

/-- MH_SVC_CLASS (10 R326): GUARD_US is at most DEADLINE_US.
Mark: DEDUCED (notes/assumptions/79.md). -/
def writeClass (a : RegAcc) (b : Nat) (c : SvcClass) : SvcClass :=
  let d := if covers a b 0 20 then clampNat 1 1000000 (wfld a b 0 20) else c.deadlineUs
  { deadlineUs := d, guardUs := min d (newFld a b 32 20 c.guardUs), shed := newFld a b 52 2 c.shed, lateOk := newBit a b 54 c.lateOk }

/-- The service (10 R326, R327). -/
def State.writeSvc (s : State) (a : RegAcc) (b : Nat) : State :=
  if b = 0x80000 then (if sets a b 0 then (s.raise 43).askActivation else s.raise 43)
  else if b = 0x80004 then s.adjSvc fun v => { v with actFailed := w1c a b 3 v.actFailed }
  else if 0x80100 ≤ b ∧ b < 0x80180 then
    let i := (b - 0x80100) / 8
    s.adjSvc fun v => { v with classes := v.classes.set i (writeClass a b (v.classes.getD i SvcClass.reset)) }
  else s

/-- Faults and stops (11 R350).
Mark: DEDUCED (notes/assumptions/88.md). -/
def State.writeFault (s : State) (a : RegAcc) (b : Nat) : State :=
  match b with
  | 0x90018 => s.adjFlt fun f =>
    { f with hang := w1c a b 0 f.hang, mchk := w1c a b 1 f.mchk, snapped := w1c a b 2 f.snapped, vector := newFld a b 8 8 f.vector }
  | 0x90020 =>
    let s1 : State := { s with cfg := { s.cfg with
      hangUs := if covers a b 0 16 then max 10 (wfld a b 0 16) else s.cfg.hangUs } }
    if sets a b 16 then s1.clearHangs else s1
  | 0x90030 => if covers a b 0 64 then s.writeStopCtrl a.who (wfld a b 0 64) else s
  | 0x90038 => s.adjStop fun x => { x with refused := w1c a b 4 x.refused }
  | _ => s

/-- Firmware (12 R374). -/
def State.writeFw (s : State) (a : RegAcc) (b : Nat) : State :=
  match b with
  | 0xA0108 => if covers a b 0 14 then s.adjFw fun w => { w with wdtUs := clampNat 10 10000 (wfld a b 0 14) } else s
  | 0xA0200 => if covers a b 0 3 && wfld a b 0 3 != 1 then s.fwCommand (wfld a b 0 3) true else s
  | 0xA0208 => s.adjFw fun w => { w with stageLen := newFld a b 0 25 w.stageLen }
  | 0xA0210 => s.adjFw fun w => { w with refetch := w1c a b 2 w.refetch }
  | 0xA0300 => if sets a b 16 then s.clearCrashes else s
  | _ => s

/-- Boxwood (13 R382-R384, R396). -/
def State.writeBw (s : State) (a : RegAcc) (b : Nat) : State :=
  match b with
  | 0xB0010 => if sets a b 0 then s.patchLock a.who else s
  | 0xB0014 => if covers a b 0 11 then s.patchAddrWrite a.who (wfld a b 0 11) else s
  | 0xB0018 => if covers a b 0 32 then s.patchDataWrite a.who (wfld a b 0 32) else s
  | 0xB001C => if covers a b 0 8 && covers a b 8 15 && covers a b 23 1 then s.dispatchEntryWrite a.who (wfld a b 0 24) else s
  | 0xB0100 => s.adjBw fun x => { x with synValid := w1c a b 0 x.synValid, syn := if sets a b 0 then 0 else x.syn,
                                         synFtc := if sets a b 0 then 0 else x.synFtc }
  | _ => s

/-- The block of processor `n` in the interrupt controller (13 R398).
Mark: DEDUCED (notes/assumptions/103.md). -/
def State.writeIc (s : State) (a : RegAcc) (n b : Nat) : State :=
  let k := b % 256
  if 0x20 ≤ k ∧ k < 0x40 then
    (if covers a b 0 32 then
      s.adjIcProc n fun x => { x with prio := (List.range 32).map fun i =>
        if k - 0x20 ≤ i ∧ i < k - 0x20 + 4 then wfld a b (8 * (i - (k - 0x20))) 8 else x.prio.getD i 0 }
    else s)
  else match k with
  | 0x04 => if covers a b 0 16 then s.icComplete n (wfld a b 0 16) else s
  | 0x08 => s.adjIcProc n fun x =>
    { x with thresh := newFld a b 0 8 x.thresh, split := newFld a b 8 3 x.split, err := w1c a b 16 x.err }
  | 0x10 => s.adjIcProc n fun x => { x with enable := newFld a b 0 32 x.enable }
  | 0x18 => if covers a b 0 8 then s.icDoorbell n (wfld a b 0 8) else s
  | 0x40 => s.adjIcProc n fun x => { x with timer0 := newFld a b 0 64 x.timer0 }
  | 0x48 => s.adjIcProc n fun x => { x with timer1 := newFld a b 0 64 x.timer1 }
  | _ => s

/-- MH_IC_SRC. -/
def State.writeSrc (s : State) (a : RegAcc) (n b : Nat) : State :=
  s.adjSrc n fun x =>
    { x with prio := newFld a b 0 8 x.prio, enable := newBit a b 16 x.enable,
             target := if covers a b 8 5 then (if 18 < wfld a b 8 5 then 0 else wfld a b 8 5) else x.target }

/-- Trace, sampling and the global latch (15 R436, R440). -/
def State.writeTrace (s : State) (a : RegAcc) (b : Nat) : State :=
  let t := s.trace
  if 0xF0020 ≤ b ∧ b < 0xF0030 then
    (if covers a b 0 32 then
      let j := (b - 0xF0020) / 4
      s.adjTrace fun t => { t with parts := t.parts - bitsOf t.parts (32 * j) 32 * 2 ^ (32 * j) + wfld a b 0 32 * 2 ^ (32 * j) }
    else s)
  else match b with
  | 0xF0000 => if covers a b 0 3 then s.traceCtrl (wfld a b 0 3) else s
  | 0xF0004 => if covers a b 1 14 then s.adjTrace fun t => { t with events := wfld a b 1 14 * 2 } else s
  | 0xF0008 => s.adjTrace fun t => { t with startTick := newFld a b 0 58 t.startTick }
  | 0xF0010 => s.adjTrace fun t => { t with stopTick := newFld a b 0 58 t.stopTick }
  | 0xF0018 => s.adjTrace fun t =>
    { t with classes := newFld a b 0 9 t.classes, coreLo := newFld a b 16 7 t.coreLo, coreHi := newFld a b 24 7 t.coreHi }
  | 0xF0038 => s.adjTrace fun t => { t with unsyncSeen := w1c a b 3 t.unsyncSeen }
  | 0xF0048 => if covers a b 0 64 then s.marker (wfld a b 0 64) (if a.who = .jtag then 2 else 1) else s
  | 0xF0058 =>
    if covers a b 0 16 || covers a b 16 16 then s.sampleCtrl (newFld a b 0 16 t.sampleTicks + 2 ^ 16 * newFld a b 16 16 t.seed) else s
  | 0xF0100 => if sets a b 0 then { s with gcnt := { s.gcnt with want := true } } else s
  | _ => s

/-- The bytes of a write that fall in an area, by offset of the area.
Mark: DEDUCED (notes/assumptions/125.md). -/
def areaCells (a : RegAcc) (lo hi : Nat) : List Host.Cell :=
  ((bytesOn a).filter fun i => decide (lo ≤ a.addr + i) && decide (a.addr + i < hi)).map fun i =>
    (a.addr + i - lo, BitVec.ofNat 8 (a.data / 256 ^ i))

/-- A write takes effect on the management register at `b`. -/
def State.plainMgmt (s : State) (a : RegAcc) (b : Nat) : State :=
  if b < 0x10000 then s
  else if b < 0x20000 then s.writeTime a b
  else if b < 0x22000 then s.adjPart ((b - 0x20000) / 64) (writeQuota a b)
  else if b < 0x60000 then s
  else if b < 0x70000 then s.writeCop a b
  else if b < 0x80000 then s.writePleach a b
  else if b < 0x90000 then s.writeSvc a b
  else if b < 0xA0000 then s.writeFault a b
  else if b < 0xB0000 then s.writeFw a b
  else if b < 0xC0000 then s.writeBw a b
  else if b < 0xD0000 then s
  else if b < 0xD1300 then s.writeIc a ((b - 0xD0000) / 256) b
  else if b < 0xD2080 then s
  else if b < 0xD2400 then s.writeSrc a ((b - 0xD2000) / 4) b
  else if b < 0xE0000 then s
  else if b < 0xF0000 then
    (if b = 0xE0014 ∧ covers a b 0 10 = true then s.adjPwr fun p => { p with limitW := clampNat 400 850 (wfld a b 0 10) } else s)
  else if b < 0x100000 then s.writeTrace a b
  else s

/-- A write to the staging areas of the service and of the firmware. -/
def State.writeStaging (s : State) (a : RegAcc) : State :=
  let v := areaCells a 0x100000 0x200000
  let f := areaCells a 0x400000 0x1C00000
  let s1 := if v = [] then s else s.adjSvc fun x => { x with staging := v.foldl (fun m c => Mem.put m c.1 c.2) x.staging }
  if f = [] then s1 else s1.adjFw fun x => { x with staged := f.foldl (fun m c => Mem.put m c.1 c.2) x.staged }

/-! ### A write arrives, and takes effect -/

/-- A write of a register access takes effect at a boundary on the registers that hold values. -/
def State.applyReg (s : State) (a : RegAcc) : State :=
  let x := spaceOf a
  let r : RegAcc := { a with addr := x.off }
  match x with
  | .none => s
  | .win p _ => if s.isUp p then foldS (basesOf x a) (fun s b => s.plainWin r p b) s else s
  | .mgmt _ =>
    foldS ((basesOf x a).filter fun b => !atArrival b) (fun s b => s.plainMgmt r b) (s.writeStaging r)

/-- A write arrives: what it asks for waits for the next boundary in arrival order, but for the writes that act when they
arrive; firmware's own changes as the host's would (12 R352).
A partition that is not enabled drops every write to its window (02 R53).
Mark: DEDUCED (notes/assumptions/124.md). -/
def State.regWrite (s : State) (a0 : RegAcc) (straps : Nat) (ok : Bool) : State :=
  let a : RegAcc := { a0 with bytes := min a0.bytes 64 }
  let x := spaceOf a
  let bs := basesOf x a
  let r : RegAcc := { a with addr := x.off }
  match x with
  | .none => s
  | .win p _ =>
    if !s.isUp p then s
    else
      let ops := bs.flatMap (winOps r p) ++ onlyIf (bs.any plainWinReg) (.reg a)
      { s with hostOps := s.hostOps ++ ops }
  | .mgmt _ =>
    let s1 := foldS (bs.filter atArrival) (fun s b => s.arrive r b straps) s
    { s1 with hostOps := s1.hostOps ++ bs.flatMap (fun b => mgmtOps r b ok) ++ [.reg a] }

/-- Does a register of the management window take no write: MGMT_ACCESS then drops it and sets ERR (15 R439)?
Mark: DEDUCED (notes/assumptions/125.md). -/
def mgmtDrops (b : Nat) : Bool :=
  !((decide (0x10000 ≤ b ∧ b < 0x22000) || decide (0x50000 ≤ b ∧ b < 0x100000) || decide (0x100000 ≤ b ∧ b < 0x200000) ||
    decide (0x400000 ≤ b ∧ b < 0x1C00000)))

/-- What an 8-bit instruction of the test access port selects (15 R439). -/
inductive TapReg where
  /-- One bit, which every code without a meaning selects. -/
  | bypass
  /-- IDCODE and its value. -/
  | idcode (value : Nat)
  /-- The boundary scan, of SAMPLE/PRELOAD or of EXTEST. -/
  | boundary (extest : Bool)
  /-- The 97 bits of MGMT_ACCESS. -/
  | mgmtAccess
deriving DecidableEq, Repr

/-- IDCODE: the low 4 bits of STEPPING, the part, the maker and 1.
Mark: DEDUCED (notes/assumptions/125.md). -/
def State.idcode (s : State) : Nat := 2 ^ 28 * (s.cfg.stepping % 16) + 2 ^ 12 * 0x9300 + 2 * 0x2B5 + 1

/-- The register that the test access port's instruction selects; SAMPLE/PRELOAD and EXTEST are open with STRAP_TEST alone
(14 R402).
Mark: DEDUCED (notes/assumptions/125.md); PRESUMED (notes/assumptions/170.md). -/
def State.tapSelects (s : State) : TapReg :=
  match s.tapIr with
  | 0x01 => .idcode s.idcode
  | 0x02 => if bitOf s.boot.straps 8 then .boundary false else .bypass
  | 0x03 => if bitOf s.boot.straps 8 then .boundary true else .bypass
  | 0x10 => .mgmtAccess
  | _ => .bypass

/-- MGMT_ACCESS of the debug port: an access with the rights of the PF, of 4 or 8 bytes. ERR, bit 64 of what the next scan
captures, is set where the access is dropped.
Mark: DEDUCED (notes/assumptions/125.md). -/
def State.mgmtAccess (s0 : State) (a0 : RegAcc) (write : Bool) : State :=
  let s : State := { s0 with tapIr := 0x10 }
  let a : RegAcc := { a0 with who := .jtag, addr := a0.addr % 2 ^ 28, bytes := if a0.bytes = 8 then 8 else 4 }
  if write then
    let (k, s1) := s.takeFree
    { s1.regWrite a s.boot.straps (Config.flip k) with
      readData := if (basesOf (spaceOf a) a).all mgmtDrops then 2 ^ 64 else 0 }
  else s.regRead a

end Sys2Proof.Machine
end

