-- ==== Sys2Proof/Machine/Boundary.lean ====
section
/-! DEFINITION. The tick boundary (01 R17-R25): what ends with a tick, the six steps of R24, host writes, and the decisions
that the new tick begins with. -/
namespace Sys2Proof.Machine

/-! ### Fetch slots and ready lists (03 R85, R86) -/

/-- Is a ring ready for a fetch slot? -/
def State.isReady (s : State) (k : Nat) (r : Ring) : Bool :=
  r.state == .active && s.ringResident r && r.nextCi != r.sampled && !r.scanStop && r.slot.isNone && r.stall.isNone &&
    !s.resetting (keyPart k)

/-- Some numbers in an order that is free: rings that become ready together (03 R85 gives no order among them).
Mark: DESIGN CHOICE (notes/assumptions/14.md). -/
def State.anyOrder (s : State) (l : List Nat) : List Nat × State :=
  if l.length ≤ 1 then (l, s)
  else (sortBy (fun a b => decide (Config.pick (s.free + a) ≤ Config.pick (s.free + b))) l, { s with free := s.free + 16384 })

/-- The ready list of a partition loses rings that are ready no more and takes those that have become ready at its tail.
Mark: DESIGN CHOICE (notes/assumptions/14.md). -/
def State.joinReady (s : State) (p : Nat) : State :=
  let ok := fun (r : Nat) => match s.ring? (pkey p r) with | some x => s.isReady (pkey p r) x | none => false
  let cur := (s.part p).ready.filter ok
  let (new, s1) := s.anyOrder (((s.partRings p).map keyLocal).filter fun r => ok r && !cur.contains r)
  s1.adjPart p fun q => { q with ready := cur ++ new }

/-- Every ready list. -/
def State.joinAll (s : State) : State := foldS (Tbl.keys s.parts) State.joinReady s

/-- A ring at the end of a tick in which it holds a slot: the slice counts down, and the slot is released where R86 says
so. -/
def State.slotTick (s : State) (k : Nat) (r0 : Ring) : Ring :=
  if r0.slot.isNone then r0
  else
    let r : Ring := { r0 with sliceLeft := r0.sliceLeft - 1 }
    let gone : Ring := { r.dropFetch with slot := none, sliceLeft := 0, staged := none }
    if r.scanStop || r.nextCi == r.sampled then gone
    else match r.staged with
    | some st =>
      if st.since ≤ s.tick ∧ s.startOk (keyPart k) (keyLocal k) st.words = false then { gone with stall := some st.words } else r
    | none => if r.sliceLeft = 0 ∧ r.fetch = none then gone else r

/-- The condition that held a staged entry back has cleared. -/
def State.unstall (s : State) (k : Nat) (r : Ring) : Ring :=
  match r.stall with
  | some e => if s.startOk (keyPart k) (keyLocal k) e then { r with stall := none } else r
  | none => r

/-! ### Context loads (02 R62, R63) -/

/-- Loads under way. -/
def State.loading (s : State) : Nat := (s.loads.filter fun l => l.loading).length

/-- Can a load for the partition of `k` have a slot? -/
def State.canLoad (s : State) (k : Nat) : Bool :=
  decide (s.slotsUsed < Config.residentSlots) || (s.victim (keyPart k)).isSome

/-- A load begins: where no slot is free the victim is evicted. -/
def State.startLoad (s : State) (k : Nat) : State :=
  let s1 := if s.slotsUsed < Config.residentSlots then s
    else match s.victim (keyPart k) with | some v => (s.evict v).present 4 16 | none => s
  { s1.present 4 16 with loads := s1.loads.map fun l => if l.key = k then { l with loading := true } else l }

/-- A queued load in its turn: it begins, also where it waited for a victim, or waits for one and is counted, or stays
behind 16 others.
Mark: DEDUCED (notes/assumptions/26.md). -/
def State.tryLoad (s : State) (l : CtxLoad) : State :=
  if l.loading || decide (Config.loadsAtOnce ≤ s.loading) then s
  else if s.canLoad l.key then s.startLoad l.key
  else if l.waited then s
  else ({ s with loads := s.loads.map fun x => if x.key = l.key then { x with waited := true } else x } : State).adjCounts
    (keyPart l.key) fun c => { c with ctxWaits := satInc 32 c.ctxWaits }

/-- The queued loads from the `i`th on, at most `n` of them; those that an eviction queues come at the end.
Mark: DEDUCED (notes/assumptions/26.md). -/
def State.loadsFrom : Nat → Nat → State → State
  | 0, _, s => s
  | n + 1, i, s => match s.loads[i]? with
    | some l => State.loadsFrom n (i + 1) (s.tryLoad l)
    | none => s

/-- The queued loads in doorbell order.
Mark: DEDUCED (notes/assumptions/26.md). -/
def State.startLoads (s : State) : State := State.loadsFrom (s.loads.length + Config.residentSlots) 0 s

/-- A load that waits for a victim begins once one becomes available to it, and to none that waited before it.
Mark: DEDUCED (notes/assumptions/26.md). -/
def State.waitingLoad (s : State) (k : Nat) : State :=
  if s.stop.stopped || decide (Config.loadsAtOnce ≤ s.loading) then s
  else match s.loads.find? fun l => l.waited && !l.loading && s.canLoad l.key with
  | some l => if l.key = k then s.startLoad k else s
  | none => s

/-- A context's record has come in: it is in its slot from the next boundary.
Mark: DEDUCED (notes/assumptions/6.md). -/
def State.loadEnds (s : State) (k : Nat) : State :=
  if (s.loads.any fun l => l.key == k && l.loading) && !s.later.contains (.ctxLoaded k) && !s.later.contains (.ctxLost k) then
    s.defer (.ctxLoaded k)
  else s

/-- The context is resident. -/
def State.ctxLoaded (s : State) (k : Nat) : State :=
  if s.loads.any fun l => l.key == k && l.loading then
    (({ s with loads := s.loads.filter fun l => l.key != k } : State).adjCtx k fun c =>
      { c with resident := true, lastUse := s.tick }).adjCounts (keyPart k) fun c => { c with ctxLoads := satInc 32 c.ctxLoads }
  else s

/-- A boundary at which a context is busy is a use of it (02 R61).
Mark: DEDUCED (notes/assumptions/27.md). -/
def State.useBusy (s : State) : State :=
  { s with ctxs := Tbl.mapV s.ctxs fun k c => if c.resident && s.ctxBusy k then { c with lastUse := s.tick } else c }

/-! ### The end of a tick -/

/-- What ends with the tick: what Hedgerow delivered in it has arrived (01 R22), the segments that Boxwood chose in it are
on their way, slots are released, the trace of the
tick is recorded.
Mark: DEDUCED (notes/assumptions/34.md). -/
def State.endOfTick (s : State) : State :=
  let s1 := s.unlessStopped fun s =>
    foldS (Tbl.keys s.works) State.recountPatch s.parkAll.beginAll.walkAll.abortAll.dueAccesses.fillEps.dispatchGathers
  let s2 := ({ s1 with rings := Tbl.mapV s1.rings fun k r => s1.slotTick k r } : State).joinAll
  let s3 : State := { s2 with
    arb := s2.arb.endTick
    fw := { s2.fw with idle := s2.works == [] && !(s2.svc.requests.any fun r => r.2.held) } }
  s3.traceEnds.flushTrace

/-- A tick of running time has passed for everything that counts it.
Mark: DEDUCED (notes/assumptions/23.md). -/
def State.countTick (s : State) : State :=
  let s0 := s.countTeardowns
  if s.stop.stopped then { s0 with eps := Tbl.mapV s0.eps fun _ x => { x with abortAt := x.abortAt.map fun t => t + 1 } }
  else
    let s1 := ({ s0 with
      works := Tbl.mapV s0.works fun _ x => { x with ticks := x.ticks + 1 }
      rings := Tbl.mapV s0.rings fun _ r => r.retryTick } : State).watchSegs
    let waits := s1.cop.phase == .prepare || (s1.cop.phase == .drain && s1.cop.graceDone)
    s1.adjCop fun c =>
      { c with ran := if c.prev.isSome then c.ran + 1 else c.ran, waited := if waits then c.waited + 1 else c.waited }

/-- A result of background work takes effect.
Mark: DEDUCED (notes/assumptions/11.md). -/
def State.applyLater (s : State) (x : Later) : State :=
  match x with
  | .image g io img => s.imageDone g io img
  | .tableLoad u io => s.tableLoaded u io
  | .stage u io => s.stageEnded u io
  | .fill u io => s.fillEnded u io
  | .bias => s.biasLoop (s.duty 8).2
  | .ctxLost k => s.loseCtx k
  | .ctxFault k st op a => s.ctxFault k st op a
  | .fetchFault k st i a => (match s.ring? k with
    | some r => (s.faultRing k st i).ctxFault r.ctx st 0 a
    | none => s)
  | .ctxLoaded k => s.ctxLoaded k
  | .torn p => s.torn p
  | .catchup => if s.cop.phase == .catchup then s.catchupDone else s
  | .sync st => s.setSync st
  | .linkDown l un => s.linkGone l un
  | .linkUp l c n => s.linkBack l c n
  | .linkGen g => { s with cfg := { s.cfg with linkGen := g } }
  | .fwVersion v svn b => s.showVersion v svn b
  | .svcStart io => s.serviceStarts io
  | .patched => s.showPatch
  | .bringup failed => s.partsUp failed

/-- Every result that waits for this boundary.
Mark: DEDUCED (notes/assumptions/11.md). -/
def State.applyLaters (s : State) : State := foldS s.later State.applyLater { s with later := [] }

/-! ### Step 1 of R24: ends of work -/

/-- A command whose end is due completes; a DISPATCH that installs a persistent task installs it first. -/
def State.finishDue (s : State) (w : Nat) : State :=
  match s.work? w with
  | none => s
  | some x => match x.phase with
    | .decided r due =>
      if s.tick < due then s
      else if opcodeOf x.cmd = 0x02 ∧ persistOf x.cmd = true ∧ r.st = .done then (s.installTask x).finish w r
      else s.finish w r
    | _ => s

/-- The order in which ends of one boundary are applied: ring 0 by partition, then the others as they started.
Mark: DEDUCED (notes/assumptions/15.md). -/
def finishKey (e : Nat × Work) : List Nat :=
  match e.2.site with
  | .ring p 0 => [0, p, e.1]
  | _ => [1, e.1]

/-- Every command whose end is due.
Mark: DEDUCED (notes/assumptions/15.md). -/
def State.finishAll (s : State) : State :=
  foldS ((sortBy (fun a b => lexLe (finishKey a) (finishKey b)) s.works).map fun e => e.1) State.finishDue s

/-- A launch whose nodes have all ended completes. -/
def State.launchDue (s : State) (l : Nat) : State :=
  match s.launch? l with
  | some y => (match y.endAt with | some t => if t ≤ s.tick then s.endLaunch l else s | none => s)
  | none => s

/-- Step 1: the endpoints' messages, then the ends that were decided in the last tick, and of launches. -/
def State.step1 (s : State) : State :=
  let s1 := (s.applyMsgs.finishAll).settleFeeds
  foldS (Tbl.keys s1.launches) State.launchDue s1

/-! ### Steps 2 and 3: fences (01 R24; 06 R178, R191) -/

/-- Is a host write to a window dropped, because its partition is or is to be torn down (02 R57)?
Mark: DEDUCED (notes/assumptions/19.md). -/
def State.tornAway (s : State) (tears : List Nat) (p : Nat) : Bool := s.resetting p || tears.contains p

/-- Count a doorbell or fence write that a teardown drops.
Mark: DEDUCED (notes/assumptions/19.md). -/
def State.countDropped (s : State) (p : Nat) : State := s.adjCounts p fun c => { c with dropped := satInc 32 c.dropped }

/-- A host signal of a fence that the partition may signal; none is FAIL. -/
def State.hostSignal (s : State) (p f : Nat) (v : Option Nat) : State :=
  let k := pkey p f
  if !s.fenceLive p f || !s.maySignal p f || (s.fenceView k).2 then s.countDrop p
  else s.signalNow k v

/-- A host write to MH_FENCE_VAL takes effect.
Mark: DEDUCED (notes/assumptions/10.md). -/
def State.hostVal (tears : List Nat) (s : State) (o : HostOp) : State :=
  match o with
  | .fenceVal p f v full =>
    if s.tornAway tears p then s.countDropped p else if full then s.hostSignal p f (some v) else s.countDrop p
  | _ => s

/-- A host write of 1 to MH_FENCE_STAT.FAIL takes effect.
Mark: DEDUCED (notes/assumptions/10, 21.md). -/
def State.hostFail (tears : List Nat) (s : State) (o : HostOp) : State :=
  match o with
  | .fenceFail p f => if s.tornAway tears p then s.countDropped p else s.hostSignal p f none
  | .fenceIdle p => if s.tornAway tears p then s.countDropped p else s
  | _ => s

/-- The tick in which the entry that a command belongs to started, a service launch among them (05 R349). -/
def State.entryStart (s : State) (w : Nat) : Nat :=
  match (s.rootWork (Config.nesting + 2) w).bind fun r => s.work? r with
  | some x => x.started
  | none => match s.work? w with
    | some x => (match x.site with
      | .node l _ => (match s.launch? (s.rootLaunch (Config.nesting + 2) l) with | some y => y.started | none => 0)
      | _ => 0)
    | none => 0

/-- The FENCE_SIGNAL commands of a boundary in the order of 04 R144; `fail` selects mode FAIL.
Mark: DEDUCED (notes/assumptions/48.md). -/
def State.signalsDue (s : State) (fail : Bool) : List Nat :=
  let due := s.works.filter fun e => match e.2.phase with
    | .signal t => decide (t ≤ s.tick) && (sigMode e.2.cmd == 2) == fail
    | _ => false
  (sortBy (fun a b => lexLe [s.entryStart a.1, a.2.ringNo, a.1] [s.entryStart b.1, b.2.ringNo, b.1]) due).map fun e => e.1

/-- Changes of mirrors that are due (06 R190). -/
def State.applyMirrors (s : State) (fail : Bool) : State :=
  let due := fun (m : Nat × Nat × Option Nat) => decide (m.1 ≤ s.tick) && m.2.2.isNone == fail
  foldS (s.mirrors.filter due) (fun s m => match m.2.2 with
    | some v => s.applyMax (keyPart m.2.1) m.2.1 v
    | none => s.markRecord m.2.1) { s with mirrors := s.mirrors.filter fun m => !due m }

/-- The signals of a source that are due; those of Mahorn's own work in ascending chip-wide number.
Mark: DEDUCED (notes/assumptions/48.md). -/
def State.applySigs (s : State) (src : SigSrc) (fail : Bool) : State :=
  let due := fun (x : PendSig) => x.src == src && x.value.isNone == fail
  let no := fun (x : PendSig) => (match s.fence? x.fence with | some f => f.no | none => 0 : Nat)
  let l := s.sigs.filter due
  foldS (if src = .own then sortBy (fun (a b : PendSig) => decide (no a ≤ no b)) l else l) (fun s x => s.signalNow x.fence x.value)
    { s with sigs := s.sigs.filter fun x => !due x }

/-- Step 2: host writes, commands, Mahorn's own reports, peer flits. -/
def State.step2 (s : State) (tears : List Nat) (ops : List HostOp) : State :=
  let s1 := foldS ops (State.hostVal tears) s
  let s2 := (foldS (s1.signalsDue false) State.applySignal s1).applyMirrors false
  ((s2.applySigs .message false).applySigs .own false).applyFlits (fun k => k == 0x10) false State.applyFenceFlit

/-- Step 3: marks of fences as FAILED, from the same sources, and those that completions of this boundary call for. -/
def State.step3 (s : State) (tears : List Nat) (ops : List HostOp) : State :=
  let s1 := foldS ops (State.hostFail tears) s
  let s2 := (foldS (s1.signalsDue true) State.applySignal s1).applyMirrors true
  let s3 := s2.applySigs .own true
  let s4 := foldS s3.marks State.applyMark { s3 with marks := [] }
  s4.applyFlits (fun k => k == 0x11) false State.applyFenceFlit

/-! ### Errors of the memory system (11 R329) -/

/-- An error that no command's access reports. The device address of a fence record or a list entry is not stated: a free
value.
Mark: DEDUCED (notes/assumptions/17.md); DESIGN CHOICE (notes/assumptions/18.md). -/
def State.memError (s : State) (e : MemErr) : State :=
  match e with
  | .corrected n => s.adjFlt fun x => { x with ce := (x.ce + n) % Config.two64 }
  | .fence p f =>
    if (s.fence? (pkey p f)).isNone then s
    else (({ s with free := s.free + 1 } : State).ownError p (Config.word s.free).toNat).mark (.record (pkey p f))
  | .listed p f =>
    let k := s.homeOf (pkey p f)
    if s.listed.any fun x => x.fence == k then
      let s1 := ({ s with free := s.free + 1 } : State).countUe 1
      foldS (s.waiters k) (fun s w =>
        s.decideEnd w { Res.of .memDetected 0x02E1 with addr := some (Config.word (s1.free - 1)).toNat }) s1
    else s
  | .cacheLine n => (match s.marshal.lines[n]? with
    | some _ => ((s.adjMarshal fun m => { m with lines := m.lines.eraseIdx n }).countUe 1).adjFlt fun x =>
        { x with ce := (x.ce + 1) % Config.two64 }
    | none => s)
  | .mapSector p t n => (match s.tableOf p t with
    | some u => s.adjMarshal fun m => { m with badMap := m.badMap ++ [(u, n)] }
    | none => s)
  | .idxSector a => s.adjMarshal fun m => { m with badIdx := m.badIdx ++ [a / 64] }

/-- The errors that the memory system reports at a boundary; those of the last tick are over.
Mark: DEDUCED (notes/assumptions/17.md). -/
def State.memErrors (s : State) (errs : List MemErr) : State :=
  foldS errs State.memError (s.adjMarshal fun m => { m with badMap := [], badIdx := [] })

/-! ### Step 4: epochs (08 R247-R255) -/

/-- Does the epoch flip at this boundary: by Coppice's schedule, or by a FLIP flit? -/
def State.flipsNow (s : State) : Bool :=
  s.cop.flipDue || (s.cop.phase == .prepare && (s.dueFlits (fun k => k == 0x30) false).any fun f =>
    epochOpOf f == 4 && bitsOf f.w0.toNat 0 32 == s.epoch)

/-- In a domain of one chip a request enters PREPARE at the boundary after it was made (08 R254). -/
def State.soleStep (s : State) : State :=
  if s.soleDomain && s.epochDuty && s.cop.phase == .opening then
    match s.cop.request with
    | some t => if t < s.tick then s.enterPrepare else s
    | none => s
  else s

/-- Step 4: a scheduled flip, the flits of the epoch protocol, and cancelled exchanges. -/
def State.step4 (s : State) : State :=
  let s1 := (if s.cop.flipDue then s.flip else s).soleStep
  (s1.applyFlits (fun k => k == 0x30) false State.applyEpochFlit).applyFlits (fun k => k == 0x40) false State.applyCollective

/-! ### Step 5: aborts and teardowns (07 R219-R225) -/

/-- Step 5: fencings, ABORT commands, teardowns, the emergency level, and the aborts that were decided. -/
def State.step5 (s : State) (un : List (Nat × Nat × Nat)) (tears : List HostOp) : State :=
  let s1 := s.takeFencings.fireAborts
  ((foldS tears (fun s o => s.tearOp un o) s1).applyLevel).applyAborts

/-- The five steps of a boundary outside a stop. -/
def State.steps (s : State) (un : List (Nat × Nat × Nat)) (tearing : List Nat) (ops : List HostOp) : State :=
  let tears := ops.filter fun o => o.tears.isSome
  let ps := (tears.filterMap HostOp.tears).filter s.isUp ++ tearing
  let s1 := s.step1
  let s2 := if s1.flipsNow then s1.flipFences else s1
  (((s2.step2 ps ops).step3 ps ops).step4).step5 un tears

/-! ### Host writes after the six steps (01 R23; 03 R90) -/

/-- Is it a write to a partition window? -/
def HostOp.window : HostOp → Bool
  | .pi _ _ _ => true
  | .doorbell _ _ => true
  | .stateCmd _ _ _ => true
  | .clearRejected _ _ => true
  | .clearFault _ _ => true
  | .clearPartFault _ => true
  | .fenceVal _ _ _ _ => true
  | .fenceFail _ _ => true
  | .fenceIdle _ => true
  | .reg a => (match spaceOf a with | .win _ _ => true | _ => false)
  | _ => false

/-- Is it a clear of a context's fault state?
Mark: DEDUCED (notes/assumptions/10.md). -/
def HostOp.clears : HostOp → Bool
  | .clearFault _ _ => true
  | _ => false

/-- Is it a ring state command? -/
def HostOp.commands : HostOp → Bool
  | .stateCmd _ _ _ => true
  | _ => false

/-- A ring state command takes effect: 1 ENABLE, 2 DISABLE, 3 RESUME (03 R89). -/
def State.ringCommand (s : State) (un : List (Nat × Nat × Nat)) (p r cmd : Nat) : State :=
  match cmd with
  | 1 => s.enableRing (pkey p r)
  | 2 => s.disableRing (pkey p r)
  | 3 => s.resumeRing (failsAt un (pkey p r)) (pkey p r)
  | _ => s

/-- A host write takes effect, but for those of steps 2, 3 and 5. A partition that is being torn down drops what its window
takes for rings.
Mark: DEDUCED (notes/assumptions/10.md). -/
def State.hostOp1 (s : State) (un : List (Nat × Nat × Nat)) (o : HostOp) : State :=
  match o with
  | .pi p r v => if s.resetting p then s else s.adjRing (pkey p r) fun x => x.writePi v
  | .doorbell p r => if s.resetting p then s.countDropped p else s.doorbell (pkey p r)
  | .stateCmd p r c => if s.resetting p then s else s.ringCommand un p r c
  | .clearRejected p r => if s.resetting p then s else s.adjRing (pkey p r) fun x => { x with rejected := false }
  | .clearFault p c => s.adjCtx (pkey p c) fun x => { x with faulted := false, faultStatus := 0, faultCount := 0 }
  | .clearPartFault p => s.adjPart p fun q => { q with fault := false }
  | .enable p => s.enablePart p
  | .vf p true => s.vfOn p
  | .reg a => s.applyReg a
  | .fwStage ok => s.fwCommand 1 ok
  | .pldm body ok => s.pldmOp body ok
  | _ => s

/-- The partition whose ring registers a host write reaches. -/
def HostOp.ringPart : HostOp → Option Nat
  | .pi p _ _ => some p
  | .doorbell p _ => some p
  | .stateCmd p _ _ => some p
  | .clearRejected p _ => some p
  | _ => none

/-- The partition whose rings or fence page a host write reaches. -/
def HostOp.pagePart : HostOp → Option Nat
  | .fenceVal p _ _ _ => some p
  | .fenceFail p _ => some p
  | .fenceIdle p => some p
  | o => o.ringPart

/-- Is it counted where it is dropped (02 R57)? -/
def HostOp.counted : HostOp → Bool
  | .doorbell _ _ => true
  | .fenceVal _ _ _ _ => true
  | .fenceFail _ _ => true
  | .fenceIdle _ => true
  | _ => false

/-- A host write that reached the window of partition `p` while `p` was being torn down is dropped, whether or not the teardown
has ended at this boundary; any other does what `act` says (02 R57).
Mark: DEDUCED (notes/assumptions/19.md). -/
def State.unlessTearing (s : State) (tearing : List Nat) (p : Option Nat) (o : HostOp) (act : State → State) : State :=
  match p with
  | some p => if tearing.contains p then (if o.counted then s.countDropped p else s) else act s
  | none => act s

/-- A host write after the six steps; those to a fence page were steps 2 and 3. -/
def State.hostOpLate (s : State) (un : List (Nat × Nat × Nat)) (tearing : List Nat) (o : HostOp) : State :=
  s.unlessTearing tearing o.ringPart o fun s => s.hostOp1 un o

/-- A host write at the boundary of a stop, or during one: the management window acts as usual, a partition window's
writes are held, and a teardown waits for the end of the stop. `cut` is the boundary of the stop itself, at which only ring
state commands are held (11 R343); the fence writes of its tick were steps 2 and 3.
Mark: DEDUCED (notes/assumptions/84.md). -/
def State.hostOpStopped (s : State) (un : List (Nat × Nat × Nat)) (tearing : List Nat) (cut : Bool) (o : HostOp) : State :=
  if o.tears.isSome then (if cut then s else { s with hostOps := s.hostOps ++ [o] })
  else s.unlessTearing tearing (if cut then o.ringPart else o.pagePart) o fun s =>
    if (if cut then o.commands else o.window) then s.holdWrite o else s.hostOp1 un o

/-! ### The end of a stop (11 R344) -/

/-- What was held during a stop is applied in the steps of R24: flits by tick, then host writes but for ring state commands,
then fencings.
Mark: DEDUCED (notes/assumptions/48, 84.md). -/
def State.applyHeld (s : State) (un : List (Nat × Nat × Nat)) : State :=
  let held := s.stop.held
  let s0 := s.adjStop fun x => { x with held := x.held.filter HostOp.commands }
  let s1 := if s0.flipsNow then s0.flipFences else s0
  let s2 := s1.applyFlits (fun k => k == 0x10) true State.applyFenceFlit
  let s3 := (foldS held (State.hostVal []) s2).applyFlits (fun k => k == 0x11) true State.applyFenceFlit
  let s4 := foldS held (State.hostFail []) s3
  let s5 := (s4.applyFlits (fun k => k == 0x30) true State.applyEpochFlit).applyFlits (fun k => k == 0x40) true State.applyCollective
  foldS (held.filter fun o => !o.commands) (fun s o => s.hostOp1 un o) s5.takeFencings

/-- The held ring state commands.
Mark: DEDUCED (notes/assumptions/84.md). -/
def State.applyHeldCommands (s : State) (un : List (Nat × Nat × Nat)) : State :=
  foldS s.stop.held (fun s o => s.hostOp1 un o) (s.adjStop fun x => { x with held := [] })

/-- A stop ends at this boundary, before step 1.
Mark: DEDUCED (notes/assumptions/84.md). -/
def State.endStop (s : State) (un : List (Nat × Nat × Nat)) : State :=
  if s.endsStop then
    let foreign := s.stop.last.scope != 0 && s.stop.last.origin != s.fab.chip
    let s1 := (((s.leaveStop.applyHeld un).unstopRings).applyHeldCommands un)
    if foreign then s1.noteApplied else s1
  else s

/-- Is this the boundary at which an ABANDON ends a stop? -/
def State.abandons (s : State) : Bool :=
  s.endsStop && (match s.stop.endAt with | some u => u.2 | none => false)

/-! ### The decisions of the tick (01 R25) -/

/-- Quickset samples the rings that wait for it (03 R79). -/
def State.sampleRings (s : State) : State :=
  foldS ((s.rings.filter fun e => e.2.wantSample && e.2.state == .active).map fun e => e.1) State.sampleOrLoad s

/-- The fences of waits that their first check did not end are placed (06 R180). -/
def State.placeWaits (s : State) : State :=
  foldS s.works (fun s e => match e.2.phase with
    | .fenceWait h t false =>
      if e.2.started < s.tick then
        (s.placeWait h).adjWork e.1 fun x => { x with phase := .fenceWait h t true, waitOn := some h }
      else s
    | _ => s) s

/-- Listed fences that changed at this boundary are noted (06 R181).
Mark: DEDUCED (notes/assumptions/22.md). -/
def State.noteListed (s : State) : State :=
  { s with listed := s.listed.map fun x =>
      match s.fence? x.fence with
      | some f => if f.changed ∧ x.changed = none then { x with changed := some s.tick } else x
      | none => x }

/-- Waits find their places at every boundary, those of a stop among them (06 R180, R182; 11 R343). -/
def State.placing (s : State) : State := s.placeWaits.noteListed.placeWatches

/-- The waiters of the watched fences that changed at this boundary, or were promoted, are checked (06 R181, R182). -/
def State.checkWatched (s : State) : State :=
  foldS (s.watch.filter fun h => match s.fence? h with | some f => f.changed | none => false) (fun s h =>
    foldS (s.waiters h) State.waitCheck s) s

/-- The changes of this boundary have been looked at. -/
def State.clearChanged (s : State) : State :=
  { s with fences := Tbl.mapV s.fences fun _ f => { f with changed := false } }

/-- A command whose predicate is to be evaluated from this tick on resumes in its turn (04 R113; 13 R379). -/
def State.evalTurn (s : State) (w : Nat) : State :=
  match s.work? w with
  | none => s
  | some x =>
    let due := match x.phase with
      | .predDue t => decide (t ≤ s.tick)
      | .predVal _ t => decide (t ≤ s.tick)
      | _ => false
    if due && x.abort.isNone then s.withSeqr w fun s => s.evalPred w else s

/-- The decisions that begin with the tick. -/
def State.decisions (s : State) : State :=
  let s1 := s.sampleRings.startLoads.takeDescs.admission.responses.progress
  let s2 := ((s1.sendUpdates s.tick).placing.checkWatched).clearChanged.dropDrained
  let s3 := foldS (Tbl.keys s2.works) State.evalTurn s2
  let s4 := ({ s3 with rings := Tbl.mapV s3.rings fun k r => s3.unstall k r } : State).joinAll
  let s5 := s4.grantSlots s4.schDown
  if s5.epochDuty then s5.epochFlits else s5

/-! ### The boundary -/

/-- The rings whose completions are posted at a boundary. -/
def State.postAll (s : State) (un : List (Nat × Nat × Nat)) : State :=
  foldS (Tbl.keys s.rings) (fun s k =>
    if s.resetting (keyPart k) then s else s.postRing un k) s

/-- CI passes the entries that started in the last tick (03 R81). -/
def State.advanceCi (s : State) : State := { s with rings := Tbl.mapV s.rings fun _ r => { r with ci := r.nextCi } }

/-- The drops of every ring as the tick that begins finds them (03 R105). -/
def State.noteDrops (s : State) : State := { s with rings := Tbl.mapV s.rings fun _ r => { r with dropsWas := r.dropsWord } }

/-- Clears of fault states come before the faults of their tick (02 R65). Those of a stop wait for its end. -/
def State.applyClears (s : State) (un : List (Nat × Nat × Nat)) : State :=
  if s.stop.stopped && !s.endsStop then s
  else
    let s1 := foldS ((s.stop.held ++ s.hostOps).filter HostOp.clears) (fun s o => s.hostOp1 un o) s
    ({ s1 with hostOps := s1.hostOps.filter fun o => !o.clears } : State).adjStop fun x =>
      { x with held := x.held.filter fun o => !o.clears }

/-- Everything of a boundary that is not a reset.
Mark: DEDUCED (notes/assumptions/10, 11.md). -/
def State.boundary (s0 : State) (un : List (Nat × Nat × Nat)) (errs : List MemErr) : State :=
  let tearing := (Tbl.keys s0.parts).filter s0.resetting
  let held := s0.adjStop fun x => { x with gone := true }
  let s := ((((held.calEdge.traceBoundary).bootStep).applyClears un).applyLaters).memErrors errs
  let s1 := s.openGates.endClamp.noteCalm.advanceCi.runActivation
  let drop := s1.abandons
  let s2 := s1.endStop un
  let ops := s2.hostOps
  let was := s2.stop.stopped
  let s3 : State := { s2 with hostOps := [] }
  let s4 := if was then s3.applyLevel
    else foldS (Tbl.keys s3.rings) State.blockRing (s3.steps un tearing ops)
  let s5 := s4.applyStop.dropDue fun k => k == 0x20 || k == 0x21
  let foreign := !was && s5.stop.stopped && s5.stop.last.reason == 4
  let s6 := (if foreign then s5.noteApplied else s5).postAll un
  let s7 := (s6.adjStop fun x => { x with gone := false }).sendStops
  let s8 := foldS ops (fun s o => if s5.stop.stopped then s.hostOpStopped un tearing (!was) o else s.hostOpLate un tearing o) s7
  let s9 := (s8.regrant s7.trace).coalesce s8.tick
  let s10 := (if s9.stop.stopped then s9.placing.dropDrained
    else if drop then s9.decisions.abandonEntries else s9.decisions).useBusy
  let s11 := s10.noteDrops.takeLatches
  { s11 with shownWarm := s11.warmWord }

/-- The FTC at the end of a tick: the next multiple of 64 ns (01 R24).
Mark: DEDUCED (notes/assumptions/106.md). -/
def State.nextFtc (s : State) : Nat := (s.ftc / 64 * 64 + 64) % Config.two64

/-- TICK_BOUNDARY: the tick ends, the FTC reaches the next multiple of 64 ns, a reset that a register asked for begins or the
boundary is carried out. Once partitions are up nothing but the tick itself moves the FTC (01 R27, R29). -/
def State.tickBoundary (s0 : State) (un : List (Nat × Nat × Nat)) (errs : List MemErr) : State :=
  let s := (s0.endOfTick.adjFab fun x => { x with ftc := s0.nextFtc }).countTick
  match s0.boot.due with
  | some (kind, straps) => s.dueReset kind straps
  | none =>
    let t := ({ s with accepted := [], ran := [], once := [] } : State).boundary un errs
    if s0.booting then t else t.adjFab fun x => { x with ftc := s0.nextFtc }

end Sys2Proof.Machine
end

