-- ==== Sys2Proof/Machine/Events.lean ====
section
/-! DEFINITION. Events that come between boundaries: timed work of the fence store, Coppice and the bias loop, the ends of
background work, interrupt masks and ATS, the network side of the service, and register writes that have a row of their own.
An event whose conditions do not hold has no effect (notes/assumptions/6.md). -/
namespace Sys2Proof.Machine

/-! ### Fences (06 R181, R190; 01 R20) -/

/-- Something that happens once in a tick at most: `k` tells which (1 poll, 2 refresh, 3 time exchange).
Mark: DEDUCED (notes/assumptions/6, 47.md). -/
def State.onceInTick (s : State) (k : Nat) (f : State → State) : State :=
  if s.once.contains k then s else { f s with once := k :: s.once }

/-- The refresh of every remote export, in every 16,384th tick.
Mark: DEDUCED (notes/assumptions/47.md). -/
def State.refreshDue (s : State) : State :=
  if s.stop.stopped || s.tick % 16384 != 0 then s else s.onceInTick 2 State.refreshExports

/-- Place of a changed listed fence in the order of the poll.
Mark: DEDUCED (notes/assumptions/22.md). -/
def State.pollKey (s : State) (x : Listed) : List Nat :=
  [x.changed.getD 0, match s.fence? x.fence with | some f => f.no | none => 0]

/-- The fences that a poll tick takes: at most 256 of those that have changed.
Mark: DEDUCED (notes/assumptions/22.md). -/
def State.polled (s : State) : List Nat :=
  ((sortBy (fun a b => lexLe (s.pollKey a) (s.pollKey b)) (s.listed.filter fun x => x.changed.isSome)).take 256).map
    fun x => x.fence

/-- The poll of the overflow list, in every sixteenth tick.
Mark: DEDUCED (notes/assumptions/47.md). -/
def State.pollOverflow (s : State) : State :=
  if s.stop.stopped || s.tick % 16 != 0 then s
  else s.onceInTick 1 fun s =>
    let ks := s.polled
    let s1 := foldS ks (fun s k => foldS (s.waiters k) State.waitCheck (s.present 4 1)) s
    { s1 with listed := s1.listed.map fun x => if ks.contains x.fence then { x with changed := none } else x }

/-- A FENCE_SIGNAL message: MAX at the next boundary. The sender is on this chip, so the fence is too.
Mark: DEDUCED (notes/assumptions/41.md). -/
def State.fenceMessage (s : State) (p f v : Nat) : State :=
  let k := pkey p f
  if s.fenceLive p f && s.maySignal p f && !s.isRemote k && !s.stop.stopped then
    { s with sigs := s.sigs ++ [{ src := .message, fence := k, value := some (v % Config.two64) }] }
  else s

/-! ### Interrupt masks (07 R210) -/

/-- Vectors of a partition. -/
def vectors : Nat := 256

/-- A mask is set: of one vector, or of the function. -/
def State.maskVec (s : State) (p : Nat) (v : Option Nat) : State :=
  if Config.partitions ≤ p then s
  else match v with
  | some v => if v < vectors then s.adjVec p v fun x => { x with masked := true } else s
  | none => s.adjPart p fun q => { q with funcMask := true }

/-- A mask is cleared, and messages that were pending go out. -/
def State.unmaskVec (s : State) (p : Nat) (v : Option Nat) : State :=
  if Config.partitions ≤ p then s
  else match v with
  | some v => if v < vectors then (s.adjVec p v fun x => { x with masked := false }).unmask p v else s
  | none =>
    let s1 := s.adjPart p fun q => { q with funcMask := false }
    foldS (Tbl.keys (s1.part p).vecs) (fun s v => s.unmask p v) s1

/-! ### Translations (02 R55) -/

/-- Does an access of `n` bytes at a place reach a host page?
Mark: DEDUCED (notes/assumptions/24.md). -/
def Loc.onPage (l : Loc) (n page : Nat) : Bool :=
  match l with
  | .host a => decide (a / 4096 ≤ page) && decide (page ≤ (a + n - 1) / 4096)
  | .dev _ _ => false

/-- May a segment use the translation of a page for a context? A COPY uses those of its two ranges; which pages other work
uses is not known, so every page of a context with host access counts.
Mark: DEDUCED (notes/assumptions/25.md). -/
def State.segUses (s : State) (k page : Nat) (o : SegOwner) : Bool :=
  match o with
  | .work w _ => (match s.work? w with
    | some x => x.ck == k && (if opcodeOf x.cmd = 0x0B then x.locs.any fun l => l.onPage (copyBytes x.cmd) page
                              else s.hostAccess k)
    | none => false)
  | .task t _ => (match s.task? t with | some y => y.ctx == k && s.hostAccess k | none => false)
  | .gather n => (match Tbl.get? s.marshal.segs n with
    | some g => s.hostAccess k && g.users.any fun u => match s.work? u.1 with | some x => x.ck == k | none => false
    | none => false)

/-- Does any segment use a translation that was dropped in tick `n`? One that was dispatched later cannot.
Mark: DEDUCED (notes/assumptions/25.md). -/
def State.pageUsed (s : State) (k page n : Nat) : Bool :=
  s.eps.any fun e => match e.2.seg with | some g => decide (g.from_ ≤ n) && s.segUses k page g.owner | none => false

/-- An invalidation request arrives: the translation is dropped, and answered at once where no segment uses it.
Mark: DEDUCED (notes/assumptions/25.md). -/
def State.atsInvalidate (s : State) (p c page : Nat) : State :=
  let k := pkey p c
  if !s.atsOn || (s.ctx? k).isNone then s
  else
    let s1 : State := { s with transl := s.transl.filter fun t => !(t.ctx == k && t.page == page && !t.closing) }
    if s1.pageUsed k page s.tick then
      { s1 with transl := s1.transl ++ [{ ctx := k, page := page, closing := true, at_ := s.tick }] }
    else s1.send (.atsDone p c page)

/-- The answer goes out once the last segment that uses the translation has ended. -/
def State.atsAnswer (s : State) (p c page : Nat) : State :=
  let k := pkey p c
  match s.transl.find? fun t => t.ctx == k && t.page == page && t.closing && !s.pageUsed k page t.at_ with
  | some t => ({ s with transl := s.transl.erase t } : State).send (.atsDone p c page)
  | none => s

/-- The host enables or disables ATS; disabled, Mahorn caches no translation.
Mark: DEDUCED (notes/assumptions/25.md). -/
def State.atsEnable (s : State) (on : Bool) : State :=
  { s with atsOn := on, transl := if on then s.transl else s.transl.filter fun t => t.closing }

/-! ### Child launches (05 R172) -/

/-- The reservation that a waiting call asks for would be granted now. -/
def State.reserveFits (s : State) (x : Work) (g : Nat) : Bool :=
  match s.graphOf x.part g with
  | some u => (match s.graph? u with | some y => s.slotsFree x.part (1 + y.window) | none => false)
  | none => false

/-- Does a call that waits for a reservation come before work `w` and fit now? -/
def State.reserveBefore (s : State) (w : Nat) (e : Nat × Work) : Bool :=
  match s.work? w, e.2.phase with
  | some x, .reserve g _ =>
    !lexLe [x.released, w] [e.2.released, e.1] && decide (e.2.released < s.tick) && s.reserveFits e.2 g
  | _, _ => false

/-- A waiting call is tried again in a later tick, in the order in which the calling nodes were released. -/
def State.childReserved (s : State) (w : Nat) : State :=
  match s.work? w with
  | some x => (match x.phase with
    | .reserve g c =>
      if s.stop.stopped || decide (s.tick ≤ x.released) || s.works.any (s.reserveBefore w) then s
      else s.withSeqr w fun s => s.tryChild w g c
    | _ => s)
  | none => s

/-! ### Background work that ends (05 R157; 08 R258, R260, R247) -/

/-- Topiary has read an image. -/
def State.imageReadEnds (s : State) (io : Io) : State :=
  if s.stop.stopped || s.imageReads == [] || s.later.any Later.isImage then s
  else (s.noteIo io).defer (.image s.headGraph io (s.headImage))

/-- The creation work of a table ends. -/
def State.tableLoadEnds (s : State) (p t : Nat) (io : Io) : State :=
  match s.tableOf p t with
  | none => s
  | some u => match s.table? u with
    | none => s
    | some x =>
      if s.stop.stopped || x.state != .loading || s.later.any (Later.isLoadOf u)
      then s
      else (s.noteIo io).defer (.tableLoad u io)

/-- The stage at the head of a table's queue ends. -/
def State.tableStageEnds (s : State) (p t : Nat) (io : Io) : State :=
  match s.tableOf p t with
  | none => s
  | some u => match s.table? u with
    | none => s
    | some x =>
      if s.stop.stopped || x.stages == [] || s.later.any (Later.isStageOf u) then s
      else (s.noteIo io).defer (.stage u io)

/-- In OPEN the fill of a set ends.
Mark: DEDUCED (notes/assumptions/73.md). -/
def State.fillEnds (s : State) (io : Io) : State :=
  match s.filling with
  | none => s
  | some u =>
    if s.stop.stopped || !s.epochDuty || s.cop.phase != .opening ||
      s.later.any (Later.isFillOf u) then s
    else (s.noteIo io).defer (.fill u io)

/-! ### The epoch cycle (08 R247-R254) -/

/-- The carried sets that are not filled yet, in commit order.
Mark: DEDUCED (notes/assumptions/73.md). -/
def State.unfilled (s : State) : List Nat :=
  (s.committedSets.filter fun c => c.2.carried && !c.2.filled).map fun c => c.1

/-- The carried fills are done: in a domain of one chip the flip is scheduled for the next boundary, else READY is due. -/
def State.scheduleFlip (s : State) : State :=
  if s.soleDomain then s.adjCop fun c => { c with flipDue := true } else s.adjCop fun c => { c with readyDue := true }

/-- In PREPARE Coppice completes the fills of the carried sets, or one of them fails and is dropped.
Mark: DEDUCED (notes/assumptions/73.md). -/
def State.carriedFillEnds (s : State) (io : Io) : State :=
  if s.stop.stopped || !s.epochDuty || s.cop.phase != .prepare || s.cop.flipDue || s.cop.readyDue then s
  else match io with
  | .ok _ => (foldS s.unfilled State.fillSet s).scheduleFlip
  | .fail why a => match s.filling with
    | none => s
    | some u =>
      let s1 := (s.noteFail why).dropSet u why a
      if s1.unfilled = [] then s1.scheduleFlip else s1

/-- No pin on the previous epoch remains: it is retired, or in a domain of several chips CLEAR goes to the coordinator, and
it is retired after RETIRE. -/
def State.retirePrevious (s : State) : State :=
  match s.cop.prev with
  | none => s
  | some e =>
    if s.stop.stopped || s.cop.phase != .drain || s.epochPins e != 0 || !s.epochDuty then s
    else if s.soleDomain || s.cop.retireDue then s.retire
    else if s.cop.clearSent || s.fab.sync != .locked then s
    else (s.toCoordinator 5).adjCop fun c => { c with clearSent := true }

/-- What is aborted for a holder of an epoch: an entry of a ring, or the launch of a request.
Mark: DEDUCED (notes/assumptions/57.md). -/
def State.holders (s : State) (e : Nat) : List AbortTo :=
  ((s.works.filter fun x => x.2.epochPin == some e).map fun x => AbortTo.work x.1) ++
    s.svc.requests.filterMap fun r => match r.2.st with | .launched l _ e' => if e' = e then some (.launch l) else none | _ => none

/-- The grace period has run out: every entry that holds a pin on the previous epoch is aborted urgently.
Mark: DEDUCED (notes/assumptions/57.md). -/
def State.graceExpires (s : State) : State :=
  match s.cop.prev with
  | none => s
  | some e =>
    if s.stop.stopped || s.cop.graceDone || decide (s.cop.ran * 64 < s.cop.graceMs * 1000000) then s
    else
      let hs := s.holders e
      (foldS hs (fun s h => s.decideAbort h .epochExpired 0x02AD true) s).adjCop fun c =>
        { c with graceDone := true, expired := c.expired || hs != [],
                 expiredCount := min Config.max32 (c.expiredCount + hs.length), waited := 0 }

/-- Catch-up is done: it ends at the next boundary (01 R19; 08 R247). -/
def State.catchupEnds (s : State) : State :=
  if s.stop.stopped || !s.epochDuty || s.cop.phase != .catchup then s else s.defer .catchup

/-- FLIP_WAIT_MS has passed at the coordinator: CANCEL while READY is missing, RETIRE while CLEAR is.
Mark: DEDUCED (notes/assumptions/72.md). -/
def State.flipWaitExpires (s : State) : State :=
  if s.stop.stopped || !s.epochDuty || s.soleDomain || !s.coordinates || s.fab.sync != .locked ||
    decide (s.cop.waited * 64 < s.cop.flipWaitMs * 1000000) then s
  else match s.cop.phase with
  | .prepare => if s.cop.requestSent && !s.cop.flipSent then (s.sendDomain 7).adjCop fun c => { c with waited := 0 } else s
  | .drain =>
    if s.cop.graceDone && !s.cop.retireDue then (s.sendDomain 6).adjCop fun c => { c with waited := 0, clearFrom := [] } else s
  | _ => s

/-! ### The marshal and the bias loop (08 R235, R239; 09 R284) -/

/-- The open batch closes. -/
def State.batchCloses (s : State) : State := s.unlessStopped State.closeBatch

/-- When the current bias period ends, in ns since the reset. -/
def State.biasEnd (s : State) : Nat := s.pleach.lastPeriod + s.pleach.periodUs * 1000

/-- A bias period ends within this tick: the new vectors are published at the next boundary.
Mark: DEDUCED (notes/assumptions/74.md). -/
def State.biasPeriodEnds (s : State) : State :=
  if s.pleach.periodUs = 0 ∨ s.sinceReset + 63 < s.biasEnd then s
  else (s.adjPleach fun q => { q with lastPeriod := s.biasEnd }).defer .bias

/-! ### The network side of the service (10 R312, R326) -/

/-- An NX engine posts a receive descriptor for a slot that it has from the listener's receive queue.
Mark: DEDUCED (notes/assumptions/77.md). -/
def State.postDesc (s : State) (d : RxDesc) : State :=
  let stocked := match s.listenerFor d.nx d.qpn with
    | some (_, l) => l.stock.contains d.slot && s.svc.descs.all fun x => !(x.nx == d.nx && x.slot == d.slot && x.qpn == d.qpn)
    | none => true
  if 2 ≤ d.nx ∨ stocked = false then s else s.adjSvc fun v => { v with descs := v.descs ++ [d] }

/-- A message arrives while its listener has no free slot: an RNR NAK, which is counted. Which of the stocked slots are being
filled Mahorn sees from their descriptors only, so the NX engine's word for it stands.
Mark: DEDUCED (notes/assumptions/77.md). -/
def State.rnrNak (s : State) (l : Nat) : State :=
  if (Tbl.get? s.svc.listeners l).isSome then (s.adjList l fun c => { c with noslot := satInc 32 c.noslot }).send (.rnr l) else s

/-- A kernel descriptor arrives: of the DISPATCH of an entry, or of a node that waits for its release. -/
def State.descriptorArrives (s : State) (l i w : Nat) (io : Io) : State :=
  match s.work? w with
  | some x => if x.phase = .descriptor then s.descriptorRead w io else s.nodeDescriptor l i io
  | none => s.nodeDescriptor l i io

/-- The read of a predicate's location returns. -/
def State.predicateRead (s : State) (w : Nat) (io : Io) : State :=
  match s.work? w with
  | some x =>
    if x.phase = .predRead ∧ x.abort.isNone then match io with
      | .ok _ => s.predReturn w io
      | .fail _ _ => s.withSeqr w fun s => (s.noteIo io).predReturn w io
    else s
  | none => s

/-- A child chip's exchange with its parent, once in a period.
Mark: DEDUCED (notes/assumptions/47.md). -/
def State.exchangeDue (s : State) : State := s.onceInTick 3 State.timeExchange

/-! ### Posting (07 R215) -/

/-- A posting write of a ring is refused or fails. -/
def State.postingRefused (s : State) (k : Nat) (why : IoFail) : State :=
  let waits := match s.ring? k with
    | some r => (match r.hold with | some h => (match h.st with | .unanswered _ => true | _ => false) | none => false)
    | none => false
  if waits then (s.noteFail why).postingFailed k why else s

/-- The retry of a ring's held writes; it is paused during a stop. -/
def State.postingRetried (s : State) (k : Nat) (fails : Option Nat) : State :=
  s.unlessStopped fun s => s.postingRetry k fails

/-! ### Host writes that have a row of their own (01 R23) -/

/-- A write to a window of a partition that is enabled. -/
def State.winOp (s : State) (p : Nat) (o : HostOp) : State := if s.isUp p then s.hostOp o else s

/-- A ring state command: 1 ENABLE, 2 DISABLE, 3 RESUME. -/
def State.ringCmd (s : State) (p r cmd : Nat) : State :=
  if (s.ring? (pkey p r)).isSome then s.winOp p (.stateCmd p r cmd) else s

/-- A write to a register of the management window, at an offset, of 4 or 8 bytes. -/
def State.mgmtWrite (s : State) (who : Agent) (off bytes data : Nat) : State :=
  s.regWrite { who := who, addr := if who = .jtag then off else 0x10000000 + off, bytes := bytes, data := data } s.boot.straps false

/-- Such a write by the PF. -/
def State.pfWrite (s : State) (off bytes data : Nat) : State := s.mgmtWrite .pf off bytes data

/-- A write to any register, with the straps as they were sampled last; should it be STAGE, whether the flash write will
succeed is free.
Mark: DESIGN CHOICE (notes/assumptions/97.md); DEDUCED (notes/assumptions/111.md). -/
def State.anyWrite (s : State) (a : RegAcc) : State :=
  let (k, s1) := s.takeFree
  s1.regWrite a s.boot.straps (Config.flip k)

/-- Does a register access name a register of the management window? -/
def names (a : RegAcc) (off : Nat) : Bool :=
  match spaceOf a with | .mgmt o => o == off | _ => false

/-- A write of an OP to MH_STOP_CTRL (11 R350). -/
def State.stopWrite (s : State) (a : RegAcc) (op : Nat) : State :=
  if names a 0x90030 && bitsOf a.data 60 2 == op then s.anyWrite a else s

/-- A write of a KIND to MH_RST_CTRL (14 R400).
Mark: DEDUCED (notes/assumptions/111.md). -/
def State.resetWrite (s : State) (a : RegAcc) (kind straps : Nat) : State :=
  if names a 0xE0004 && bitsOf a.data 0 2 == kind then s.regWrite a straps false else s

end Sys2Proof.Machine
end

