-- ==== Sys2Proof/Machine/ExecAdmin.lean ====
section
/-! DEFINITION. The meaning of each command: admin commands, fences, memory objects and posting. -/
namespace Sys2Proof.Machine

/-- CTX_CREATE (03 R100). Admin opcode 0xC0 creates a context with a PASID and host access. -/
def execCtxCreate (p : Nat) (e : Cmd) (s : State) : Answer := s.after fun s => s.startAt (.ring p 0) 0xC0 e

/-- CTX_DESTROY (03 R101). Admin opcode 0xC1 destroys a context that owns no rings, freeing its handles. -/
def execCtxDestroy (p : Nat) (e : Cmd) (s : State) : Answer := s.after fun s => s.startAt (.ring p 0) 0xC1 e

/-- RING_CREATE (03 R102). Admin opcode 0xC2 creates a DISABLED ring with CI = PI = 0. -/
def execRingCreate (p : Nat) (e : Cmd) (s : State) : Answer := s.after fun s => s.startAt (.ring p 0) 0xC2 e

/-- RING_CONFIG (03 R103). Admin opcode 0xC3 changes a ring's VECTOR, SLICE or TIMEOUT_US. -/
def execRingConfig (p : Nat) (e : Cmd) (s : State) : Answer := s.after fun s => s.startAt (.ring p 0) 0xC3 e

/-- RING_DESTROY (03 R104). Admin opcode 0xC4 destroys a DISABLED ring with no entry in flight. -/
def execRingDestroy (p : Nat) (e : Cmd) (s : State) : Answer := s.after fun s => s.startAt (.ring p 0) 0xC4 e

/-- RING_QUERY (03 R105). Admin opcode 0xC5 writes a 32-byte report of a ring. -/
def execRingQuery (p : Nat) (e : Cmd) (s : State) : Answer := s.after fun s => s.startAt (.ring p 0) 0xC5 e

/-- ABORT (07 R219). Admin opcode 0xC6 aborts one entry, a ring's entries or a context's rings and tasks. -/
def execAbort (p : Nat) (e : Cmd) (s : State) : Answer := s.after fun s => s.startAt (.ring p 0) 0xC6 e

/-- GRAPH_LOAD (05 R156). Admin opcode 0xC8 creates a LOADING graph and queues its image read. -/
def execGraphLoad (p : Nat) (e : Cmd) (s : State) : Answer := s.after fun s => s.startAt (.ring p 0) 0xC8 e

/-- GRAPH_PATCH (05 R162). Admin opcode 0xC9 applies patch records to make a new current generation. -/
def execGraphPatch (p : Nat) (e : Cmd) (s : State) : Answer := s.after fun s => s.startAt (.ring p 0) 0xC9 e

/-- GRAPH_UNLOAD (05 R159). Admin opcode 0xCA frees a graph number, freeing generations as their pins drop. -/
def execGraphUnload (p : Nat) (e : Cmd) (s : State) : Answer := s.after fun s => s.startAt (.ring p 0) 0xCA e

/-- GRAPH_QUERY (05 R160). Admin opcode 0xCB writes a 96-byte report of a graph. -/
def execGraphQuery (p : Nat) (e : Cmd) (s : State) : Answer := s.after fun s => s.startAt (.ring p 0) 0xCB e

/-- GRAPH_IMAGE_READ_DONE (05 R157). Topiary finishes reading and checking an image; the graph becomes READY or
LOAD_FAILED and its fence is signalled or failed. -/
def execGraphImageReadDone (io : Io) (s : State) : Answer := s.after fun s => s.imageReadEnds io

/-- FENCE_ALLOC (06 R183). Admin opcode 0xD0 allocates an own fence with an initial value. -/
def execFenceAlloc (p : Nat) (e : Cmd) (s : State) : Answer := s.after fun s => s.startAt (.ring p 0) 0xD0 e

/-- FENCE_FREE (06 R184). Admin opcode 0xD1 frees a fence, failing waiters and revoking exports, leaving the number
DRAINING. -/
def execFenceFree (p : Nat) (e : Cmd) (s : State) : Answer := s.after fun s => s.startAt (.ring p 0) 0xD1 e

/-- FENCE_EXPORT (06 R186). Admin opcode 0xD2 exports an own fence to a partition under a KEY, or revokes an export.
-/
def execFenceExport (p : Nat) (e : Cmd) (s : State) : Answer := s.after fun s => s.startAt (.ring p 0) 0xD2 e

/-- FENCE_IMPORT (06 R188). Admin opcode 0xD3 creates a local fence naming another partition's exported fence. -/
def execFenceImport (p : Nat) (e : Cmd) (s : State) : Answer := s.after fun s => s.startAt (.ring p 0) 0xD3 e

/-- FENCE_QUERY (06 R185). Admin opcode 0xD4 writes a fence's 32-byte record. -/
def execFenceQuery (p : Nat) (e : Cmd) (s : State) : Answer := s.after fun s => s.startAt (.ring p 0) 0xD4 e

/-- OVERFLOW_POLL (06 R181). In every sixteenth tick up to 256 changed listed fences have their waiters checked. -/
def execOverflowPoll (s : State) : Answer := s.after fun s => s.pollOverflow

/-- MEM_ALLOC (06 R195). Admin opcode 0xD8 allocates a memory object or an alias at a handle index. -/
def execMemAlloc (p : Nat) (e : Cmd) (s : State) : Answer := s.after fun s => s.startAt (.ring p 0) 0xD8 e

/-- MEM_FREE (06 R197). Admin opcode 0xD9 frees a handle and raises its generation. -/
def execMemFree (p : Nat) (e : Cmd) (s : State) : Answer := s.after fun s => s.startAt (.ring p 0) 0xD9 e

/-- POSTING_FAILURE (07 R215). A completion word or error record write is refused or fails; later postings of the ring
are held. -/
def execPostingFailure (p : Nat) (r : Nat) (why : IoFail) (s : State) : Answer :=
  s.after fun s => s.postingRefused (pkey p r) why

/-- POSTING_RETRY (07 R215). A retry interval expires and the held posting writes are issued again. -/
def execPostingRetry (p : Nat) (r : Nat) (fails : Option Nat) (s : State) : Answer :=
  s.after fun s => s.postingRetried (pkey p r) fails

end Sys2Proof.Machine
end

