-- ==== Sys2Proof/Machine/ExecBoxwood.lean ====
section
/-! DEFINITION. The meaning of each command: the interrupt controller, the patch store and the memory port arbiter. -/
namespace Sys2Proof.Machine

/-- IC_CLAIM (13 R394). A read of MH_IC_CLAIM returns the selected source, clearing PENDING and setting ACTIVE. -/
def execIcClaim (n : Nat) (s : State) : Answer := s.after fun s => s.icClaim n

/-- IC_COMPLETE (13 R394; 12 R352). A write to MH_IC_COMPLETE clears the named source's ACTIVE, or sets COMPLETE_ERR, at the next
boundary. -/
def execIcComplete (n : Nat) (src : Nat) (s : State) : Answer :=
  s.after fun s => s.mgmtWrite (.proc n) (0xD0004 + 256 * n) 4 (src % 2 ^ 16)

/-- IC_DOORBELL (13 R391; 12 R352). A write of 1s to MH_IC_DB sets doorbell sources DB0 to DB7 of a processor pending, at the next
boundary. -/
def execIcDoorbell (n : Nat) (bits : Nat) (s : State) : Answer :=
  s.after fun s => s.mgmtWrite (.proc n) (0xD0018 + 256 * n) 4 (bits % 2 ^ 8)

/-- IC_TIMER (13 R391). The FTC reaches a processor's timer COMPARE value; TIMER0 or TIMER1 is raised and COMPARE
reads 0. -/
def execIcTimer (n : Nat) (t : Nat) (s : State) : Answer := s.after fun s => s.icTimer n t

/-- WDT_WARN (13 R391). Half a processor's watchdog period passes without a refresh and WDT_WARN is raised. -/
def execWdtWarn (n : Nat) (s : State) : Answer := s.after fun s => s.wdtWarn n

/-- PATCH_DATA_WRITE (13 R383; 12 R352). The fifth write to MH_BW_PATCH_DATA writes a microword into all four copies and
advances INDEX, at the next boundary. -/
def execPatchDataWrite (who : Agent) (v : Nat) (s : State) : Answer :=
  s.after fun s => s.mgmtWrite who 0xB0018 4 (v % 2 ^ 32)

/-- DISPATCH_ENTRY_WRITE (13 R384). A write to MH_BW_DISP_WR rewrites a dispatch table entry, unless LOCK is set or
the writer is not SEC; it takes effect at the next boundary (12 R352). -/
def execDispatchEntryWrite (who : Agent) (v : Nat) (s : State) : Answer :=
  s.after fun s => s.mgmtWrite who 0xB001C 4 (v % 2 ^ 32)

/-- PATCH_LOCK (13 R384; 12 R352). A write of 1 to LOCK refuses further patch and dispatch writes until a reset, from the next
boundary. -/
def execPatchLock (who : Agent) (s : State) : Answer := s.after fun s => s.mgmtWrite who 0xB0010 4 1

/-- TRANSFER_REQUEST (13 R386). A part presents a memory transfer on an arbiter input and it is granted, queued or
suspended under the budgets. -/
def execTransferRequest (input : Nat) (cycle : Nat) (sectors : Nat) (s : State) : Answer :=
  s.after fun s => s.transferRequest input cycle sectors

end Sys2Proof.Machine
end

