-- ==== Sys2Proof/Machine/ExecCommands.lean ====
section
/-! DEFINITION. The meaning of each command: the commands of rings and graphs. -/
namespace Sys2Proof.Machine

/-- NOP (03 R99). Opcode 0x00 completes with CS_DONE and has no other effect. -/
def execNop (at_ : Site) (e : Cmd) (s : State) : Answer := s.after fun s => s.startAt at_ 0x00 e

/-- LAUNCH (04 R129). Opcode 0x01 starts a launch of a stored graph, pinning its generation and the epoch and
reserving Espalier slots. -/
def execLaunch (at_ : Site) (e : Cmd) (s : State) : Answer := s.after fun s => s.startAt at_ 0x01 e

/-- DISPATCH (04 R120). Opcode 0x02 runs a kernel on engine endpoints in segments under SEG_MAX. -/
def execDispatch (at_ : Site) (e : Cmd) (s : State) : Answer := s.after fun s => s.startAt at_ 0x02 e

/-- DESCRIPTOR_ARRIVAL (04 R121). A kernel descriptor read returns and is checked against ENGINE before segments are
dispatched. -/
def execDescriptorArrival (l : Nat) (i : Nat) (w : Nat) (io : Io) (s : State) : Answer :=
  s.after fun s => s.descriptorArrives l i w io

/-- GATHER (04 R136). Opcode 0x03 reads embedding rows through the lookup marshal into COPY, SUM or MEAN output. -/
def execGather (at_ : Site) (e : Cmd) (s : State) : Answer := s.after fun s => s.startAt at_ 0x03 e

/-- ROUTE (04 R139). Opcode 0x04 has Pleach turn router scores into a group table and a choice list. -/
def execRoute (at_ : Site) (e : Cmd) (s : State) : Answer := s.after fun s => s.startAt at_ 0x04 e

/-- ROUTE_UNIT_GRANT (09 R275). A waiting ROUTE takes a free routing unit and runs its two passes. -/
def execRouteUnitGrant (w : Nat) (s : State) : Answer := s.after fun s => s.unlessStopped fun s =>
  s.withSeqr w fun s => s.grantRoute w

/-- GROUPED_MM (04 R140). Opcode 0x05 has MX group walkers multiply each expert's rows by its weights into OUT. -/
def execGroupedMm (at_ : Site) (e : Cmd) (s : State) : Answer := s.after fun s => s.startAt at_ 0x05 e

/-- FENCE_WAIT (04 R141). Opcode 0x08 waits until a fence reaches a threshold or is FAILED. -/
def execFenceWait (at_ : Site) (e : Cmd) (s : State) : Answer := s.after fun s => s.startAt at_ 0x08 e

/-- FENCE_SIGNAL (04 R142). Opcode 0x09 signals a fence by MAX, INCREMENT or FAIL at a chosen effective tick. -/
def execFenceSignal (at_ : Site) (e : Cmd) (s : State) : Answer := s.after fun s => s.startAt at_ 0x09 e

/-- WRITE_VALUE (04 R145). Opcode 0x0A writes one 4- or 8-byte value atomically. -/
def execWriteValue (at_ : Site) (e : Cmd) (s : State) : Answer := s.after fun s => s.startAt at_ 0x0A e

/-- COPY (04 R146). Opcode 0x0B copies bytes in chunks on DX engines. -/
def execCopy (at_ : Site) (e : Cmd) (s : State) : Answer := s.after fun s => s.startAt at_ 0x0B e

/-- TIMESTAMP (04 R147). Opcode 0x0C writes the FTC of the boundary after its start to DST. -/
def execTimestamp (at_ : Site) (e : Cmd) (s : State) : Answer := s.after fun s => s.startAt at_ 0x0C e

/-- COND (04 R133). Opcode 0x0D evaluates a predicate once and launches THEN or ELSE as a child. -/
def execCond (at_ : Site) (e : Cmd) (s : State) : Answer := s.after fun s => s.startAt at_ 0x0D e

/-- LOOP (04 R134). Opcode 0x0E launches BODY as a child while its predicate holds, up to MAX_ITER. -/
def execLoop (at_ : Site) (e : Cmd) (s : State) : Answer := s.after fun s => s.startAt at_ 0x0E e

/-- CALL_GRAPH (04 R135). Opcode 0x0F launches a graph as a child from a graph node; on a ring it fails. -/
def execCallGraph (at_ : Site) (e : Cmd) (s : State) : Answer := s.after fun s => s.startAt at_ 0x0F e

/-- FEED (04 R127). Opcode 0x10 writes items into a persistent task's queue and completes when they are consumed. -/
def execFeed (at_ : Site) (e : Cmd) (s : State) : Answer := s.after fun s => s.startAt at_ 0x10 e

/-- PREDICATE_READ_RETURN (04 R113). A COND or LOOP memory predicate read returns and the predicate is evaluated in
the next tick. -/
def execPredicateReadReturn (w : Nat) (io : Io) (s : State) : Answer :=
  s.after fun s => s.unlessStopped fun s => s.predicateRead w io

/-- CHILD_RESERVATION (05 R172). A waiting child launch obtains its 1 + W Espalier slots and is launched. -/
def execChildReservation (w : Nat) (s : State) : Answer := s.after fun s => s.childReserved w

end Sys2Proof.Machine
end

