-- ==== Sys2Proof/Machine/ExecExperts.lean ====
section
/-! DEFINITION. The meaning of each command: expert layers and the bias loop. -/
namespace Sys2Proof.Machine

/-- EXPERT_LAYER_CREATE (09 R270). Admin opcode 0xE8 creates an expert layer, starting its bias from a flash snapshot
or zero. -/
def execExpertLayerCreate (p : Nat) (e : Cmd) (s : State) : Answer := s.after fun s => s.startAt (.ring p 0) 0xE8 e

/-- EXPERT_LAYER_DESTROY (09 R272). Admin opcode 0xE9 destroys an expert layer. -/
def execExpertLayerDestroy (p : Nat) (e : Cmd) (s : State) : Answer := s.after fun s => s.startAt (.ring p 0) 0xE9 e

/-- EXPERT_BIAS_SET (09 R273). Admin opcode 0xEA replaces a layer's bias vector and sets FROZEN. -/
def execExpertBiasSet (p : Nat) (e : Cmd) (s : State) : Answer := s.after fun s => s.startAt (.ring p 0) 0xEA e

/-- EXPERT_LAYER_QUERY (09 R274). Admin opcode 0xEB writes a report of a layer. -/
def execExpertLayerQuery (p : Nat) (e : Cmd) (s : State) : Answer := s.after fun s => s.startAt (.ring p 0) 0xEB e

/-- BIAS_PERIOD (09 R284). At the end of each bias period the loop updates and publishes the bias of each eligible
layer. -/
def execBiasPeriod (s : State) : Answer := s.after fun s => s.biasPeriodEnds

/-- BIAS_SNAPSHOT (09 R286). Every 10 minutes the loop writes each keyed layer's bias to the flash bias area. -/
def execBiasSnapshot (s : State) : Answer := s.after fun s => s.biasSnapshot

end Sys2Proof.Machine
end

