-- ==== Sys2Proof/Machine/ExecFabric.lean ====
section
/-! DEFINITION. The meaning of each command: the tick, Hedgerow and fabric time. -/
namespace Sys2Proof.Machine

/-- TICK_BOUNDARY (01 R24). The FTC reaches a multiple of 64 ns; Mahorn applies the previous tick's messages and timed
flits in six fixed steps, then makes the decisions of the new tick. -/
def execTickBoundary (unanswered : List (Nat × Nat × Nat)) (errs : List MemErr) (s : State) : Answer :=
  s.after fun s => s.tickBoundary unanswered errs

/-- DISPATCH_MESSAGE (01 R20). An endpoint receives a DISPATCH and begins the segment within two of its clock periods.
-/
def execDispatchMessage (ep : Nat) (stamp : Nat) (s : State) : Answer := s.after fun s => s.beginSeg ep stamp

/-- SEGMENT_DONE (04 R123). An endpoint reports a segment ended with the items done; a continuation becomes eligible.
-/
def execSegmentDone (ep : Nat) (r : SegReport) (s : State) : Answer :=
  if s.boot.unpowered = false ∧ s.reportAstray false ep r = true then .fault .noDeviceAddress
  else s.after fun s => s.report false ep r

/-- NODE_DONE (01 R20). An endpoint reports an instance's last segment ended; Espalier releases dependants and applies
any carried fence signal. -/
def execNodeDone (ep : Nat) (r : SegReport) (s : State) : Answer :=
  if s.boot.unpowered = false ∧ s.reportAstray true ep r = true then .fault .noDeviceAddress
  else s.after fun s => s.report true ep r

/-- FENCE_SIGNAL_MESSAGE (01 R20). A FENCE_SIGNAL message reaches Mahorn and raises the fence to max(current, new) at
the next boundary. -/
def execFenceSignalMessage (p : Nat) (f : Nat) (v : Nat) (s : State) : Answer := s.after fun s => s.fenceMessage p f v

/-- ABORT_MESSAGE (07 R222). An endpoint receives ABORT and ends its segment at its own end or, if urgent, within 2
µs. -/
def execAbortMessage (ep : Nat) (s : State) : Answer := s.after fun s => s.abortArrives ep

/-- STOP_MESSAGE (11 R342). An endpoint receives STOP and freezes at its defined point. -/
def execStopMessage (ep : Nat) (s : State) : Answer := s.after fun s => s.stopArrives ep

/-- FREEZE_REPORT (11 R341). An endpoint reports FROZEN and its state is written into the snapshot, not applied. -/
def execFreezeReport (ep : Nat) (words : List Word) (s : State) : Answer := s.after fun s => s.freeze ep words

/-- TRACE_MESSAGE (15 R430). The trace unit receives a TRACE message and writes a 32-byte record to the buffer and
optionally the serial port. -/
def execTraceMessage (m : TraceMsg) (s : State) : Answer :=
  s.after fun s => s.traceMessage m.src

/-- TIME_EXCHANGE (01 R30). Every 2^SYNC_PERIOD ticks a child chip sends TIME_REQ to its parent. -/
def execTimeExchange (s : State) : Answer := s.after fun s => s.exchangeDue

/-- TIME_REQ (01 R37). A parent receives TIME_REQ and returns TIME_RESP with t1, t2 and t3. -/
def execTimeReq (f : Flit) (t2 : Nat) (t3 : Nat) (s : State) : Answer := s.after fun s => s.timeReqIn f t2 t3

/-- TIME_RESP (01 R30). A child receives TIME_RESP, computes offset and delay and adjusts its FTC. -/
def execTimeResp (f : Flit) (t4 : Nat) (asym : Int) (s : State) : Answer := s.after fun s => s.timeRespIn f t4 asym

/-- TIME_ANNOUNCE (01 R30). A chip receives TIME_ANNOUNCE naming the root, which ends NO_ROOT and drives parent choice
and calendar setting. -/
def execTimeAnnounce (f : Flit) (neighbour : Nat) (s : State) : Answer :=
  s.after fun s => s.timeAnnounceIn f neighbour

/-- FT_ALIGN_TIMEOUT (14 R409). 200 ms of alignment pass without LOCKED; FT_TIMEOUT is set and bring-up goes ahead. -/
def execFtAlignTimeout (s : State) : Answer := s.after fun s => s.alignTimeout

/-- LINK_DOWN (01 R35). A peer link fails its eighth replay and is declared down; traffic and unacknowledged flits
move to alternate routes. -/
def execLinkDown (link : DeadLink) (s : State) : Answer :=
  s.after fun s => s.linkFails link.link link.unacked

/-- LINK_ECHO (01 R37). A LINK_ECHO flit is received and its stamp echoed back unchanged. -/
def execLinkEcho (f : Flit) (s : State) : Answer := s.after fun s => s.echoIn f

/-- REFUSAL (01 R40). A REFUSAL flit returns to the source of a refused flit and is counted against the originating
partition. -/
def execRefusal (f : Flit) (s : State) : Answer := s.after fun s => s.refusalIn f

/-- FENCE_SIGNAL_FLIT (06 R190). A FENCE_SIGNAL flit arrives at a home chip or importer and is held for its effective
tick or discarded. -/
def execFenceSignalFlit (f : Flit) (s : State) : Answer := s.after fun s => s.heldKind 0x10 f

/-- FENCE_FAIL_FLIT (06 R190). A FENCE_FAIL flit arrives and marks the home fence or matching import FAILED at its
effective tick. -/
def execFenceFailFlit (f : Flit) (s : State) : Answer := s.after fun s => s.heldKind 0x11 f

/-- FENCE_REFRESH (06 R190). Every 16,384 ticks the home chip refreshes each remote export of an unchanged fence with
a DIR 1 signal. -/
def execFenceRefresh (s : State) : Answer := s.after fun s => s.refreshDue

/-- CALENDAR_SECOND (01 R46). At each calendar second boundary Mahorn captures the FTC with the new seconds value. -/
def execCalendarSecond (s : State) : Answer := s.always fun s => s.calendarSecond

/-- CAL_TIME_WRITE (01 R49). A write to MH_CAL_TIME sets the calendar on the next crystal edge and clears INVALID. -/
def execCalTimeWrite (v : Word) (s : State) : Answer := s.after fun s => s.calWrite v.toNat

/-- CAL_CAPTURE_READ (01 R50). A read of MH_CAL_CAPTURE_FTC latches MH_CAL_CAPTURE_SEC so the pair is consistent. -/
def execCalCaptureRead (who : Agent) (s : State) : Answer := s.after fun s => s.capRead who

/-- PTP_EVENT (01 R48). An NX engine stamps a PTP event message and the servo slews or steps the calendar. -/
def execPtpEvent (nx : PtpSource) (ftc : Nat) (sec : Nat) (sub : Nat) (utc : Nat) (nsErr : Int) (s : State) : Answer :=
  s.after fun s => s.ptp nx.nx nx.domain ftc sec sub utc nsErr

end Sys2Proof.Machine
end

