-- ==== Sys2Proof/Machine/ExecFaults.lean ====
section
/-! DEFINITION. The meaning of each command: faults, core fencing and the global stop. -/
namespace Sys2Proof.Machine

/-- SEGMENT_WATCHDOG (11 R332). A segment's watchdog exceeds seg_ns plus HANG_US and an urgent abort with CS_TIMEOUT
0x02E7 is decided. -/
def execSegmentWatchdog (ep : Nat) (s : State) : Answer := s.after fun s => s.segWatchdog ep

/-- HANG_DECLARE (11 R333). An aborted endpoint has not ended its segment within 4 µs; it is declared hung, a capture
record written and its core's fencing decided. -/
def execHangDeclare (ep : Nat) (words : List Word) (s : State) : Answer := s.after fun s => s.declareHung ep words

/-- ENDPOINT_FAILED (11 R332). An endpoint's message reports a fatal error; it is declared failed, captured and its
core fenced. -/
def execEndpointFailed (ep : Nat) (words : List Word) (s : State) : Answer :=
  s.after fun s => s.declareFailed ep words

/-- CORE_FENCE_WRITE (11 R335). A write of 1 to MH_CORE_FENCE.FENCE decides the fencing of the named core. -/
def execCoreFenceWrite (core : Nat) (s : State) : Answer := s.after fun s => s.pfWrite 0x90028 4 (core % 128 + 2 ^ 8)

/-- MACHINE_CHECK (11 R331). An error in Mahorn's control path requests a chip-scope stop, sets MCHK and raises the
machine-check interrupt. -/
def execMachineCheck (part : Nat) (detail : Nat) (s : State) : Answer :=
  s.after fun s => s.controlError part detail

/-- GLOBAL_STOP_REQUEST (11 R339). A write of STOP to MH_STOP_CTRL schedules a stop at tick T for the chosen scope. -/
def execGlobalStopRequest (a : RegAcc) (s : State) : Answer := s.after fun s => s.stopWrite a 1

/-- GLOBAL_STOP_RESUME (11 R344). A write of RESUME to MH_STOP_CTRL ends the stop at tick U, or is refused. -/
def execGlobalStopResume (a : RegAcc) (s : State) : Answer := s.after fun s => s.stopWrite a 2

/-- GLOBAL_STOP_ABANDON (11 R345). A write of ABANDON to MH_STOP_CTRL ends the stop at U and aborts frozen work with
CS_STOPPED. -/
def execGlobalStopAbandon (a : RegAcc) (s : State) : Answer := s.after fun s => s.stopWrite a 3

/-- STOP_FLIT (11 R339). A STOP flit is received and schedules the stop for its named tick, late if already passed. -/
def execStopFlit (f : Flit) (s : State) : Answer := s.after fun s => s.stopFlitIn f

/-- RESUME_FLIT (11 R340). A RESUME flit with OP RESUME matching the stop in force ends the stop at U. -/
def execResumeFlit (f : Flit) (s : State) : Answer := s.after fun s => s.endFlitIn false f

/-- ABANDON_FLIT (11 R345). A RESUME flit with OP ABANDON matching the stop in force ends the stop at U with
CS_STOPPED. -/
def execAbandonFlit (f : Flit) (s : State) : Answer := s.after fun s => s.endFlitIn true f

/-- SNAPSHOT_DONE (11 R347). The snapshot of a stop is completely written; SNAP_DONE and STOPPED are set. -/
def execSnapshotDone (s : State) : Answer := s.after fun s => s.snapshotDone

/-- HANG_CLEAR (11 R350). A write of 1 to MH_HANG_CTRL.CLEAR invalidates every hang record. -/
def execHangClear (s : State) : Answer := s.after fun s => s.pfWrite 0x90022 1 1

end Sys2Proof.Machine
end

