-- ==== Sys2Proof/Machine/ExecFirmware.lean ====
section
/-! DEFINITION. The meaning of each command: firmware processors and PP4. -/
namespace Sys2Proof.Machine

/-- PROCESSOR_CRASH (12 R360). A firmware processor is declared crashed, held in reset, recorded, and its duties or
functions fall back. -/
def execProcessorCrash (n : Nat) (cause : Nat) (pc : Nat) (info : Nat) (s : State) : Answer :=
  s.after fun s => s.procCrash n cause pc info

/-- PROCESSOR_RESTART (12 R361). A crashed processor has reloaded from the verified image cache and is RUNNING again.
-/
def execProcessorRestart (n : Nat) (s : State) : Answer := s.after fun s => s.procRestart n

/-- DUTY_RETURN (12 R362). A moved duty returns to its restarted core at the duty's next quiet point. -/
def execDutyReturn (d : Nat) (s : State) : Answer := s.after fun s => s.dutyReturn d

/-- CCC_GATE_TIMEOUT (12 R362). 5 ms after a CCC crash its cluster's launch gate opens and DEGRADED is set. -/
def execCccGateTimeout (n : Nat) (s : State) : Answer := s.after fun s => s.gateTimeout n

/-- FW_STAGE (12 R367). The STAGE firmware command has SEC check the staged image and FLASH write it to the inactive
slot. -/
def execFwStage (ok : Bool) (s : State) : Answer :=
  s.after fun s => s.regWrite { who := .pf, addr := 0x100A0200, bytes := 4, data := 1 } s.boot.straps ok

/-- FW_ACTIVATE (12 R368). The ACTIVATE firmware command switches processors to the staged image in order at their
quiet points. -/
def execFwActivate (s : State) : Answer := s.after fun s => s.pfWrite 0xA0200 4 2

/-- FW_SWITCH (12 R369). A processor reaches its quiet point under the activation conditions and restarts from the new
component. -/
def execFwSwitch (n : Nat) (s : State) : Answer := s.after fun s => s.fwSwitch n

/-- FW_ABORT (12 R370). The ABORT firmware command stops an activation and returns switched processors to the old
image. -/
def execFwAbort (s : State) : Answer := s.after fun s => s.pfWrite 0xA0200 4 3

/-- FW_COMMIT_SVN (12 R359). The COMMIT_SVN firmware command has SEC burn FUSE_SVN up to the running image's SVN. -/
def execFwCommitSvn (s : State) : Answer := s.after fun s => s.pfWrite 0xA0200 4 4

/-- CRASH_CLEAR (12 R374). A write of 1 to MH_FW_CRASH_CTRL.CLEAR invalidates every crash record. -/
def execCrashClear (s : State) : Answer := s.after fun s => s.pfWrite 0xA0300 4 (2 ^ 16)

/-- FLASH_WRITE_DONE (12 R356). A flash operation ends and FLASH_DONE is raised. -/
def execFlashWriteDone (s : State) : Answer := s.after fun s => s.flashDone

/-- MCTP_MESSAGE (12 R371). An MCTP message arrives on PP4 and is dispatched to control, PLDM or SPDM handling. -/
def execMctpMessage (eid : Nat) (mtype : Nat) (body : List Word) (s : State) : Answer :=
  s.after fun s => s.mctpIn eid mtype body

/-- SPDM_REQUEST (12 R372). SEC answers an SPDM 1.3 request such as GET_MEASUREMENTS or CHALLENGE. -/
def execSpdmRequest (eid : Nat) (code : Nat) (body : List Word) (s : State) : Answer :=
  s.after fun s => s.spdmIn eid code body

/-- PLDM_REQUEST (12 R373). TELEMETRY answers a PLDM base, monitoring or firmware update request. -/
def execPldmRequest (eid : Nat) (code : Nat) (body : List Word) (s : State) : Answer :=
  s.after fun s => s.pldmIn eid code body

/-- SENSOR_UPDATE (12 R373). Every 100 ms the PLDM numeric sensors are updated. -/
def execSensorUpdate (readings : List Nat) (s : State) : Answer := s.after fun s => s.sensorUpdate readings

end Sys2Proof.Machine
end

