-- ==== Sys2Proof/Machine/ExecLinks.lean ====
section
/-! DEFINITION. The meaning of each command: power loss, links, masks and flits for others. -/
namespace Sys2Proof.Machine

/-- MODULE_POWER_LOSS (01 R27). Module power is lost; the FTC loses its value and every volatile state ends, while the
calendar runs on the backup cell. -/
def execModulePowerLoss (s : State) : Answer := s.after fun s => s.powerLost

/-- ORDERLY_SHUTDOWN (09 R286). At an orderly shutdown the bias loop writes a snapshot of every keyed layer to the
flash bias area. -/
def execOrderlyShutdown (s : State) : Answer := s.after fun s => s.shutdown

/-- BACKUP_CELL_LOW (01 R50). The calendar's backup cell falls below its hold threshold and CELL_LOW is set. -/
def execBackupCellLow (s : State) : Answer := s.always fun s => s.cellFalls

/-- CRYSTAL_STOP (01 R49). The backup cell is exhausted while the module is unpowered; the calendar crystal stops and
INVALID is set. -/
def execCrystalStop (s : State) : Answer := s.always fun s => s.crystalStops

/-- PEER_LINK_UP (02 R74). A peer link trains or comes back up; LINKS_UP, PEER_VALID and PEER_LAT_NS change, and
traffic may use the link again. -/
def execPeerLinkUp (link : Nat) (chip : Nat) (lat : Nat) (s : State) : Answer :=
  s.after fun s => s.linkTrains link chip lat

/-- HOST_LINK_RETRAIN (02 R74). The host link trains to a new rate and LINK_GEN changes at a tick boundary. -/
def execHostLinkRetrain (gen : Nat) (s : State) : Answer := s.after fun s => s.hostLinkTrains gen

/-- MSIX_MASK (07 R210). The host masks an MSI-X vector or the function, so later messages on it are held as pending.
-/
def execMsixMask (p : Nat) (v : Option Nat) (s : State) : Answer := s.after fun s => s.maskVec p v

/-- ATS_ENABLE_CHANGE (02 R55). The host enables or disables ATS, which switches Mahorn between cached translations
and untranslated requests with the PASID prefix. -/
def execAtsEnableChange (on : Bool) (s : State) : Answer := s.after fun s => s.atsEnable on

/-- FLIT_RELAY (01 R36). A control flit reaches a chip that is not its destination; the chip decrements HOPS and
forwards it, or drops it at 0 and counts it refused. -/
def execFlitRelay (f : Flit) (s : State) : Answer := s.after fun s => s.relayFlit f

/-- UNKNOWN_KIND_FLIT (01 R37). A control flit with a KIND value not in R37 arrives and is refused, counted, and
answered with a REFUSAL. -/
def execUnknownKindFlit (f : Flit) (s : State) : Answer := s.after fun s => s.unknownFlit f

/-- RECEIVER_NOT_READY (10 R326). A message arrives at an NX engine while its listener has no free slot; the engine
answers with an RNR NAK and MH_SVC_NOSLOT counts it. -/
def execReceiverNotReady (l : Nat) (s : State) : Answer := s.after fun s => s.rnrNak l

/-- FILL_DONE (08 R247). In OPEN, Coppice finishes, or fails, the fill of one committed set and moves on to the next
set in commit order. -/
def execFillDone (io : Io) (s : State) : Answer := s.after fun s => s.fillEnds io

end Sys2Proof.Machine
end

