-- ==== Sys2Proof/Machine/ExecReset.lean ====
section
/-! DEFINITION. The meaning of each command: reset, boot and power. -/
namespace Sys2Proof.Machine

/-- POWER_ON_RESET (14 R399). Module power is applied; straps are sampled, the FTC starts at 0 and boot runs. -/
def execPowerOnReset (straps : Nat) (s : State) : Answer := s.always fun s => s.powerOn straps

/-- PERST_DEASSERT (14 R399). PERST# is deasserted and a module reset runs, keeping the FTC and calendar. -/
def execPerstDeassert (straps : Nat) (s : State) : Answer := s.after fun s => s.perst straps

/-- MAHORN_RESET_WRITE (14 R400). A write of KIND 1 with CONFIRM 0x5A to MH_RST_CTRL resets Mahorn at the next
boundary. -/
def execMahornResetWrite (a : RegAcc) (s : State) : Answer := s.after fun s => s.resetWrite a 1 s.boot.straps

/-- MODULE_RESET_WRITE (14 R400). A write of KIND 2 with CONFIRM 0x5A to MH_RST_CTRL resets the module at the next
boundary. -/
def execModuleResetWrite (a : RegAcc) (straps : Nat) (s : State) : Answer := s.after fun s => s.resetWrite a 2 straps

/-- PF_FLR (14 R399). A Function Level Reset of the PF resets Mahorn, clearing VF Enable. -/
def execPfFlr (s : State) : Answer := s.after fun s => if s.answersConfig then s.pfFlr else s

/-- PAGE_CLEAR_DONE (14 R411). The memory system's bulk initialisation of partition pages ends. -/
def execPageClearDone (s : State) : Answer := s.after fun s => s.pagesCleared

/-- PARTITION_BRINGUP (14 R408). Once all boot rows are done, reserved memory is placed, quotas applied, partitions
enabled and the incarnation drawn. -/
def execPartitionBringup (failed : List Nat) (s : State) : Answer := s.after fun s => s.bringupAsked failed

/-- EMERGENCY_LEVEL_CHANGE (14 R415). PWR compares averaged power and temperature with the limits and decides a new
emergency level. -/
def execEmergencyLevelChange (watts : Nat) (celsius : Nat) (s : State) : Answer :=
  s.after fun s => s.powerCompare watts celsius

/-- HW_TRIP (14 R416). The current or thermal sensor fires; endpoints freeze, engine clocks stop and TRIP takes effect
at the next boundary. -/
def execHwTrip (thermal : Bool) (s : State) : Answer := s.after fun s => s.hwTrips thermal

/-- ENGINE_FREQ_CHANGE (14 R417). Within THROTTLE, PWR changes the engine clock frequency at any instant. -/
def execEngineFreqChange (ep : Nat) (step : Nat) (s : State) : Answer := s.after fun s => s.engineFreq ep step

end Sys2Proof.Machine
end

