-- ==== Sys2Proof/Machine/ExecRings.lean ====
section
/-! DEFINITION. The meaning of each command: host writes, contexts, fetching and entries. -/
namespace Sys2Proof.Machine

/-- RING_PI_WRITE (03 R78). A write to MH_RING_PI or MH_RING_XPI sets PI unless it would overfill the ring, in which
case it is dropped and counted. -/
def execRingPiWrite (p : Nat) (r : Nat) (pi : Nat) (s : State) : Answer :=
  s.after fun s => s.winOp p (.pi p r (pi % 2 ^ 32))

/-- RING_DOORBELL (03 R79). A write to MH_RING_DB or MH_RING_XDB makes Quickset sample PI, loads the context if
needed, or is ignored or pended by ring state. -/
def execRingDoorbell (p : Nat) (r : Nat) (s : State) : Answer := s.after fun s => s.winOp p (.doorbell p r)

/-- RING_ENABLE (03 R89). The ENABLE ring state command moves a ring to ACTIVE, acting as a doorbell if PI differs
from CI, or is rejected. -/
def execRingEnable (p : Nat) (r : Nat) (s : State) : Answer := s.after fun s => s.ringCmd p r 1

/-- RING_DISABLE (03 R91). The DISABLE ring state command stops fetching, discards staged entry and fetch, and leaves
CI as the published head. -/
def execRingDisable (p : Nat) (r : Nat) (s : State) : Answer := s.after fun s => s.ringCmd p r 2

/-- RING_RESUME (07 R217). The RESUME ring state command returns a blocked ring to its earlier state and issues held
records, P and events. -/
def execRingResume (p : Nat) (r : Nat) (s : State) : Answer := s.after fun s => s.ringCmd p r 3

/-- CTX_FAULT_CLEAR (02 R65). Writing 1 to FAULTED in a context state word clears FAULTED, FAULT_STATUS and
FAULT_COUNT at the next boundary. -/
def execCtxFaultClear (p : Nat) (c : Nat) (s : State) : Answer := s.after fun s => s.winOp p (.clearFault p c)

/-- HOST_FENCE_SIGNAL (06 R191). A 64-bit write to MH_FENCE_VAL applies a MAX signal in step 2, or is dropped and
counted. -/
def execHostFenceSignal (p : Nat) (f : Nat) (bytes : Nat) (v : Nat) (s : State) : Answer :=
  s.after fun s => if f < 8192 then s.winOp p (.fenceVal p f (v % Config.two64) (bytes == 8)) else s

/-- HOST_FENCE_FAIL (06 R178). A write of 1 to MH_FENCE_STAT.FAIL marks the fence FAILED in step 3, subject to SIGNAL.
-/
def execHostFenceFail (p : Nat) (f : Nat) (s : State) : Answer :=
  s.after fun s => if f < 8192 then s.winOp p (.fenceFail p f) else s

/-- PARTITION_ENABLE (02 R66). A write of 1 to MH_PQ_CTRL.ENABLE reserves resources and context 0 and ring 0, or sets
OVERCOMMIT. -/
def execPartitionEnable (p : Nat) (s : State) : Answer :=
  s.after fun s => if p < Config.partitions then s.hostOp (.enable p) else s

/-- PARTITION_DISABLE (02 R56). A write of 0 to MH_PQ_CTRL.ENABLE tears the partition down and leaves it disabled. -/
def execPartitionDisable (p : Nat) (s : State) : Answer :=
  s.after fun s => if p < Config.partitions then s.hostOp (.disable p) else s

/-- VF_ENABLE (02 R53). The host enables a VF; the partition becomes enabled if ENABLE is also set. -/
def execVfEnable (p : Nat) (s : State) : Answer :=
  s.after fun s => if p < Config.partitions ∧ s.answersConfig = true then s.hostOp (.vf p true) else s

/-- VF_DISABLE (02 R56). The host disables a VF, tearing the partition down and leaving it disabled. -/
def execVfDisable (p : Nat) (s : State) : Answer :=
  s.after fun s => if p < Config.partitions ∧ s.answersConfig = true then s.hostOp (.vf p false) else s

/-- VF_FLR (02 R56). A Function Level Reset of a VF tears the partition down through Shears and leaves it enabled with
context 0 and ring 0 DISABLED. -/
def execVfFlr (p : Nat) (s : State) : Answer :=
  s.after fun s => if p < Config.partitions ∧ s.answersConfig = true then s.hostOp (.tear p false) else s

/-- SHEARS_TEARDOWN (07 R226). A write of 1 to MH_SHEARS_CTRL.TEARDOWN tears down the named enabled partition, leaving
it enabled. -/
def execShearsTeardown (p : Nat) (s : State) : Answer :=
  s.after fun s => if p < Config.partitions then s.hostOp (.shears p) else s

/-- TEARDOWN_ESCALATE (07 R224). 600 µs into a teardown, endpoints still running its segments are sent an urgent
ABORT. -/
def execTeardownEscalate (p : Nat) (s : State) : Answer := s.after fun s => s.escalate p

/-- TEARDOWN_DONE (07 R224). After the last segment ends, resources are freed, exports revoked, objects removed and
the partition reaches its post-teardown state. -/
def execTeardownDone (p : Nat) (s : State) : Answer := s.after fun s => s.teardownDone p

/-- REGISTER_WRITE (00 R443). A write to a register that has no row of its own updates its RW, W1C and W1S fields
under the byte-enable rules. -/
def execRegisterWrite (a : RegAcc) (s : State) : Answer := s.after fun s => s.anyWrite a

/-- RC_READ (00 R444). A read that returns the least significant byte of an RC field returns and clears the whole
field. -/
def execRcRead (a : RegAcc) (s : State) : Answer := s.after fun s => s.regRead a

/-- LOW_WORD_READ (01 R33). A 32-bit read of the low word of a 64-bit RO or RC register latches its high word for the
same requester. -/
def execLowWordRead (a : RegAcc) (s : State) : Answer := s.after fun s => s.regRead a

/-- MSIX_UNMASK (07 R210). The host clears a vector or function mask and a pending MSI-X message is sent. -/
def execMsixUnmask (p : Nat) (v : Option Nat) (s : State) : Answer := s.after fun s => s.unmaskVec p v

/-- ATS_INVALIDATION (02 R55). An ATS invalidation request arrives and Mahorn drops the cached translation once no
segment uses it. -/
def execAtsInvalidation (p : Nat) (c : Nat) (page : Nat) (s : State) : Answer :=
  s.after fun s => s.atsInvalidate p c page

/-- ATS_INVALIDATION_ANSWER (02 R55). The last segment using an invalidated translation ends and the invalidation is
answered within 4 µs. -/
def execAtsInvalidationAnswer (p : Nat) (c : Nat) (page : Nat) (s : State) : Answer :=
  s.after fun s => s.atsAnswer p c page

/-- CONTEXT_LOAD_START (02 R63). A waiting context load obtains a victim under R61 and begins, evicting and writing
back that context. -/
def execContextLoadStart (p : Nat) (c : Nat) (s : State) : Answer := s.after fun s => s.waitingLoad (pkey p c)

/-- CONTEXT_LOAD_DONE (02 R62). A context record finishes loading into a resident slot and Quickset samples the ring's
producer index. -/
def execContextLoadDone (p : Nat) (c : Nat) (s : State) : Answer := s.after fun s => s.loadEnds (pkey p c)

/-- CONTEXT_LOST (11 R330). An uncorrected error on a context record read makes the context LOST and faults its ACTIVE
rings. -/
def execContextLost (p : Nat) (c : Nat) (s : State) : Answer := s.after fun s => s.ctxReadFails (pkey p c)

/-- ENTRY_ARRIVAL (03 R80). A fetched ring entry arrives and is staged, or discarded if not wholly published. -/
def execEntryArrival (p : Nat) (r : Nat) (io : Io) (s : State) : Answer :=
  s.after fun s => s.entryArrives (pkey p r) io

/-- FETCH_FAULT (03 R84). A ring entry read fails; the ring enters FAULTED and a context fault is recorded. -/
def execFetchFault (p : Nat) (r : Nat) (why : IoFail) (s : State) : Answer :=
  s.after fun s => s.fetchFails (pkey p r) why

/-- ENTRY_START (03 R83). A sequencer accepts a staged entry, assigns its SEQ, checks its header and runs the
command's routine. -/
def execEntryStart (p : Nat) (r : Nat) (parity : Option Parity) (s : State) : Answer :=
  s.after fun s => s.startEntry p r parity

/-- ROUTINE_RESUME (13 R379). A parked command whose wait condition holds resumes its routine on any enabled
sequencer. -/
def execRoutineResume (w : Nat) (io : Io) (parity : Option Parity) (s : State) : Answer :=
  s.after fun s => s.resume w io parity

/-- NODE_RELEASE (05 R168). A ready node with its descriptor at hand is accepted by a sequencer, patched, checked and
executed. -/
def execNodeRelease (l : Nat) (i : Nat) (parity : Option Parity) (s : State) : Answer :=
  s.after fun s => s.releaseNode l i parity

/-- RING_TIMEOUT (03 R88). A started entry's timeout count reaches TIMEOUT_US and an urgent abort with CS_TIMEOUT is
decided. -/
def execRingTimeout (p : Nat) (r : Nat) (seq : Nat) (s : State) : Answer := s.after fun s => s.ringTimeout p r seq

end Sys2Proof.Machine
end

