-- ==== Sys2Proof/Machine/ExecService.lean ====
section
/-! DEFINITION. The meaning of each command: the request service. -/
namespace Sys2Proof.Machine

/-- RECEIVE_DESCRIPTOR (10 R312). An NX engine posts a receive descriptor; Mahorn takes it and reads the request
header. -/
def execReceiveDescriptor (nx : Nat) (slot : Nat) (bytes : Nat) (qpn : Nat) (rx : Nat) (arrival : Nat) (s : State) :
    Answer :=
  s.after fun s => s.postDesc { nx := nx, slot := slot, bytes := bytes % 2 ^ 32, qpn := qpn % 2 ^ 24, rx := rx % 256, arrival := arrival }

/-- REQUEST_HEADER_ARRIVAL (10 R314). A request header arrives, is parsed and checked, and Clipper decides to hold or
refuse the request. -/
def execRequestHeaderArrival (q : Nat) (io : Io) (s : State) : Answer :=
  s.after fun s => s.unlessStopped fun s => s.headerArrival q io

/-- REQUEST_DEADLINE (10 R319). An admitted request reaches its deadline; its launch is aborted with CS_DEADLINE or
marked LATE. -/
def execRequestDeadline (q : Nat) (s : State) : Answer :=
  s.after fun s => s.unlessStopped fun s => s.requestDeadline q

/-- SEND_COMPLETE (10 R322). The NX engine reports a response SEND complete and the slot returns to the receive queue.
-/
def execSendComplete (nx : Nat) (q : Nat) (_ok : Bool) (s : State) : Answer := s.after fun s => s.sendDone nx q

/-- SERVICE_START (10 R309). After partition bring-up the general complex checks the service table, runs start entries
and stocks listeners. -/
def execServiceStart (io : Io) (s : State) : Answer := s.after fun s => s.unlessStopped fun s => s.serviceStarted io

/-- LISTENER_OPEN (10 R311). A listener opens when its OPEN_FENCE reaches OPEN_VALUE, and its context takes a
permanent resident slot. -/
def execListenerOpen (l : Nat) (s : State) : Answer := s.after fun s => s.unlessStopped fun s => s.openListener l

/-- SERVICE_ACTIVATE (10 R327). A write of 1 to MH_SVC_CTRL.ACTIVATE replaces the class, listener and model tables
from the staging area, or sets ACT_FAILED. -/
def execServiceActivate (s : State) : Answer := s.after fun s => s.pfWrite 0x80000 4 1

end Sys2Proof.Machine
end

