-- ==== Sys2Proof/Machine/ExecTables.lean ====
section
/-! DEFINITION. The meaning of each command: embedding tables, epochs and the lookup marshal. -/
namespace Sys2Proof.Machine

/-- TABLE_CREATE (08 R257). Admin opcode 0xE0 creates a LOADING embedding table and starts its copy or zeroing on the
TX engines. -/
def execTableCreate (p : Nat) (e : Cmd) (s : State) : Answer := s.after fun s => s.startAt (.ring p 0) 0xE0 e

/-- TABLE_LOAD_DONE (08 R258). The table's creation work ends; it becomes READY or LOAD_FAILED and its fence is
signalled or failed. -/
def execTableLoadDone (p : Nat) (t : Nat) (io : Io) (s : State) : Answer := s.after fun s => s.tableLoadEnds p t io

/-- TABLE_STAGE (08 R259). Admin opcode 0xE1 queues a stage of rows into the table's open set. -/
def execTableStage (p : Nat) (e : Cmd) (s : State) : Answer := s.after fun s => s.startAt (.ring p 0) 0xE1 e

/-- TABLE_STAGE_DONE (08 R260). A stage's copy ends; its fence is signalled, or at a failure the open set and fence
are marked FAILED. -/
def execTableStageDone (p : Nat) (t : Nat) (io : Io) (s : State) : Answer := s.after fun s => s.tableStageEnds p t io

/-- TABLE_COMMIT (08 R261). Admin opcode 0xE2 commits or discards the open set and optionally requests a flip. -/
def execTableCommit (p : Nat) (e : Cmd) (s : State) : Answer := s.after fun s => s.startAt (.ring p 0) 0xE2 e

/-- TABLE_DESTROY (08 R262). Admin opcode 0xE3 destroys a table, abandoning its background work. -/
def execTableDestroy (p : Nat) (e : Cmd) (s : State) : Answer := s.after fun s => s.startAt (.ring p 0) 0xE3 e

/-- TABLE_QUERY (08 R263). Admin opcode 0xE4 writes a 64-byte report of a table. -/
def execTableQuery (p : Nat) (e : Cmd) (s : State) : Answer := s.after fun s => s.startAt (.ring p 0) 0xE4 e

/-- EPOCH_FLIP_WRITE (08 R247). A write of 1 to MH_EPOCH_CTRL.FLIP requests a flip. -/
def execEpochFlipWrite (s : State) : Answer := s.after fun s => s.pfWrite 0x60008 1 1

/-- CARRIED_FILL_DONE (08 R247). Coppice completes the fills of the carried sets and schedules the flip for the next
boundary. -/
def execCarriedFillDone (io : Io) (s : State) : Answer := s.after fun s => s.carriedFillEnds io

/-- PREVIOUS_EPOCH_RETIRE (08 R249). The last pin on the previous epoch drops; it is retired and CATCHUP begins. -/
def execPreviousEpochRetire (s : State) : Answer := s.after fun s => s.retirePrevious

/-- GRACE_EXPIRY (08 R249). The grace period after a flip expires and every holder of the previous epoch is aborted
urgently with CS_EPOCH_EXPIRED. -/
def execGraceExpiry (s : State) : Answer := s.after fun s => s.graceExpires

/-- CATCHUP_DONE (08 R247). Catch-up finishes copying halves and freeing retired slots, and the phase returns to OPEN.
-/
def execCatchupDone (s : State) : Answer := s.after fun s => s.catchupEnds

/-- EPOCH_FLIT_REQUEST (08 R254). The coordinator receives a REQUEST flit and registers the flip request. -/
def execEpochFlitRequest (f : Flit) (s : State) : Answer := s.after fun s => s.epochFlit 1 f

/-- EPOCH_FLIT_PREPARE (08 R254). A chip receives PREPARE and enters PREPARE at its effective tick. -/
def execEpochFlitPrepare (f : Flit) (s : State) : Answer := s.after fun s => s.epochFlit 2 f

/-- EPOCH_FLIT_READY (08 R254). The coordinator receives READY from a chip whose carried fills are done. -/
def execEpochFlitReady (f : Flit) (s : State) : Answer := s.after fun s => s.epochFlit 3 f

/-- EPOCH_FLIT_FLIP (08 R255). A chip receives FLIP and flips at its effective tick, or late at its next boundary. -/
def execEpochFlitFlip (f : Flit) (s : State) : Answer := s.after fun s => s.epochFlit 4 f

/-- EPOCH_FLIT_CLEAR (08 R254). The coordinator receives CLEAR from a chip with no pin on the previous epoch. -/
def execEpochFlitClear (f : Flit) (s : State) : Answer := s.after fun s => s.epochFlit 5 f

/-- EPOCH_FLIT_RETIRE (08 R254). A chip receives RETIRE and retires the previous epoch once its aborted holders
complete, entering CATCHUP. -/
def execEpochFlitRetire (f : Flit) (s : State) : Answer := s.after fun s => s.epochFlit 6 f

/-- EPOCH_FLIT_CANCEL (08 R254). A chip receives CANCEL and returns to OPEN, keeping filled next halves. -/
def execEpochFlitCancel (f : Flit) (s : State) : Answer := s.after fun s => s.epochFlit 7 f

/-- FLIP_WAIT_EXPIRY (08 R254). FLIP_WAIT_MS passes without all READY or CLEAR and the coordinator sends CANCEL or
RETIRE. -/
def execFlipWaitExpiry (s : State) : Answer := s.after fun s => s.flipWaitExpires

/-- BATCH_CLOSE (08 R235). A marshal batch closes on its window, idleness or size; it is sorted, merged and packed
into gather segments. -/
def execBatchClose (s : State) : Answer := s.after fun s => s.batchCloses

/-- REORDER_ADJUST (08 R239). At the end of each 4,096-tick interval with GATHER traffic the reorder window w is
adapted and the admission sketch cleared. -/
def execReorderAdjust (eff : Nat) (s : State) : Answer := s.after fun s => s.unlessStopped fun s => s.adjustWindow eff

/-- HOTROW_INVALIDATE (08 R265). A write of 1 to MH_HOTROW_CTRL.INVALIDATE empties the hot-row cache and clears
HOTROW_WARM. -/
def execHotrowInvalidate (s : State) : Answer := s.after fun s => s.pfWrite 0x60218 4 1

/-- XCHG_REQUEST_SEGMENT (09 R297). A server receives a remote lookup request segment, resolves its rows and sends a
reply segment. -/
def execXchgRequestSegment (chip xid part epoch key : Nat) (frames : List (List Word)) (mark : SegMark) (s : State) : Answer :=
  s.after fun s => s.unlessStopped fun s => s.requestSegment chip xid part epoch key frames mark

/-- XCHG_REPLY_SEGMENT (09 R297). A requester receives a reply segment and delivers its rows and statuses to the
GATHER. -/
def execXchgReplySegment (chip xid rowBytes : Nat) (frames : List (List Word)) (mark : SegMark) (lost : Lost) (s : State) : Answer :=
  s.after fun s => s.unlessStopped fun s => (s.noteLost lost).replySegment chip xid rowBytes frames mark lost

/-- XCHG_CANCEL (09 R299). A COLLECTIVE CANCEL flit ends an exchange at its effective tick, dropping the server's pin.
-/
def execXchgCancel (f : Flit) (s : State) : Answer := s.after fun s => s.heldKind 0x40 f

/-- XCHG_OVERDUE (09 R300). XCHG_MS passes without a LAST reply; awaiting positions fail with CS_ACCESS 0x0228 and
CANCEL is sent. -/
def execXchgOverdue (xid : Nat) (s : State) : Answer := s.after fun s => s.unlessStopped fun s => s.xchgOverdue xid

end Sys2Proof.Machine
end

