-- ==== Sys2Proof/Machine/ExecTrace.lean ====
section
/-! DEFINITION. The meaning of each command: counters and trace. -/
namespace Sys2Proof.Machine

/-- PART_CNT_LATCH (15 R425). A write of 1 to MH_PART_CNT_CTRL.LATCH copies the partition counters into the latched
bank at the next boundary. -/
def execPartCntLatch (p : Nat) (s : State) : Answer :=
  s.after fun s => s.regWrite { who := .vf p, addr := 0x80000, bytes := 4, data := 1 } s.boot.straps false

/-- GCNT_LATCH (15 R425). A write of 1 to MH_GCNT_CTRL.LATCH copies the global counters into the latched bank at the
next boundary. -/
def execGcntLatch (s : State) : Answer := s.after fun s => s.pfWrite 0xF0100 4 1

/-- TRACE_MARK (15 R431). A write to MH_TRACE_MARK raises a MARKER trace event carrying the value. -/
def execTraceMark (v : Nat) (s : State) : Answer := s.after fun s => s.pfWrite 0xF0048 8 (v % Config.two64)

/-- TRACE_START (15 R436). With ENABLE set, trace turns ON at START_TICK and its record count resets. -/
def execTraceStart (s : State) : Answer := s.after fun s => s.traceStart

/-- TRACE_STOP (15 R436). Trace turns OFF at STOP_TICK or when ENABLE is cleared. -/
def execTraceStop (s : State) : Answer := s.after fun s => s.traceStop

/-- PC_SAMPLE (15 R432). In every tick that is a multiple of SAMPLE_TICKS the sampler reads one sequencer's state and
sends a PC_SAMPLE message. -/
def execPcSample (s : State) : Answer := s.after fun s => s.pcSample

/-- MGMT_ACCESS (15 R439). A JTAG MGMT_ACCESS scan performs a management-window read or write with PF rights at
Update-DR. -/
def execMgmtAccess (a : RegAcc) (write : Bool) (s : State) : Answer := s.after fun s => s.mgmtAccess a write

end Sys2Proof.Machine
end

