-- ==== Sys2Proof/Machine/Dispatch.lean ====
section
/-! DEFINITION. One arm for each command: its meaning. -/
namespace Sys2Proof.Machine
open Host

/-- The effect of a command on everything but the queue of waiting commands. -/
def exec (i : Instr) (s : State) : Host.Outcome State Fault Refusal :=
  match i with
  | .tickBoundary unanswered errs => Sys2Proof.Machine.execTickBoundary unanswered errs s
  | .dispatchMessage ep stamp => Sys2Proof.Machine.execDispatchMessage ep stamp s
  | .segmentDone ep r => Sys2Proof.Machine.execSegmentDone ep r s
  | .nodeDone ep r => Sys2Proof.Machine.execNodeDone ep r s
  | .fenceSignalMessage p f v => Sys2Proof.Machine.execFenceSignalMessage p f v s
  | .abortMessage ep => Sys2Proof.Machine.execAbortMessage ep s
  | .stopMessage ep => Sys2Proof.Machine.execStopMessage ep s
  | .freezeReport ep words => Sys2Proof.Machine.execFreezeReport ep words s
  | .traceMessage m => Sys2Proof.Machine.execTraceMessage m s
  | .timeExchange => Sys2Proof.Machine.execTimeExchange s
  | .timeReq f t2 t3 => Sys2Proof.Machine.execTimeReq f t2 t3 s
  | .timeResp f t4 asym => Sys2Proof.Machine.execTimeResp f t4 asym s
  | .timeAnnounce f neighbour => Sys2Proof.Machine.execTimeAnnounce f neighbour s
  | .ftAlignTimeout => Sys2Proof.Machine.execFtAlignTimeout s
  | .linkDown link => Sys2Proof.Machine.execLinkDown link s
  | .linkEcho f => Sys2Proof.Machine.execLinkEcho f s
  | .refusal f => Sys2Proof.Machine.execRefusal f s
  | .fenceSignalFlit f => Sys2Proof.Machine.execFenceSignalFlit f s
  | .fenceFailFlit f => Sys2Proof.Machine.execFenceFailFlit f s
  | .fenceRefresh => Sys2Proof.Machine.execFenceRefresh s
  | .calendarSecond => Sys2Proof.Machine.execCalendarSecond s
  | .calTimeWrite v => Sys2Proof.Machine.execCalTimeWrite v s
  | .calCaptureRead who => Sys2Proof.Machine.execCalCaptureRead who s
  | .ptpEvent nx ftc sec sub utc nsErr => Sys2Proof.Machine.execPtpEvent nx ftc sec sub utc nsErr s
  | .ringPiWrite p r pi => Sys2Proof.Machine.execRingPiWrite p r pi s
  | .ringDoorbell p r => Sys2Proof.Machine.execRingDoorbell p r s
  | .ringEnable p r => Sys2Proof.Machine.execRingEnable p r s
  | .ringDisable p r => Sys2Proof.Machine.execRingDisable p r s
  | .ringResume p r => Sys2Proof.Machine.execRingResume p r s
  | .ctxFaultClear p c => Sys2Proof.Machine.execCtxFaultClear p c s
  | .hostFenceSignal p f bytes v => Sys2Proof.Machine.execHostFenceSignal p f bytes v s
  | .hostFenceFail p f => Sys2Proof.Machine.execHostFenceFail p f s
  | .partitionEnable p => Sys2Proof.Machine.execPartitionEnable p s
  | .partitionDisable p => Sys2Proof.Machine.execPartitionDisable p s
  | .vfEnable p => Sys2Proof.Machine.execVfEnable p s
  | .vfDisable p => Sys2Proof.Machine.execVfDisable p s
  | .vfFlr p => Sys2Proof.Machine.execVfFlr p s
  | .shearsTeardown p => Sys2Proof.Machine.execShearsTeardown p s
  | .teardownEscalate p => Sys2Proof.Machine.execTeardownEscalate p s
  | .teardownDone p => Sys2Proof.Machine.execTeardownDone p s
  | .registerWrite a => Sys2Proof.Machine.execRegisterWrite a s
  | .rcRead a => Sys2Proof.Machine.execRcRead a s
  | .lowWordRead a => Sys2Proof.Machine.execLowWordRead a s
  | .msixUnmask p v => Sys2Proof.Machine.execMsixUnmask p v s
  | .atsInvalidation p c page => Sys2Proof.Machine.execAtsInvalidation p c page s
  | .atsInvalidationAnswer p c page => Sys2Proof.Machine.execAtsInvalidationAnswer p c page s
  | .contextLoadStart p c => Sys2Proof.Machine.execContextLoadStart p c s
  | .contextLoadDone p c => Sys2Proof.Machine.execContextLoadDone p c s
  | .contextLost p c => Sys2Proof.Machine.execContextLost p c s
  | .entryArrival p r io => Sys2Proof.Machine.execEntryArrival p r io s
  | .fetchFault p r why => Sys2Proof.Machine.execFetchFault p r why s
  | .entryStart p r parity => Sys2Proof.Machine.execEntryStart p r parity s
  | .routineResume w io parity => Sys2Proof.Machine.execRoutineResume w io parity s
  | .nodeRelease l j parity => Sys2Proof.Machine.execNodeRelease l j parity s
  | .ringTimeout p r seq => Sys2Proof.Machine.execRingTimeout p r seq s
  | .nop at_ e => Sys2Proof.Machine.execNop at_ e s
  | .launch at_ e => Sys2Proof.Machine.execLaunch at_ e s
  | .dispatch at_ e => Sys2Proof.Machine.execDispatch at_ e s
  | .descriptorArrival l j w io => Sys2Proof.Machine.execDescriptorArrival l j w io s
  | .gather at_ e => Sys2Proof.Machine.execGather at_ e s
  | .route at_ e => Sys2Proof.Machine.execRoute at_ e s
  | .routeUnitGrant w => Sys2Proof.Machine.execRouteUnitGrant w s
  | .groupedMm at_ e => Sys2Proof.Machine.execGroupedMm at_ e s
  | .fenceWait at_ e => Sys2Proof.Machine.execFenceWait at_ e s
  | .fenceSignal at_ e => Sys2Proof.Machine.execFenceSignal at_ e s
  | .writeValue at_ e => Sys2Proof.Machine.execWriteValue at_ e s
  | .copy at_ e => Sys2Proof.Machine.execCopy at_ e s
  | .timestamp at_ e => Sys2Proof.Machine.execTimestamp at_ e s
  | .cond at_ e => Sys2Proof.Machine.execCond at_ e s
  | .loop at_ e => Sys2Proof.Machine.execLoop at_ e s
  | .callGraph at_ e => Sys2Proof.Machine.execCallGraph at_ e s
  | .feed at_ e => Sys2Proof.Machine.execFeed at_ e s
  | .predicateReadReturn w io => Sys2Proof.Machine.execPredicateReadReturn w io s
  | .childReservation w => Sys2Proof.Machine.execChildReservation w s
  | .ctxCreate p e => Sys2Proof.Machine.execCtxCreate p e s
  | .ctxDestroy p e => Sys2Proof.Machine.execCtxDestroy p e s
  | .ringCreate p e => Sys2Proof.Machine.execRingCreate p e s
  | .ringConfig p e => Sys2Proof.Machine.execRingConfig p e s
  | .ringDestroy p e => Sys2Proof.Machine.execRingDestroy p e s
  | .ringQuery p e => Sys2Proof.Machine.execRingQuery p e s
  | .abort p e => Sys2Proof.Machine.execAbort p e s
  | .graphLoad p e => Sys2Proof.Machine.execGraphLoad p e s
  | .graphPatch p e => Sys2Proof.Machine.execGraphPatch p e s
  | .graphUnload p e => Sys2Proof.Machine.execGraphUnload p e s
  | .graphQuery p e => Sys2Proof.Machine.execGraphQuery p e s
  | .graphImageReadDone io => Sys2Proof.Machine.execGraphImageReadDone io s
  | .fenceAlloc p e => Sys2Proof.Machine.execFenceAlloc p e s
  | .fenceFree p e => Sys2Proof.Machine.execFenceFree p e s
  | .fenceExport p e => Sys2Proof.Machine.execFenceExport p e s
  | .fenceImport p e => Sys2Proof.Machine.execFenceImport p e s
  | .fenceQuery p e => Sys2Proof.Machine.execFenceQuery p e s
  | .overflowPoll => Sys2Proof.Machine.execOverflowPoll s
  | .memAlloc p e => Sys2Proof.Machine.execMemAlloc p e s
  | .memFree p e => Sys2Proof.Machine.execMemFree p e s
  | .postingFailure p r why => Sys2Proof.Machine.execPostingFailure p r why s
  | .postingRetry p r fails => Sys2Proof.Machine.execPostingRetry p r fails s
  | .tableCreate p e => Sys2Proof.Machine.execTableCreate p e s
  | .tableLoadDone p t io => Sys2Proof.Machine.execTableLoadDone p t io s
  | .tableStage p e => Sys2Proof.Machine.execTableStage p e s
  | .tableStageDone p t io => Sys2Proof.Machine.execTableStageDone p t io s
  | .tableCommit p e => Sys2Proof.Machine.execTableCommit p e s
  | .tableDestroy p e => Sys2Proof.Machine.execTableDestroy p e s
  | .tableQuery p e => Sys2Proof.Machine.execTableQuery p e s
  | .epochFlipWrite => Sys2Proof.Machine.execEpochFlipWrite s
  | .carriedFillDone io => Sys2Proof.Machine.execCarriedFillDone io s
  | .previousEpochRetire => Sys2Proof.Machine.execPreviousEpochRetire s
  | .graceExpiry => Sys2Proof.Machine.execGraceExpiry s
  | .catchupDone => Sys2Proof.Machine.execCatchupDone s
  | .epochFlitRequest f => Sys2Proof.Machine.execEpochFlitRequest f s
  | .epochFlitPrepare f => Sys2Proof.Machine.execEpochFlitPrepare f s
  | .epochFlitReady f => Sys2Proof.Machine.execEpochFlitReady f s
  | .epochFlitFlip f => Sys2Proof.Machine.execEpochFlitFlip f s
  | .epochFlitClear f => Sys2Proof.Machine.execEpochFlitClear f s
  | .epochFlitRetire f => Sys2Proof.Machine.execEpochFlitRetire f s
  | .epochFlitCancel f => Sys2Proof.Machine.execEpochFlitCancel f s
  | .flipWaitExpiry => Sys2Proof.Machine.execFlipWaitExpiry s
  | .batchClose => Sys2Proof.Machine.execBatchClose s
  | .reorderAdjust eff => Sys2Proof.Machine.execReorderAdjust eff s
  | .hotrowInvalidate => Sys2Proof.Machine.execHotrowInvalidate s
  | .xchgRequestSegment chip xid part epoch key frames mark => Sys2Proof.Machine.execXchgRequestSegment chip xid part epoch key frames mark s
  | .xchgReplySegment chip xid rowBytes frames mark lost => Sys2Proof.Machine.execXchgReplySegment chip xid rowBytes frames mark lost s
  | .xchgCancel f => Sys2Proof.Machine.execXchgCancel f s
  | .xchgOverdue xid => Sys2Proof.Machine.execXchgOverdue xid s
  | .expertLayerCreate p e => Sys2Proof.Machine.execExpertLayerCreate p e s
  | .expertLayerDestroy p e => Sys2Proof.Machine.execExpertLayerDestroy p e s
  | .expertBiasSet p e => Sys2Proof.Machine.execExpertBiasSet p e s
  | .expertLayerQuery p e => Sys2Proof.Machine.execExpertLayerQuery p e s
  | .biasPeriod => Sys2Proof.Machine.execBiasPeriod s
  | .biasSnapshot => Sys2Proof.Machine.execBiasSnapshot s
  | .receiveDescriptor nx slot bytes qpn rx arrival => Sys2Proof.Machine.execReceiveDescriptor nx slot bytes qpn rx arrival s
  | .requestHeaderArrival q io => Sys2Proof.Machine.execRequestHeaderArrival q io s
  | .requestDeadline q => Sys2Proof.Machine.execRequestDeadline q s
  | .sendComplete nx q ok => Sys2Proof.Machine.execSendComplete nx q ok s
  | .serviceStart io => Sys2Proof.Machine.execServiceStart io s
  | .listenerOpen l => Sys2Proof.Machine.execListenerOpen l s
  | .serviceActivate => Sys2Proof.Machine.execServiceActivate s
  | .segmentWatchdog ep => Sys2Proof.Machine.execSegmentWatchdog ep s
  | .hangDeclare ep words => Sys2Proof.Machine.execHangDeclare ep words s
  | .endpointFailed ep words => Sys2Proof.Machine.execEndpointFailed ep words s
  | .coreFenceWrite core => Sys2Proof.Machine.execCoreFenceWrite core s
  | .machineCheck part detail => Sys2Proof.Machine.execMachineCheck part detail s
  | .globalStopRequest a => Sys2Proof.Machine.execGlobalStopRequest a s
  | .globalStopResume a => Sys2Proof.Machine.execGlobalStopResume a s
  | .globalStopAbandon a => Sys2Proof.Machine.execGlobalStopAbandon a s
  | .stopFlit f => Sys2Proof.Machine.execStopFlit f s
  | .resumeFlit f => Sys2Proof.Machine.execResumeFlit f s
  | .abandonFlit f => Sys2Proof.Machine.execAbandonFlit f s
  | .snapshotDone => Sys2Proof.Machine.execSnapshotDone s
  | .hangClear => Sys2Proof.Machine.execHangClear s
  | .processorCrash n cause pc info => Sys2Proof.Machine.execProcessorCrash n cause pc info s
  | .processorRestart n => Sys2Proof.Machine.execProcessorRestart n s
  | .dutyReturn d => Sys2Proof.Machine.execDutyReturn d s
  | .cccGateTimeout n => Sys2Proof.Machine.execCccGateTimeout n s
  | .fwStage ok => Sys2Proof.Machine.execFwStage ok s
  | .fwActivate => Sys2Proof.Machine.execFwActivate s
  | .fwSwitch n => Sys2Proof.Machine.execFwSwitch n s
  | .fwAbort => Sys2Proof.Machine.execFwAbort s
  | .fwCommitSvn => Sys2Proof.Machine.execFwCommitSvn s
  | .crashClear => Sys2Proof.Machine.execCrashClear s
  | .flashWriteDone => Sys2Proof.Machine.execFlashWriteDone s
  | .mctpMessage eid mtype body => Sys2Proof.Machine.execMctpMessage eid mtype body s
  | .spdmRequest eid code body => Sys2Proof.Machine.execSpdmRequest eid code body s
  | .pldmRequest eid code body => Sys2Proof.Machine.execPldmRequest eid code body s
  | .sensorUpdate readings => Sys2Proof.Machine.execSensorUpdate readings s
  | .icClaim n => Sys2Proof.Machine.execIcClaim n s
  | .icComplete n src => Sys2Proof.Machine.execIcComplete n src s
  | .icDoorbell n bits => Sys2Proof.Machine.execIcDoorbell n bits s
  | .icTimer n t => Sys2Proof.Machine.execIcTimer n t s
  | .wdtWarn n => Sys2Proof.Machine.execWdtWarn n s
  | .patchDataWrite who v => Sys2Proof.Machine.execPatchDataWrite who v s
  | .dispatchEntryWrite who v => Sys2Proof.Machine.execDispatchEntryWrite who v s
  | .patchLock who => Sys2Proof.Machine.execPatchLock who s
  | .transferRequest input cycle sectors => Sys2Proof.Machine.execTransferRequest input cycle sectors s
  | .powerOnReset straps => Sys2Proof.Machine.execPowerOnReset straps s
  | .perstDeassert straps => Sys2Proof.Machine.execPerstDeassert straps s
  | .mahornResetWrite a => Sys2Proof.Machine.execMahornResetWrite a s
  | .moduleResetWrite a straps => Sys2Proof.Machine.execModuleResetWrite a straps s
  | .pfFlr => Sys2Proof.Machine.execPfFlr s
  | .pageClearDone => Sys2Proof.Machine.execPageClearDone s
  | .partitionBringup failed => Sys2Proof.Machine.execPartitionBringup failed s
  | .emergencyLevelChange watts celsius => Sys2Proof.Machine.execEmergencyLevelChange watts celsius s
  | .hwTrip thermal => Sys2Proof.Machine.execHwTrip thermal s
  | .engineFreqChange ep step => Sys2Proof.Machine.execEngineFreqChange ep step s
  | .partCntLatch p => Sys2Proof.Machine.execPartCntLatch p s
  | .gcntLatch => Sys2Proof.Machine.execGcntLatch s
  | .traceMark v => Sys2Proof.Machine.execTraceMark v s
  | .traceStart => Sys2Proof.Machine.execTraceStart s
  | .traceStop => Sys2Proof.Machine.execTraceStop s
  | .pcSample => Sys2Proof.Machine.execPcSample s
  | .mgmtAccess a write => Sys2Proof.Machine.execMgmtAccess a write s
  | .modulePowerLoss => Sys2Proof.Machine.execModulePowerLoss s
  | .orderlyShutdown => Sys2Proof.Machine.execOrderlyShutdown s
  | .backupCellLow => Sys2Proof.Machine.execBackupCellLow s
  | .crystalStop => Sys2Proof.Machine.execCrystalStop s
  | .peerLinkUp link chip lat => Sys2Proof.Machine.execPeerLinkUp link chip lat s
  | .hostLinkRetrain gen => Sys2Proof.Machine.execHostLinkRetrain gen s
  | .msixMask p v => Sys2Proof.Machine.execMsixMask p v s
  | .atsEnableChange on => Sys2Proof.Machine.execAtsEnableChange on s
  | .flitRelay f => Sys2Proof.Machine.execFlitRelay f s
  | .unknownKindFlit f => Sys2Proof.Machine.execUnknownKindFlit f s
  | .receiverNotReady l => Sys2Proof.Machine.execReceiverNotReady l s
  | .fillDone io => Sys2Proof.Machine.execFillDone io s

end Sys2Proof.Machine
end

