-- ==== Sys2Proof/Machine/Step.lean ====
section
/-! DEFINITION. One step: the command at the front of the queue is carried out. -/
namespace Sys2Proof.Machine

/-- The command at the front of the queue runs on the state with the queue's rest. With no command waiting the block idles
(notes/assumptions/1.md).
Mark: DESIGN CHOICE (notes/assumptions/1, 8, 9.md). -/
def step (s : State) : Host.Outcome State Fault Refusal :=
  match s.pending with
  | [] => .next s
  | c :: rest => exec c { s with pending := rest }

/-- The state with the command that a word spells put at the front of its queue, unchanged where it spells none.
Mark: DESIGN CHOICE (notes/assumptions/8.md). -/
def State.withFetchWord (s : State) (nbits w : Nat) : State :=
  match decodeTableWord nbits w with
  | some c => { s with pending := c :: s.pending }
  | none => s

end Sys2Proof.Machine
end

