-- ==== Sys2Proof/WellFormed.lean ====
section
/-! DEFINITION. Which commands are well formed: every number that a command names lies in the range that the spec gives
it.
Every meaning is total and answers for ill-formed commands too; a sender that keeps to the spec sends none. -/
namespace Sys2Proof

/-- A partition of the chip (00 R10). -/
def partOk (p : Nat) : Bool := decide (p < 128)
/-- A local ring number (03 R78). -/
def ringOk (r : Nat) : Bool := decide (r < 2 ^ 14)
/-- A local context number (02 R58). -/
def ctxOk (c : Nat) : Bool := decide (c < 2 ^ 12)
/-- A local fence number (06 R176). -/
def fenceOk (f : Nat) : Bool := decide (f < 2 ^ 20)
/-- A local table number (08 R228). -/
def tableOk (t : Nat) : Bool := decide (t < 2 ^ 12)
/-- An engine endpoint (00 R5). -/
def epOk (e : Nat) : Bool := decide (e < 526)
/-- A core (00 R5). -/
def coreOk (c : Nat) : Bool := decide (c < 128)
/-- A peer link (00 R10). -/
def linkOk (l : Nat) : Bool := decide (l < 8)
/-- A chip ID (01 R36). -/
def chipOk (c : Nat) : Bool := decide (c < 2 ^ 15)
/-- A firmware processor (12 R353, R374). -/
def procOk (n : Nat) : Bool := decide (n < 19)
/-- A duty of firmware (12 R353). -/
def dutyOk (d : Nat) : Bool := decide (d < 14)
/-- An NX engine (00 R5). -/
def nxOk (n : Nat) : Bool := decide (n < 2)
/-- A listener (10 R306). -/
def listenOk (l : Nat) : Bool := decide (l < 16)
/-- An MSI-X vector, or the function as a whole (07 R208). -/
def vecOk : Option Nat → Bool
  | some v => decide (v < 256)
  | none => true
/-- A number of so many bits. -/
def bitsOk (w n : Nat) : Bool := decide (n < 2 ^ w)
/-- The words of a command: at most 256 granules of 16 bytes (03, entry header). -/
def cmdOk (e : Cmd) : Bool := decide (2 ≤ e.length ∧ e.length ≤ 512) && e.length % 2 == 0
/-- A node of a graph (05 R150). -/
def nodeOk (i : Nat) : Bool := decide (i < 4096)
/-- Where a command stands. -/
def siteOk : Site → Bool
  | .ring p r => partOk p && ringOk r
  | .node _ i => nodeOk i
/-- A flit's fields fit their places (01 R36). -/
def flitOk (f : Flit) : Bool :=
  bitsOk 8 f.kind && bitsOk 8 f.hops && bitsOk 16 f.src && bitsOk 16 f.dst && bitsOk 16 f.seq &&
    bitsOk 64 f.eff && bitsOk 32 f.inc
/-- Who accesses a register. -/
def agentOk : Agent → Bool
  | .vf p => partOk p
  | .pf => true
  | .proc n => procOk n
  | .jtag => true
/-- A register access: 1 to 64 bytes, and data of so many bytes (02 R52). -/
def accOk (a : RegAcc) : Bool := agentOk a.who && decide (1 ≤ a.bytes ∧ a.bytes ≤ 64) && decide (a.data < 256 ^ a.bytes) &&
  a.skip.all fun i => decide (i < a.bytes)
/-- A microword parity error (13 R381). -/
def parityOk : Option Parity → Bool
  | some y => decide (y.seqr < 32)
  | none => true
/-- An engine's report: its code and DETAIL have 8 and 16 bits. -/
def reportOk (r : SegReport) : Bool :=
  bitsOk 8 r.code && bitsOk 16 r.detail && (match r.part with | some p => partOk p | none => true)
/-- An error of the memory system. -/
def memErrOk : MemErr → Bool
  | .corrected _ => true
  | .fence p f => partOk p && fenceOk f
  | .listed p f => partOk p && fenceOk f
  | .cacheLine _ => true
  | .mapSector p t _ => partOk p && tableOk t
  | .idxSector _ => true

/-- A TRACE message: its source and event have 10 and 8 bits, DATA three words (15 R428). -/
def traceOk (m : TraceMsg) : Bool :=
  bitsOk 10 m.src && bitsOk 8 m.event && decide (m.offset < 64) && bitsOk 32 m.d0 && bitsOk 32 m.d1 && bitsOk 32 m.d2

/-- What the frames of a segment carry beside the header's 64 bytes: none is longer than 2 KiB with them (09 R298). -/
def framesOk (fs : List (List Word)) : Bool :=
  decide ((fs.headD []).length ≤ 248) && fs.all fun f => decide (f.length ≤ 256)
/-- The fields of a segment's header (09 R298). -/
def markOk (m : SegMark) : Bool := bitsOk 1 m.dir && bitsOk 32 m.rows && bitsOk 32 m.no && bitsOk 8 m.status

/-- Is a command well formed? -/
def Instr.wellFormed : Instr → Bool
  | .tickBoundary unanswered errs => (unanswered.all fun x => partOk x.1 && ringOk x.2.1) && errs.all memErrOk
  | .dispatchMessage ep _ => epOk ep
  | .segmentDone ep r => epOk ep && reportOk r
  | .nodeDone ep r => epOk ep && reportOk r
  | .fenceSignalMessage p f v => partOk p && fenceOk f && bitsOk 64 v
  | .abortMessage ep => epOk ep
  | .stopMessage ep => epOk ep
  | .freezeReport ep _ => epOk ep
  | .traceMessage m => traceOk m
  | .timeExchange => true
  | .timeReq f _ _ => flitOk f
  | .timeResp f _ _ => flitOk f
  | .timeAnnounce f neighbour => flitOk f && chipOk neighbour
  | .ftAlignTimeout => true
  | .linkDown link => linkOk link.link && link.unacked.all fun u => decide (u.1 < 2 ^ 15 ∧ u.2.1 < 2 ^ 16 ∧ u.2.2 < 2 ^ 16)
  | .linkEcho f => flitOk f
  | .refusal f => flitOk f
  | .fenceSignalFlit f => flitOk f
  | .fenceFailFlit f => flitOk f
  | .fenceRefresh => true
  | .calendarSecond => true
  | .calTimeWrite _ => true
  | .calCaptureRead who => agentOk who
  | .ptpEvent nx _ _ sub _ _ => nxOk nx.nx && decide (nx.domain < 256) && decide (sub < 32768)
  | .ringPiWrite p r pi => partOk p && ringOk r && bitsOk 32 pi
  | .ringDoorbell p r => partOk p && ringOk r
  | .ringEnable p r => partOk p && ringOk r
  | .ringDisable p r => partOk p && ringOk r
  | .ringResume p r => partOk p && ringOk r
  | .ctxFaultClear p c => partOk p && ctxOk c
  | .hostFenceSignal p f bytes v => partOk p && fenceOk f && decide (bytes ≤ 8) && bitsOk 64 v
  | .hostFenceFail p f => partOk p && fenceOk f
  | .partitionEnable p => partOk p
  | .partitionDisable p => partOk p
  | .vfEnable p => partOk p
  | .vfDisable p => partOk p
  | .vfFlr p => partOk p
  | .shearsTeardown p => partOk p
  | .teardownEscalate p => partOk p
  | .teardownDone p => partOk p
  | .registerWrite a => accOk a
  | .rcRead a => accOk a
  | .lowWordRead a => accOk a
  | .msixUnmask p v => partOk p && vecOk v
  | .atsInvalidation p c _ => partOk p && ctxOk c
  | .atsInvalidationAnswer p c _ => partOk p && ctxOk c
  | .contextLoadStart p c => partOk p && ctxOk c
  | .contextLoadDone p c => partOk p && ctxOk c
  | .contextLost p c => partOk p && ctxOk c
  | .entryArrival p r _ => partOk p && ringOk r
  | .fetchFault p r _ => partOk p && ringOk r
  | .entryStart p r parity => partOk p && ringOk r && parityOk parity
  | .routineResume _ _ parity => parityOk parity
  | .nodeRelease _ i parity => nodeOk i && parityOk parity
  | .ringTimeout p r _ => partOk p && ringOk r
  | .nop at_ e => siteOk at_ && cmdOk e
  | .launch at_ e => siteOk at_ && cmdOk e
  | .dispatch at_ e => siteOk at_ && cmdOk e
  | .descriptorArrival _ i _ _ => nodeOk i
  | .gather at_ e => siteOk at_ && cmdOk e
  | .route at_ e => siteOk at_ && cmdOk e
  | .routeUnitGrant _ => true
  | .groupedMm at_ e => siteOk at_ && cmdOk e
  | .fenceWait at_ e => siteOk at_ && cmdOk e
  | .fenceSignal at_ e => siteOk at_ && cmdOk e
  | .writeValue at_ e => siteOk at_ && cmdOk e
  | .copy at_ e => siteOk at_ && cmdOk e
  | .timestamp at_ e => siteOk at_ && cmdOk e
  | .cond at_ e => siteOk at_ && cmdOk e
  | .loop at_ e => siteOk at_ && cmdOk e
  | .callGraph at_ e => siteOk at_ && cmdOk e
  | .feed at_ e => siteOk at_ && cmdOk e
  | .predicateReadReturn _ _ => true
  | .childReservation _ => true
  | .ctxCreate p e => partOk p && cmdOk e
  | .ctxDestroy p e => partOk p && cmdOk e
  | .ringCreate p e => partOk p && cmdOk e
  | .ringConfig p e => partOk p && cmdOk e
  | .ringDestroy p e => partOk p && cmdOk e
  | .ringQuery p e => partOk p && cmdOk e
  | .abort p e => partOk p && cmdOk e
  | .graphLoad p e => partOk p && cmdOk e
  | .graphPatch p e => partOk p && cmdOk e
  | .graphUnload p e => partOk p && cmdOk e
  | .graphQuery p e => partOk p && cmdOk e
  | .graphImageReadDone _ => true
  | .fenceAlloc p e => partOk p && cmdOk e
  | .fenceFree p e => partOk p && cmdOk e
  | .fenceExport p e => partOk p && cmdOk e
  | .fenceImport p e => partOk p && cmdOk e
  | .fenceQuery p e => partOk p && cmdOk e
  | .overflowPoll => true
  | .memAlloc p e => partOk p && cmdOk e
  | .memFree p e => partOk p && cmdOk e
  | .postingFailure p r _ => partOk p && ringOk r
  | .postingRetry p r _ => partOk p && ringOk r
  | .tableCreate p e => partOk p && cmdOk e
  | .tableLoadDone p t _ => partOk p && tableOk t
  | .tableStage p e => partOk p && cmdOk e
  | .tableStageDone p t _ => partOk p && tableOk t
  | .tableCommit p e => partOk p && cmdOk e
  | .tableDestroy p e => partOk p && cmdOk e
  | .tableQuery p e => partOk p && cmdOk e
  | .epochFlipWrite => true
  | .carriedFillDone _ => true
  | .previousEpochRetire => true
  | .graceExpiry => true
  | .catchupDone => true
  | .epochFlitRequest f => flitOk f
  | .epochFlitPrepare f => flitOk f
  | .epochFlitReady f => flitOk f
  | .epochFlitFlip f => flitOk f
  | .epochFlitClear f => flitOk f
  | .epochFlitRetire f => flitOk f
  | .epochFlitCancel f => flitOk f
  | .flipWaitExpiry => true
  | .batchClose => true
  | .reorderAdjust _ => true
  | .hotrowInvalidate => true
  | .xchgRequestSegment chip xid part epoch key frames mark =>
    chipOk chip && bitsOk 32 xid && partOk part && bitsOk 32 epoch && bitsOk 64 key && framesOk frames && markOk mark
  | .xchgReplySegment chip xid rowBytes frames mark _ =>
    chipOk chip && bitsOk 32 xid && bitsOk 16 rowBytes && framesOk frames && markOk mark
  | .xchgCancel f => flitOk f
  | .xchgOverdue _ => true
  | .expertLayerCreate p e => partOk p && cmdOk e
  | .expertLayerDestroy p e => partOk p && cmdOk e
  | .expertBiasSet p e => partOk p && cmdOk e
  | .expertLayerQuery p e => partOk p && cmdOk e
  | .biasPeriod => true
  | .biasSnapshot => true
  | .receiveDescriptor nx slot bytes qpn rx _ =>
    nxOk nx && bitsOk 32 slot && bitsOk 32 bytes && bitsOk 24 qpn && bitsOk 8 rx
  | .requestHeaderArrival _ _ => true
  | .requestDeadline _ => true
  | .sendComplete nx _ _ => nxOk nx
  | .serviceStart _ => true
  | .listenerOpen l => listenOk l
  | .serviceActivate => true
  | .segmentWatchdog ep => epOk ep
  | .hangDeclare ep _ => epOk ep
  | .endpointFailed ep _ => epOk ep
  | .coreFenceWrite core => coreOk core
  | .machineCheck part _ => decide (part < 4)
  | .globalStopRequest a => accOk a
  | .globalStopResume a => accOk a
  | .globalStopAbandon a => accOk a
  | .stopFlit f => flitOk f
  | .resumeFlit f => flitOk f
  | .abandonFlit f => flitOk f
  | .snapshotDone => true
  | .hangClear => true
  | .processorCrash n _ _ _ => procOk n
  | .processorRestart n => procOk n
  | .dutyReturn d => dutyOk d
  | .cccGateTimeout n => procOk n
  | .fwStage _ => true
  | .fwActivate => true
  | .fwSwitch n => procOk n
  | .fwAbort => true
  | .fwCommitSvn => true
  | .crashClear => true
  | .flashWriteDone => true
  | .mctpMessage eid _ _ => bitsOk 8 eid
  | .spdmRequest eid _ _ => bitsOk 8 eid
  | .pldmRequest eid _ _ => bitsOk 8 eid
  | .sensorUpdate _ => true
  | .icClaim n => procOk n
  | .icComplete n _ => procOk n
  | .icDoorbell n bits => procOk n && bitsOk 8 bits
  | .icTimer n t => procOk n && decide (t < 2)
  | .wdtWarn n => procOk n
  | .patchDataWrite who v => agentOk who && bitsOk 32 v
  | .dispatchEntryWrite who v => agentOk who && bitsOk 32 v
  | .patchLock who => agentOk who
  | .transferRequest input cycle _ => decide (input < 8) && decide (cycle < 128)
  | .powerOnReset straps => bitsOk 9 straps
  | .perstDeassert straps => bitsOk 9 straps
  | .mahornResetWrite a => accOk a
  | .moduleResetWrite a straps => accOk a && bitsOk 9 straps
  | .pfFlr => true
  | .pageClearDone => true
  | .partitionBringup failed => failed.all coreOk
  | .emergencyLevelChange _ _ => true
  | .hwTrip _ => true
  | .engineFreqChange ep step => epOk ep && decide (step ≤ 16)
  | .partCntLatch p => partOk p
  | .gcntLatch => true
  | .traceMark v => bitsOk 64 v
  | .traceStart => true
  | .traceStop => true
  | .pcSample => true
  | .mgmtAccess a _ => accOk a
  | .modulePowerLoss => true
  | .orderlyShutdown => true
  | .backupCellLow => true
  | .crystalStop => true
  | .peerLinkUp link chip _ => linkOk link && chipOk chip
  | .hostLinkRetrain gen => decide (gen ≤ 2)
  | .msixMask p v => partOk p && vecOk v
  | .atsEnableChange _ => true
  | .flitRelay f => flitOk f
  | .unknownKindFlit f => flitOk f
  | .receiverNotReady l => listenOk l
  | .fillDone _ => true

end Sys2Proof
end

