-- ==== Sys2Proof/Safety.lean ====
section
/-! DEFINITION. What a safe run is, in the terms that statements use: the machine goes on, memory keeps its canonical form, and
nothing of one command is left over for the next. -/
namespace Sys2Proof.Machine

/-- The outcome is a next state. -/
def Goes (o : Host.Outcome State Fault Refusal) : Prop := ∃ t, o = .next t

/-- The outcome is a next state of which something holds. -/
def GoesTo (o : Host.Outcome State Fault Refusal) (P : State → Prop) : Prop := ∃ t, o = .next t ∧ P t

/-- Between commands: memory is canonical, and no store or clearing of a command is open. -/
def State.settled (s : State) : Prop := Mem.wf s.mem = true ∧ s.stores = [] ∧ s.cleared = []

/-- Between commands, with module power. -/
def State.live (s : State) : Prop := s.settled ∧ s.boot.unpowered = false

/-- The command with words `e` and opcode `op` is accepted in this tick where it stands, as the staged entry of a ring or as a
ready node of a launch: `w` is the number of the started command `x`, `s1` the state in which its routine begins, `d` what is
known of its kernel descriptor. -/
def State.accepts (s : State) (at_ : Site) (op : Nat) (e : Cmd) (w : Nat) (s1 : State) (x : Work) (d : DescSt) : Prop :=
  (match at_ with
   | .ring p r => (∃ k st, s.ring? (pkey p r) = some k ∧ k.staged = some st ∧ st.words = withOpcode op e) ∧
       ∃ s0, s.takeEntry p r none = some (w, s0) ∧ s1 = s0.noteRun w ∧ d = .notNeeded
   | .node l i => (∃ y, s.launch? l = some y ∧ s.effBody y i = withOpcode op e) ∧
       ∃ s0, s.takeNode l i none = some (w, s0, d) ∧ s1 = s0.noteRun w) ∧
  s1.work? w = some x ∧ opcodeOf x.cmd = op

/-- An accepted command passes every check of its start, and an admin command finds its core. -/
def State.passes (s1 : State) (x : Work) : Prop :=
  firstOf [s1.entryChk x, s1.ownChk x] = none ∧ (isAdmin (opcodeOf x.cmd) = true → s1.adminWaits x.part = false)

/-- The state without the parts that the start of a command uses: its ring or launch and the started commands, the sequencers
and their trace event, the cached translations, the reads that are issued, and free values. -/
def State.aroundStart (s : State) : State :=
  { s with rings := [], works := [], nextWork := 0, launches := [], nextLaunch := 0, free := 0, trace := TraceUnit.reset,
           accepted := [], ran := [], bw := { s.bw with parks := 0 }, transl := [], out := [], arb := Arb.reset }

/-- The start of command `w` left every ring, every other command and every launch but a new one as its acceptance left them. -/
def State.keepsWorks (s1 t : State) (w : Nat) : Prop :=
  t.rings = s1.rings ∧ (∀ v, v ≠ w → t.work? v = s1.work? v) ∧ ∀ l, l ≠ s1.nextLaunch → t.launch? l = s1.launch? l

/-- And it sent no message and issued no access of its own. -/
def State.keepsRest (s1 t : State) (w : Nat) : Prop := s1.keepsWorks t w ∧ t.out = s1.out ∧ t.arb = s1.arb

/-- Nothing of the device memory has changed: every byte reads as before. -/
def SameMemory (s t : State) : Prop := ∀ a, t.readByte a = s.readByte a

end Sys2Proof.Machine
end

