-- ==== Sys2Proof/Certificates/Slice0/Obligations.lean ====
section
/-! DEFINITION. The statements for the provers. Each docstring says which rules of the spec it rests on and which of its clauses are
choices of the model, with their log entries. `s.live` says that no command is open and that the module has power; `GoesTo o P` that `o`
is a next state of which `P` holds. -/
section
open Sys2Proof Sys2Proof.Machine

/-- A step runs the front command of the queue and idles on an empty queue (R20, R24). When a command c stands at the front of
the pending commands, step of the state is exec of c on the state with the rest of the queue; with no command pending the step
answers the same state (the idle step is the model's choice, log entry 1). Choices of the model: an idle step answers the state
itself (log 1). -/
def Obligations.StepRunsTheFrontCommand : Prop :=
  ∀ (s : State) (c : Instr) (rest : List Instr),
    (s.pending = c :: rest → step s = exec c { s with pending := rest }) ∧ (s.pending = [] → step s = .next s)

/-- Every command answers a next state, or the one fault of an engine write to an address that is none (R20, R412). For every
command and every state exec answers a next state with the same queue and nothing of the command left open, except that a
SEGMENT_DONE or NODE_DONE that reports a write to an address outside the device address map of R412 faults with noDeviceAddress,
while the machine has power; that such a report faults is the model's choice, R412 says only that no other range is a device
address. Choices of the model: the operands of the commands (log 7); what a report may end (log 38); the partition of the hub's
work (log 39); a report of a byte outside the device map faults (log 137). -/
def Obligations.EveryCommandAnswers : Prop :=
  ∀ (c : Instr) (s : State),
    GoesTo (exec c s) (fun t => t.pending = s.pending ∧ t.stores = [] ∧ t.cleared = []) ∨
    (exec c s = .fault .noDeviceAddress ∧ s.boot.unpowered = false ∧
      ((∃ e r, c = .segmentDone e r ∧ s.reportAstray false e r = true) ∨ (∃ e r, c = .nodeDone e r ∧ s.reportAstray true e r = true)))

/-- Every step keeps the canonical form of device memory and leaves nothing of a command open (R411, R412). For every state
whose device memory is in canonical form (addresses strictly rising, no listed byte equal to what an unlisted one reads as) with
no store or clearing open, any next state that step answers is such a state again, whatever the command. Choices of the model:
unwritten memory reads 0 (log 2). -/
def Obligations.MemoryStaysCanonical : Prop :=
  ∀ s t : State, s.settled → step s = .next t → t.settled

/-- The state after power-on reset is settled, live and empty of everything that a reset ends (R399). State.reset satisfies the
memory invariant, its FTC is 0, boot has begun, and no partition, ring, context, fence, graph, table, command, launch, object or
expert layer exists; every device byte reads 0 (that unwritten bytes read 0 is the model's choice, log entry 2). Choices of the
model: unwritten memory reads 0 (log 2); values after power-on that the spec does not give (log 5). -/
def Obligations.ResetIsSettledAndEmpty : Prop :=
  State.reset.settled ∧ State.reset.live ∧ State.reset.pending = [] ∧ State.reset.ftc = 0 ∧ State.reset.booting = true ∧
    (∀ p r c f g : Nat, State.reset.part p = Part.reset ∧ State.reset.ring? (pkey p r) = none ∧ State.reset.ctx? (pkey p c) = none ∧
      State.reset.fence? (pkey p f) = none ∧ State.reset.graph? g = none ∧ State.reset.table? g = none) ∧
    State.reset.works = [] ∧ State.reset.launches = [] ∧ State.reset.pleach.layers = [] ∧ State.reset.fenced = 0 ∧
    State.reset.objs = [] ∧ ∀ a, State.reset.readByte a = 0

/-- Without module power a command changes nothing, but for power-on and the calendar's own events (R27, R399, R49, R50). In a
settled state without module power every command answers the state itself, except POWER_ON_RESET, CALENDAR_SECOND,
BACKUP_CELL_LOW and CRYSTAL_STOP, which the calendar and the power supply cause. R27 and R399 give what power-on and power loss
do; that every other command has no effect without power is the model's choice. Choices of the model: commands without power
have no effect (log 13). -/
def Obligations.NothingHappensWithoutModulePower : Prop :=
  ∀ (c : Instr) (s : State), s.settled → s.boot.unpowered = true → (∀ straps, c ≠ .powerOnReset straps) →
    c ≠ .calendarSecond → c ≠ .backupCellLow → c ≠ .crystalStop → exec c s = .next s

/-- Host writes to a partition window wait for the next boundary in order of arrival (R78, R79, R89, R90, R91, R65, R191, R178,
R217, R53). RING_PI_WRITE, RING_DOORBELL, CTX_FAULT_CLEAR, HOST_FENCE_SIGNAL and HOST_FENCE_FAIL of a number below 8,192, and
RING_ENABLE, RING_DISABLE and RING_RESUME of a ring that exists, to an enabled partition join the host writes that the next
boundary applies and change nothing else. A state command for a ring that does not exist, a fence write for a number at or above
8,192 and every one of them to a window that is not enabled change nothing. That ENABLE of the partition is looked at when the
write arrives is read from R53 and marked in the log. Choices of the model: the order of host writes (log 10); ENABLE is looked
at when a write arrives (log 124). -/
def Obligations.HostRingWritesAreQueued : Prop :=
  ∀ (s : State) (p r c f v bytes : Nat), s.live →
    let queued := fun o => Host.Outcome.next { s with hostOps := s.hostOps ++ [o] }
    (s.isUp p = true →
      exec (.ringPiWrite p r v) s = queued (.pi p r (v % 2 ^ 32)) ∧
      exec (.ringDoorbell p r) s = queued (.doorbell p r) ∧
      exec (.ctxFaultClear p c) s = queued (.clearFault p c) ∧
      (f < 8192 →
        exec (.hostFenceSignal p f bytes v) s = queued (.fenceVal p f (v % 2 ^ 64) (bytes == 8)) ∧
        exec (.hostFenceFail p f) s = queued (.fenceFail p f)) ∧
      ((s.ring? (pkey p r)).isSome = true →
        exec (.ringEnable p r) s = queued (.stateCmd p r 1) ∧
        exec (.ringDisable p r) s = queued (.stateCmd p r 2) ∧
        exec (.ringResume p r) s = queued (.stateCmd p r 3))) ∧
    (8192 ≤ f → ∀ cmd ∈ [Instr.hostFenceSignal p f bytes v, .hostFenceFail p f], exec cmd s = .next s) ∧
    (s.ring? (pkey p r) = none → ∀ cmd ∈ [Instr.ringEnable p r, .ringDisable p r, .ringResume p r], exec cmd s = .next s) ∧
    (s.isUp p = false → ∀ cmd ∈ [Instr.ringPiWrite p r v, .ringDoorbell p r, .ctxFaultClear p c, .hostFenceSignal p f bytes v,
        .hostFenceFail p f, .ringEnable p r, .ringDisable p r, .ringResume p r], exec cmd s = .next s)

/-- Enabling, disabling and teardown requests wait for the next boundary (R53, R56, R66, R226, R400, R408). PARTITION_ENABLE,
PARTITION_DISABLE and SHEARS_TEARDOWN of partitions 0 to 127, and once the boot is over (or in recovery) VF_ENABLE, VF_DISABLE
and VF_FLR, join the host requests of the tick and change nothing else. Before, the VF commands are configuration requests
answered Request Retry Status and change nothing; for a number that is no partition every one changes nothing. Choices of the
model: the order of host writes (log 10); commands without power have no effect (log 13). -/
def Obligations.PartitionRequestsAreQueued : Prop :=
  ∀ (s : State) (p : Nat), s.live →
    let queued := fun o => Host.Outcome.next { s with hostOps := s.hostOps ++ [o] }
    (p < 128 →
      exec (.partitionEnable p) s = queued (.enable p) ∧
      exec (.partitionDisable p) s = queued (.disable p) ∧
      exec (.shearsTeardown p) s = queued (.shears p) ∧
      ((s.boot.phase = .up ∨ s.boot.phase = .recovery) →
        exec (.vfEnable p) s = queued (.vf p true) ∧
        exec (.vfDisable p) s = queued (.vf p false) ∧
        exec (.vfFlr p) s = queued (.tear p false))) ∧
    -- Request Retry Status (14 R400, R408)
    ((s.boot.phase ≠ .up ∧ s.boot.phase ≠ .recovery) →
      ∀ cmd ∈ [Instr.vfEnable p, .vfDisable p, .vfFlr p], exec cmd s = .next s) ∧
    (128 ≤ p → ∀ cmd ∈ [Instr.partitionEnable p, .partitionDisable p, .vfEnable p, .vfDisable p, .vfFlr p, .shearsTeardown p],
      exec cmd s = .next s)

/-- A write to MH_RING_PI that would overfill the ring is dropped and counted (R78). When a write of v to MH_RING_PI of an
existing ring takes effect: if (v - CI) mod 2^32 exceeds 2^SIZE_LOG2, PI keeps its value and PI_DROPS counts the write (16 bits,
saturating); else PI takes v. No other ring and nothing else of the state changes, so no entry fails and no fault is recorded.
-/
def Obligations.PiWriteNeverOverfillsTheRing : Prop :=
  ∀ (s : State) (un : List (Nat × Nat × Nat)) (p r v : Nat) (x : Ring),
    s.resetting p = false → s.ring? (pkey p r) = some x →
    let t := s.hostOp1 un (.pi p r v)
    t = { s with rings := t.rings } ∧
    (∀ k, k ≠ pkey p r → t.ring? k = s.ring? k) ∧
    t.ring? (pkey p r) =
      some (if 2 ^ x.sizeLog2 < (v + 2 ^ 32 - x.ci % 2 ^ 32) % 2 ^ 32 then { x with piDrops := min (x.piDrops + 1) 65535 }
            else { x with pi := v % 2 ^ 32 })

/-- A doorbell to a DISABLED ring is ignored and counted; to a blocked, faulted or stopped ring it sets DB_PENDING (R92, R330,
R392). When a doorbell takes effect: on a DISABLED ring only DB_IGNORED rises (16 bits, saturating), or, where its context is
lost, only DB_PENDING is set (R330); on a ring in COMPLETION_BLOCKED, FAULTED or STOPPED DB_PENDING is set, and a doorbell to
ring 0 raises ADMIN_DB of the partition (R392), nothing else changes; and the sample of PI by Quickset clears DB_PENDING. That
such a doorbell is no use of the context is the model's reading. Choices of the model: which doorbells use a context (log 27).
-/
def Obligations.DoorbellOnAnInactiveRing : Prop :=
  ∀ (s : State) (un : List (Nat × Nat × Nat)) (p r : Nat) (x : Ring),
    s.resetting p = false → s.ring? (pkey p r) = some x →
    let t := s.hostOp1 un (.doorbell p r)
    (x.state = .disabled → s.ctxLost x.ctx = false → t = { s with rings := t.rings } ∧
      t.ring? (pkey p r) = some { x with dbIgnored := min (x.dbIgnored + 1) 65535 }) ∧
    -- a ring of a lost context (11 R330)
    (x.state = .disabled → s.ctxLost x.ctx = true → t = { s with rings := t.rings } ∧
      t.ring? (pkey p r) = some { x with dbPending := true }) ∧
    ((x.state = .blocked ∨ x.state = .faulted ∨ x.state = .stopped) → p < 128 → r < 2 ^ 20 →
      t = { s with rings := t.rings, ic := t.ic } ∧ t.ring? (pkey p r) = some { x with dbPending := true } ∧
      -- a doorbell on ring 0 raises ADMIN_DB p (13 R392)
      (r ≠ 0 → t.ic = s.ic) ∧ (r = 0 → (t.icSrc (64 + p)).pending = true ∧ ∀ n, n ≠ 64 + p → t.icSrc n = s.icSrc n)) ∧
    (s.ringResident x = true → (s.sampleOrLoad (pkey p r)).ring? (pkey p r) =
      some { x with sampled := x.pi, scanStop := false, wantSample := false, dbPending := false })

/-- A write of 1 to FAULTED clears the fault fields, and a fault of the same tick applied after it stands (R65). A write of 1 to
FAULTED of a context of an enabled partition joins the host writes and changes nothing in its tick. At the next boundary, no
global stop being in force, FAULTED, FAULT_STATUS and FAULT_COUNT of the context are cleared and nothing else changes; a context
fault of the same tick, applied after it, leaves FAULTED set with its own status and a count of 1. Choices of the model: the
order of host writes (log 10). -/
def Obligations.FaultClearComesBeforeTheFault : Prop :=
  ∀ (s : State) (un : List (Nat × Nat × Nat)) (p c st op a : Nat) (x : Ctx),
    s.ctx? (pkey p c) = some x →
    -- the write waits for the next boundary
    (s.live → s.isUp p = true → exec (.ctxFaultClear p c) s = .next { s with hostOps := s.hostOps ++ [.clearFault p c] }) ∧
    -- which applies it before the fault of the same tick, but in a global stop
    (s.stop.stopped = false → s.stop.held = [] → s.hostOps = [.clearFault p c] → ∀ t, t = s.applyClears un →
      t.ctx? (pkey p c) = some { x with faulted := false, faultStatus := 0, faultCount := 0 } ∧
      t = { s with ctxs := t.ctxs, hostOps := [] } ∧
      (s.later = [.ctxFault (pkey p c) st op a] → t.applyLaters.ctx? (pkey p c) =
        some { x with faulted := true, faultStatus := st, faultCount := 1 }))

/-- ENABLE, DISABLE and RESUME move a ring between its states, or set REJECTED (R89, R91, R94, R217, R330). ENABLE takes a
DISABLED or FAULTED ring to ACTIVE, asks for a sample of PI where PI differs from CI, and is rejected for a lost context or an
ACTIVE, COMPLETION_BLOCKED or STOPPED ring; of ring 0 DISABLED it also takes the MH_ADMIN registers into ring and context, or is
rejected where they are bad (R94); DISABLE takes an ACTIVE or FAULTED ring to DISABLED and discards its staged entry and its
fetch, leaves a DISABLED one as it is and is rejected for a COMPLETION_BLOCKED or STOPPED one; RESUME takes a COMPLETION_BLOCKED
ring back to the state before, ACTIVE with a doorbell, a held completion word being written again, and is rejected in every
other state (R217). Choices of the model: which doorbells use a context (log 27); when a posting fails (log 53); the data of a
discarded fetch (log 161). -/
def Obligations.RingStateCommandsMoveTheRing : Prop :=
  ∀ (s : State) (un : List (Nat × Nat × Nat)) (p r : Nat) (x : Ring) (c : Ctx),
    s.resetting p = false → s.ring? (pkey p r) = some x → s.ctx? x.ctx = some c → r < 2 ^ 20 →
    let after := fun cmd => (s.hostOp1 un (.stateCmd p r cmd)).ring? (pkey p r)
    let a := (s.part p).admin
    -- ENABLE; one that finds PI ≠ CI acts as a doorbell
    ((x.state = .disabled ∨ x.state = .faulted) → c.lost = false → (r = 0 → x.state = .faulted) →
      after 1 = some (if x.pi = x.ci then { x with state := .active, dbPending := false, sampled := x.pi, scanStop := false }
        else { x with state := .active, wantSample := true })) ∧
    ((x.state = .disabled ∨ x.state = .faulted) → c.lost = true → after 1 = some { x with rejected := true }) ∧
    -- the admin ring takes its registers, unless they are rejected
    (r = 0 → x.state = .disabled → c.lost = false → p < 2 ^ 20 → s.adminBad p = true → after 1 = some { x with rejected := true }) ∧
    (r = 0 → x.state = .disabled → c.lost = false → p < 2 ^ 20 → s.adminBad p = false → x.ctx = pkey p 0 →
      (∃ d, (s.hostOp1 un (.stateCmd p r 1)).ctx? x.ctx = some d ∧ d.pasid = a.pasid ∧ d.hostAccess = a.hostAccess) ∧
      after 1 = some
        (let y : Ring := { x with base := a.base, cseq := a.cseq, err := a.err, sizeLog2 := a.sizeLog2, loc := a.loc,
                                  cseqLoc := a.cseqLoc, errLoc := a.errLoc, errLog2 := a.errLog2, vector := a.vector }
         if x.pi = x.ci then { y with state := .active, dbPending := false, sampled := x.pi, scanStop := false }
         else { y with state := .active, wantSample := true })) ∧
    -- DISABLE
    ((x.state = .active ∨ x.state = .faulted) →
      after 2 = some { x with state := .disabled, staged := none, fetch := none, sliceLeft := min x.sliceLeft 1, stall := none,
                              stale := x.stale + (if x.fetch.isSome then 1 else 0) }) ∧
    (x.state = .disabled → after 2 = some x) ∧
    -- RESUME
    (x.state = .blocked → x.hold = none →
      after 3 = some (if x.before = .active then { x with state := .active, wantSample := true } else { x with state := x.before })) ∧
    (∀ st q, x.state = .blocked → x.before ≠ .blocked → failsAt un (pkey p r) = none →
      x.hold = some { st := st, lead := none, recs := [], word := some q, events := [] } → x.cseqLoc = false →
      after 3 = some { x with hold := none, written := q, state := x.before, wantSample := x.wantSample || x.before == .active }) ∧
    -- what a state does not take
    ((x.state = .active ∨ x.state = .blocked ∨ x.state = .stopped) → after 1 = some { x with rejected := true }) ∧
    ((x.state = .blocked ∨ x.state = .stopped) → after 2 = some { x with rejected := true }) ∧
    (x.state ≠ .blocked → after 3 = some { x with rejected := true })

/-- ENTRY_START accepts a ready staged entry in its turn and runs its routine (R83, R84, R80, R99). A staged entry that is ready
and in its turn, with no stop in force, is accepted by a free sequencer: the command starts with the next SEQ of its ring, a
query taking its report as things stood before, the ring goes on with the entry at CI + LEN and fetches it where its sample and
slice allow, and exec answers the state that the command's routine reaches; everything that no start uses is unchanged. Which
free sequencer takes it is a free value. Choices of the model: placements and chip-wide numbers are free values (log 3); a query
reports as of its start (log 30); which sequencer, and the rerun after a parity error (log 43); a watchdog's abort (log 56); the
length of a host entry (log 148). -/
def Obligations.ReadyEntryIsAccepted : Prop :=
  ∀ (s : State) (p r : Nat) (x : Ring) (st : Staged), s.live → s.stop.stopped = false →
    s.ring? (pkey p r) = some x → x.staged = some st → s.entryReady (pkey p r) x = true → s.turn x.rank = true →
    ∃ s1, s.takeEntry p r none = some (s.nextWork, s1) ∧
      exec (.entryStart p r none) s = .next (s.run fun _ => (s1.noteRun s.nextWork).runRoutine s.nextWork .notNeeded) ∧
      s1.aroundStart = s.aroundStart ∧ s1.launches = s.launches ∧
      -- a query takes its report as things stand before the start
      s1.work? s.nextWork = some { x.entryWork p r s.tick st with
        report := if isQuery (opcodeOf st.words) then s.queryReport p st.words else [] } ∧
      (∀ v, v ≠ s.nextWork → s1.work? v = s.work? v) ∧
      (∃ q, q ∈ s.freeSeqrs ∧ s1.accepted = q :: s.accepted) ∧
      (∀ k, k ≠ pkey p r → s1.ring? k = s.ring? k) ∧
      ∃ y, s1.ring? (pkey p r) = some y ∧ y.staged = none ∧ y.nextCi = (x.nextCi + lenOf st.words) % 2 ^ 32 ∧
        y.lastSeq = x.lastSeq + 1 ∧ y.ci = x.ci ∧ y.state = x.state ∧
        y.fetch = (if y.nextCi ≠ x.sampled ∧ 0 < x.sliceLeft ∧ x.slot.isSome = true then some y.nextCi else x.fetch) ∧
        -- the next fetch, where there is one, is issued
        (y.fetch = none → s1.out = s.out ∧ s1.arb = s.arb) ∧
        ∀ i, y.fetch = some i → s1.out = (if x.loc then s.out ++
            [.hostRead (keyPart (pkey p r)) (s.pasidOf x.ctx) (x.granule i) (s.fetchBytes y i)] else s.out) ∧
          (x.loc = true → s1.arb = s.arb)

/-- NODE_RELEASE accepts a ready node in its turn and runs its routine (R165, R168). A node that has entered, whose predecessors
have ended and whose descriptor is at hand, of a FEED only with room in its task's queue, in its turn and with no stop in force,
is accepted by a free sequencer: it becomes a running command of its launch and exec answers the state that its routine reaches;
rings, other launches, other commands and everything that no start uses are unchanged. Choices of the model: placements and
chip-wide numbers are free values (log 3); which sequencer, and the rerun after a parity error (log 43); a FEED node without
room waits (log 163). -/
def Obligations.ReadyNodeIsAccepted : Prop :=
  ∀ (s : State) (l i en t : Nat) (y : Launch) (d : DescSt) (pin : Kern), s.live → s.stop.stopped = false →
    s.launch? l = some y → y.nodes.getD i .outside = .waiting en (some t) d pin → s.nodeMay y i = true →
    s.turn [t, 0, y.cls, y.order, i] = true →
    ∃ s1, s.takeNode l i none = some (s.nextWork, s1, d) ∧
      exec (.nodeRelease l i none) s = .next (s.run fun _ => (s1.noteRun s.nextWork).runRoutine s.nextWork d) ∧
      s1.aroundStart = s.aroundStart ∧ s1.rings = s.rings ∧
      s1.work? s.nextWork = some (s.nodeWork y l i d pin) ∧
      (∀ v, v ≠ s.nextWork → s1.work? v = s.work? v) ∧
      (∀ m, m ≠ l → s1.launch? m = s.launch? m) ∧
      s1.launch? l = some { y with nodes := y.nodes.set i (.running s.nextWork) }

/-- NOP, FENCE_WAIT, FENCE_SIGNAL, WRITE_VALUE and TIMESTAMP begin as their rules say (R99, R141, R142, R143, R145, R147, R190).
Accepted and past every check: NOP is decided CS_DONE for the next boundary; FENCE_WAIT is decided at once if its fence has
reached the threshold or is FAILED, and else waits on the home record; FENCE_SIGNAL is scheduled for its EFFECTIVE_TICK, or for
the first tick allowed where that is 0; WRITE_VALUE and TIMESTAMP make their write in the next tick, the stamp being the FTC of
the boundary that follows the start (of a rerun after a parity error, its own start: the model's choice). Nothing else changes
but, for a remote fence, the flit, the mirror and their records. Choices of the model: a query reports as of its start (log 30);
the ticks of predicates and children, and the order of reservations (log 33); the ticks of a write and its stamp (log 34); which
sequencer, and the rerun after a parity error (log 43). -/
def Obligations.SimpleCommandsBegin : Prop :=
  ∀ (s : State) (at_ : Site) (e : Cmd) (w : Nat) (s1 : State) (x : Work) (d : DescSt) (op : Nat), s.live →
    s.accepts at_ op e w s1 x d → s1.passes x →
    let begins := fun c ph => GoesTo (exec c s) fun t =>
      (t.work? w).map (fun y => y.phase) = some ph ∧ s1.keepsRest t w ∧ t.aroundStart = s.aroundStart
    (op = 0x00 → begins (.nop at_ e) (.decided Res.ok (s1.tick + 1))) ∧
    (op = 0x08 → x.abort = none →
      let v := s1.fenceView (pkey x.part (fld x.cmd 8 0 20))
      begins (.fenceWait at_ e)
        (if v.2 then .decided (Res.of .fenceFailed 0) (s1.tick + 1)
         else if fld x.cmd 16 0 64 ≤ v.1 then .decided Res.ok (s1.tick + 1)
         else .fenceWait (s1.homeOf (pkey x.part (fld x.cmd 8 0 20))) (fld x.cmd 16 0 64) false)) ∧
    (op = 0x09 → s1.isRemote (pkey x.part (fld x.cmd 8 0 20)) = false →
      begins (.fenceSignal at_ e) (.signal (if fld x.cmd 24 0 58 ≠ 0 then fld x.cmd 24 0 58 else s1.tick + 1))) ∧
    (op = 0x09 → s1.isRemote (pkey x.part (fld x.cmd 8 0 20)) = true → GoesTo (exec (.fenceSignal at_ e) s) fun t =>
      (t.work? w).map (fun y => y.phase) = some (.signal (if fld x.cmd 24 0 58 ≠ 0 then fld x.cmd 24 0 58 else s1.tick + s1.lead)) ∧
      s1.keepsWorks t w ∧ t.arb = s1.arb ∧ t.aroundStart = { s.aroundStart with fab := t.fab, mirrors := t.mirrors }) ∧
    (op = 0x0A → begins (.writeValue at_ e)
      (.io (.write (if flag x.cmd 24 0 then 8 else 4) (fld x.cmd 32 0 64)) (x.started + 1))) ∧
    (op = 0x0C → begins (.timestamp at_ e) (.io (.write 8 ((x.started + 1) * 64 % 2 ^ 63)) (x.started + 1)))

/-- LAUNCH, DISPATCH, COPY, GATHER, ROUTE and GROUPED_MM begin as their rules say (R120, R121, R125, R129, R131, R136, R139,
R140, R146, R166, R275). Accepted and past every check: LAUNCH makes a launch that pins the current generation and the table
epoch with W slots and every node outside; DISPATCH reads its kernel descriptor, or with it at hand runs, or as a PERSIST whose
descriptor names the engine is decided CS_DONE; COPY runs one instance per chunk of a multiple of 4,096 bytes; GATHER reads its
indices with every position unresolved; ROUTE takes the bias vector as it stands and waits for a routing unit; GROUPED_MM reads
its group table. Frames are stated for each. Choices of the model: the end of a persistent DISPATCH (log 32); overlap of SRC and
DST (log 35); what TASK is checked against (log 143). -/
def Obligations.EngineCommandsBegin : Prop :=
  ∀ (s : State) (at_ : Site) (e : Cmd) (w : Nat) (s1 : State) (x : Work) (d : DescSt) (op : Nat), s.live →
    s.accepts at_ op e w s1 x d → s1.passes x →
    -- LAUNCH pins the current generation and the table epoch
    (op = 0x01 → ∀ u g, s1.graphOf x.part (fld x.cmd 8 0 13) = some u → s1.graph? u = some g →
      GoesTo (exec (.launch at_ e) s) fun t =>
        (t.work? w).map (fun y => y.phase) = some (.launching s1.nextLaunch) ∧
        ∃ l, t.launch? s1.nextLaunch = some l ∧ l.owner = .work w ∧ l.graph = u ∧ l.gen = g.cur ∧ l.epoch = s1.epoch ∧
          l.window = g.window ∧ l.nodes = List.replicate g.npred.length .outside ∧
          s1.keepsRest t w ∧ t.aroundStart = s.aroundStart) ∧
    -- DISPATCH reads its kernel descriptor, or is done where it installs a task whose descriptor names the engine
    (op = 0x02 → persistOf x.cmd = false → d = .notNeeded →
      GoesTo (exec (.dispatch at_ e) s) fun t => ∃ y, t.work? w = some y ∧ y.phase = .descriptor ∧
        y.locs = [s1.kernLoc x, s1.mrefLoc x.ck x.cmd 56] ∧
        y.insts = (s1.makeInsts (s1.placement x.cmd) fun _ => fld x.cmd 72 0 32) ∧
        s1.keepsRest t w ∧ t.aroundStart = s.aroundStart) ∧
    -- as a node its descriptor is at hand, and its instances are eligible at once
    (op = 0x02 → persistOf x.cmd = false → d = .here (tgtEngine x.cmd) →
      GoesTo (exec (.dispatch at_ e) s) fun t => ∃ y, t.work? w = some y ∧ y.phase = .running ∧
        y.locs = [s1.kernLoc x, s1.mrefLoc x.ck x.cmd 56] ∧ y.insts.length = (s1.placement x.cmd).length ∧
        s1.keepsRest t w ∧ t.aroundStart = s.aroundStart) ∧
    (op = 0x02 → persistOf x.cmd = true →
      (d = .here (tgtEngine x.cmd) ∨ d = .notNeeded ∧ (s1.readByte (s1.locAddr (s1.kernLoc x))).toNat = tgtEngine x.cmd) →
      GoesTo (exec (.dispatch at_ e) s) fun t => (t.work? w).map (fun y => y.phase) = some (.decided Res.ok (s1.tick + 1)) ∧
        s1.keepsRest t w ∧ t.aroundStart = s.aroundStart) ∧
    -- COPY runs one instance for each chunk
    (op = 0x0B → GoesTo (exec (.copy at_ e) s) fun t => ∃ y, t.work? w = some y ∧ y.phase = .running ∧
        y.segUs = s1.cfg.segMaxUs ∧
        y.insts.length = ceilDiv (fld x.cmd 40 0 64) (roundUp (ceilDiv (fld x.cmd 40 0 64) (fld x.cmd 48 0 16)) 4096) ∧
        s1.keepsRest t w ∧ t.aroundStart = s.aroundStart) ∧
    -- GATHER reads its indices with every position unresolved
    (op = 0x03 → GoesTo (exec (.gather at_ e) s) fun t => (t.work? w).map (fun y => y.phase) = some (.io .indices s1.tick) ∧
        ∃ g, t.gather? w = some g ∧ g.pos = List.replicate (gaIdx x.cmd) .unresolved ∧
          (let r := s1.issueRead x.ck 6 (s1.mrefLoc x.ck x.cmd 8) (8 * gaIdx x.cmd)
           let r := if gaMode x.cmd = 0 then r else r.issueRead x.ck 6 (s1.mrefLoc x.ck x.cmd 40) (4 * (gaBags x.cmd + 1))
           t.out = r.out ∧ t.arb = r.arb) ∧
          s1.keepsWorks t w ∧ t.aroundStart = { s.aroundStart with
            marshal := { s.marshal with gathers := Tbl.set s.marshal.gathers w g, traffic := true } }) ∧
    -- ROUTE waits for a routing unit with the bias vector as it stands
    (op = 0x04 → ∀ l, s1.layer? (roLayer x.part x.cmd) = some l →
      GoesTo (exec (.route at_ e) s) fun t => (t.work? w).map (fun y => y.phase) = some .unitWait ∧
        ∃ r, Tbl.get? t.pleach.routings w = some r ∧ r.bias = l.bias ∧ r.gen = l.gen ∧
          s1.keepsRest t w ∧ t.aroundStart = { s.aroundStart with
            pleach := { s.pleach with routings := Tbl.set s.pleach.routings w r } }) ∧
    -- GROUPED_MM has its instances placed and reads its group table
    (op = 0x05 → GoesTo (exec (.groupedMm at_ e) s) fun t => ∃ y, t.work? w = some y ∧ y.phase = .io .groups s1.tick ∧
        y.insts = (s1.makeInsts (s1.placement x.cmd) fun _ => 1) ∧
        (let r := s1.issueRead x.ck 6 (s1.mrefLoc x.ck x.cmd 40) (32 * mmExp x.cmd)
         t.out = r.out ∧ t.arb = r.arb) ∧
        s1.keepsWorks t w ∧ t.aroundStart = s.aroundStart)

/-- COND, LOOP, CALL_GRAPH and FEED begin as their rules say (R112, R113, R127, R133, R134, R135, R172, R117). Accepted and past
every check: the predicate of COND and LOOP falls due in the tick after the start; CALL_GRAPH launches its graph as a child one
level deeper where 1 + W slots are free; FEED puts its items behind those that the task's queue holds, and only the bytes of
those items' places change in memory. Frames are stated for each. Choices of the model: the ticks of predicates and children,
and the order of reservations (log 33); the items of an aborted FEED (log 36); a FEED node without room waits (log 163). -/
def Obligations.ChildCommandsBegin : Prop :=
  ∀ (s : State) (at_ : Site) (e : Cmd) (w : Nat) (s1 : State) (x : Work) (d : DescSt) (op : Nat), s.live →
    s.accepts at_ op e w s1 x d → s1.passes x →
    -- COND and LOOP: the predicate falls due in the tick after the start
    ((op = 0x0D ∨ op = 0x0E) → ∀ c, c = (if op = 0x0D then Instr.cond at_ e else Instr.loop at_ e) →
      GoesTo (exec c s) fun t => ∃ y, t.work? w = some y ∧ y.phase = .predDue (s1.tick + 1) ∧
        y.epochPin = (match x.site with | .ring _ _ => some s1.epoch | .node _ _ => x.epochPin) ∧
        s1.keepsRest t w ∧ t.aroundStart = s.aroundStart) ∧
    -- CALL_GRAPH launches its graph as a child in the tick of its start
    (op = 0x0F → ∀ u g, s1.callerStopped x = false → s1.graphOf x.part (fld x.cmd 8 0 13) = some u → s1.graph? u = some g →
      g.state = .ready → s1.childDepth x ≤ 8 → s1.slotsFree x.part (1 + g.window) = true →
      GoesTo (exec (.callGraph at_ e) s) fun t =>
        (t.work? w).map (fun y => y.phase) = some (.child s1.nextLaunch) ∧
        ∃ l, t.launch? s1.nextLaunch = some l ∧ l.owner = .work w ∧ l.graph = u ∧ l.gen = g.cur ∧ l.depth = s1.childDepth x ∧
          l.nodes = List.replicate g.npred.length .outside ∧
          s1.keepsRest t w ∧ t.aroundStart = s.aroundStart) ∧
    -- FEED puts its items behind those that the queue holds
    (op = 0x10 → ∀ y, s1.task? (feedTask x.part x.cmd) = some y →
      GoesTo (exec (.feed at_ e) s) fun t =>
        (t.work? w).map (fun z => z.phase) = some (.feeding (feedTask x.part x.cmd)) ∧
        (∃ z, t.task? (feedTask x.part x.cmd) = some z ∧ z.tail = (y.tail + fld x.cmd 10 0 16) % y.depth ∧
          z.items = y.items ++ (List.range (fld x.cmd 10 0 16)).map fun j =>
            { feed := w, pos := y.place j, inst := none, since := s1.tick }) ∧
        s1.keepsWorks t w ∧ t.arb = s1.arb ∧ t.aroundStart = { s.aroundStart with mem := t.mem, tasks := t.tasks } ∧
        (∀ k, k ≠ feedTask x.part x.cmd → t.task? k = s.task? k) ∧
        -- in device memory only the places of its items change; to a queue in host memory one write goes out for each item
        (y.queueHost = false → t.out = s1.out ∧
          ∀ a, (∀ j i, j < fld x.cmd 10 0 16 → i < (feedItem x.cmd j).length →
              a ≠ s1.locAddr ((y.itemLoc (y.place j)).plus i)) → t.readByte a = s.readByte a) ∧
        (y.queueHost = true → SameMemory s t ∧ t.out = s1.out ++ (List.range (fld x.cmd 10 0 16)).map fun j =>
          .hostWrite (keyPart y.ctx) (s1.pasidOf y.ctx) (y.queueOff + y.place j * y.itemBytes) (feedItem x.cmd j)))

/-- Every admin command that passes its checks begins and changes nothing until it completes (R97, R98, R100, R102, R156, R183,
R195, R219, R257, R270, R273, R446). The 27 admin commands on ring 0, accepted and past every check, are in progress after their
start: queries with the report taken at it, ABORT with its aborts decided for the next boundary, EXPERT_BIAS_SET reading its
vector, and the others with their work to do; no ring, launch, other command or anything else has changed. How an admin
command's time divides, and that a query reports as of the boundary of its start, are read from R97, R105 and R160. Choices of
the model: how an admin command's time divides (log 29); a query reports as of its start (log 30); BYTES of TABLE_QUERY (log
31); the vector's read (log 75). -/
def Obligations.AdminCommandsBegin : Prop :=
  ∀ (s : State) (p : Nat) (e : Cmd) (w : Nat) (s1 : State) (x : Work) (d : DescSt) (c : Instr) (op : Nat), s.live →
    s.accepts (.ring p 0) op e w s1 x d → s1.passes x →
    let begins := fun ph => GoesTo (exec c s) fun t =>
      (t.work? w).map (fun y => y.phase) = some ph ∧ s1.keepsRest t w ∧ t.aroundStart = s.aroundStart
    ((c, op) ∈ [(.ctxCreate p e, 0xC0), (.ctxDestroy p e, 0xC1), (.ringCreate p e, 0xC2), (.ringConfig p e, 0xC3),
        (.ringDestroy p e, 0xC4), (.graphLoad p e, 0xC8), (.graphPatch p e, 0xC9), (.graphUnload p e, 0xCA),
        (.fenceAlloc p e, 0xD0), (.fenceFree p e, 0xD1), (.fenceExport p e, 0xD2), (.fenceImport p e, 0xD3),
        (.memAlloc p e, 0xD8), (.memFree p e, 0xD9), (.tableCreate p e, 0xE0), (.tableStage p e, 0xE1),
        (.tableCommit p e, 0xE2), (.tableDestroy p e, 0xE3), (.expertLayerCreate p e, 0xE8),
        (.expertLayerDestroy p e, 0xE9)] → begins (.io .admin s1.tick)) ∧
    ((c, op) ∈ [(.ringQuery p e, 0xC5), (.graphQuery p e, 0xCB), (.fenceQuery p e, 0xD4), (.tableQuery p e, 0xE4),
        (.expertLayerQuery p e, 0xEB)] → begins (.io (.report (s.queryReport p x.cmd)) s1.tick)) ∧
    ((c, op) = (.abort p e, 0xC6) → begins (.aborting (s1.tick + 1))) ∧
    ((c, op) = (.expertBiasSet p e, 0xEA) → GoesTo (exec c s) fun t =>
      (t.work? w).map (fun y => y.phase) = some (.io .bias s1.tick) ∧
      (let r := s1.issueRead (pkey x.part 0) 4 (s1.mrefLoc (pkey x.part 0) x.cmd 16) (4 * s1.nexpOf (layerKey x.part x.cmd))
       t.out = r.out ∧ t.arb = r.arb) ∧ s1.keepsWorks t w ∧ t.aroundStart = s.aroundStart)

/-- An entry that fails a check is decided with the status and DETAIL of its first failed check (R83, R98, R99). An accepted
entry that fails one of the checks of R83 is decided for the next boundary with the status and DETAIL of the first failure in
the order of the table, and one that fails only a check of its own with that result; nothing else changes. Choices of the model:
how an admin command's time divides (log 29); overlap of SRC and DST (log 35); how a core is fenced (log 89); what TASK is
checked against (log 143); a task with an END pending (log 146). -/
def Obligations.FailedCheckDecidesTheEnd : Prop :=
  ∀ (s : State) (p r w : Nat) (s0 : State) (x : Work) (y : Ring) (res : Res), s.live →
    s.takeEntry p r none = some (w, s0) →
    let s1 := s0.noteRun w
    s1.work? w = some x → x.site = .ring p r → s1.ring? (pkey p r) = some y →
    let op := opcodeOf x.cmd
    let fails := fun res => GoesTo (exec (.entryStart p r none) s) fun t =>
      (t.work? w).map (fun y => y.phase) = some (.decided res (s1.tick + 1)) ∧ s1.keepsRest t w ∧ t.aroundStart = s.aroundStart
    let wrap := 2 ^ y.sizeLog2 < x.idx % 2 ^ y.sizeLog2 + lenOf x.cmd
    (wrap → fails (Res.of .malformed 0x0101)) ∧
    (¬ wrap → headerOk x.cmd = false → fails (Res.of .malformed 0x0102)) ∧
    (¬ wrap → headerOk x.cmd = true → s1.inDispatch op = false → fails (Res.of .badOpcode 0x0106)) ∧
    (¬ wrap → headerOk x.cmd = true → s1.inDispatch op = true → r ≠ 0 → isAdmin op = true → fails (Res.of .badOpcode 0x0107)) ∧
    (¬ wrap → headerOk x.cmd = true → s1.inDispatch op = true → r = 0 → isAdmin op = false → op ≠ 0 →
      fails (Res.of .badOpcode 0x0108)) ∧
    (¬ wrap → headerOk x.cmd = true → s1.inDispatch op = true → (r ≠ 0 → isAdmin op = false) →
      (r = 0 → isAdmin op = true ∨ op = 0) → lenOk x.cmd = false → fails (Res.of .malformed 0x0103)) ∧
    (s1.entryChk x = none → s1.ownChk x = some res → (isAdmin op = true → s1.adminWaits x.part = false) → fails res)

/-- What completed admin commands change: contexts, rings, fences and handles (R97, R100, R101, R102, R103, R104, R183, R184,
R194, R197). CTX_CREATE gives the context a free chip-wide record with its PASID and host access, not resident; RING_CREATE
makes a DISABLED ring with the fields of the command; RING_CONFIG changes only the selected fields, SLICE 0 taking SLICE_TICKS
(the model's choice: R102 says so of RING_CREATE alone); RING_DESTROY and CTX_DESTROY end theirs; FENCE_ALLOC makes an own fence
with its initial value; FENCE_FREE leaves the number DRAINING, marks the record FAILED in step 3 and revokes its exports, of an
Choices of the model: placements and chip-wide numbers are free values (log 3); failed imports (log 46); which pages an object
gets (log 51); SLICE 0 of RING_CONFIG (log 151). -/
def Obligations.AdminEffectsOnTheirObjects : Prop :=
  ∀ (s : State) (w p : Nat) (e : Cmd) (locs : List Loc) (bound : Option Nat),
    -- CTX_CREATE
    (opcodeOf e = 0xC0 → s.ctxNos.length < Config.contexts →
      ∃ no, no < Config.contexts ∧ no ∉ s.ctxNos ∧ (s.adminEffect w p e locs bound).ctxs =
        Tbl.set s.ctxs (pkey p (fld e 8 0 12)) (Ctx.fresh no (fld e 12 0 20) (flag e 10 0))) ∧
    -- RING_CREATE
    (opcodeOf e = 0xC2 → s.ringNos.length < Config.hardRings →
      ∃ r no, (s.adminEffect w p e locs bound).ring? (pkey p (fld e 8 0 14)) = some r ∧ no ∉ s.ringNos ∧ r.no = no ∧
        r.ctx = pkey p (fld e 10 0 12) ∧ r.base = fld e 16 0 64 ∧ r.sizeLog2 = fld e 12 0 8 ∧ r.cseq = fld e 24 0 64 ∧
        r.err = fld e 32 0 64 ∧ r.errLog2 = fld e 40 0 8 ∧ r.vector = fld e 14 0 8 ∧ r.timeoutUs = fld e 44 0 32 ∧
        r.state = .disabled) ∧
    -- RING_CONFIG
    (∀ r, opcodeOf e = 0xC3 → s.ring? (pkey p (fld e 8 0 14)) = some r →
      (s.adminEffect w p e locs bound).ring? (pkey p (fld e 8 0 14)) = some { r with
        vector := if flag e 10 0 then fld e 12 0 8 else r.vector
        slice := if flag e 10 1 then (if fld e 13 0 8 = 0 then s.cfg.sliceTicks else fld e 13 0 8) else r.slice
        timeoutUs := if flag e 10 2 then fld e 16 0 32 else r.timeoutUs }) ∧
    -- RING_DESTROY
    (opcodeOf e = 0xC4 → (s.adminEffect w p e locs bound).ring? (pkey p (fld e 8 0 14)) = none) ∧
    -- CTX_DESTROY
    (opcodeOf e = 0xC1 → (s.adminEffect w p e locs bound).ctx? (pkey p (fld e 8 0 12)) = none) ∧
    -- FENCE_ALLOC
    (opcodeOf e = 0xD0 → s.fences.length < Config.fenceRecords →
      ∃ f, (s.adminEffect w p e locs bound).fence? (pkey p (fenceNo e)) = some f ∧ f.kind = .own ∧ f.value = fld e 16 0 64 ∧
        f.failed = false ∧ f.signal = true ∧ ∀ x ∈ s.fences, x.2.no ≠ f.no) ∧
    -- FENCE_FREE: the number drains, and the record is marked FAILED in step 3
    (∀ f, opcodeOf e = 0xD1 → s.fence? (pkey p (fenceNo e)) = some f →
      (s.adminEffect w p e locs bound).fence? (pkey p (fenceNo e)) = some { f with draining := true } ∧
      (f.kind = .own → .record (pkey p (fenceNo e)) ∈ (s.adminEffect w p e locs bound).marks ∧
        ∀ x ∈ (s.adminEffect w p e locs bound).exports, x.fence ≠ pkey p (fenceNo e)) ∧
      (f.kind ≠ .own → .imported (pkey p (fenceNo e)) ∈ (s.adminEffect w p e locs bound).marks)) ∧
    -- MEM_FREE: the handle's generation rises, and index and generation never name the object again
    (∀ c h, opcodeOf e = 0xD9 → s.ctx? (pkey p (fld e 8 0 12)) = some c → Tbl.get? c.handles (fld e 12 0 20) = some h →
      ∃ c', (s.adminEffect w p e locs bound).ctx? (pkey p (fld e 8 0 12)) = some c' ∧
        Tbl.get? c'.handles (fld e 12 0 20) = some (if h.gen = 0xFFF then { h with obj := none, retired := true }
          else { h with gen := h.gen + 1, obj := none }))

/-- MAX, INCREMENT and FAIL change a fence as the rules say and count what they do not change (R144, R176, R177, R178, R179,
R191). On the home record of a fence: a MAX above the value sets it and stamps the change; one at or below it leaves value and
LAST_FTC and counts in LOW_SIGNALS and in MH_PART_FENCE_LOW of the signaller; an INCREMENT adds, of 0 changes and counts
nothing, and beyond 64 bits is refused, leaves the value and counts in SAT_FAILS and MH_PART_FENCE_SAT; FAIL marks it FAILED and
keeps the value; a FAILED fence never changes, and a host signal to one is counted in MH_PART_FENCE_DROP. No other fence
changes. Choices of the model: where a host signal counts as dropped (log 21); whose fences a message may name (log 41); whom a
remote low MAX counts for (log 167). -/
def Obligations.FencesFollowTheirSignals : Prop :=
  ∀ (s : State) (p k v : Nat) (f : Fence), s.fence? (s.homeOf k) = some f →
    -- a FAILED fence stays as it is
    (f.failed = true → s.applyMax p k v = s ∧ s.applyInc p k v = (.fenceFailed, s) ∧ s.applyFail k = s ∧
      -- and a host signal to it is counted
      ∀ n u, k = pkey p n → (s.hostSignal p n u).fences = s.fences ∧ ((s.hostSignal p n u).part p).counts =
        { (s.part p).counts with fenceDrop := min (2 ^ 32 - 1) ((s.part p).counts.fenceDrop + 1) }) ∧
    (f.failed = false →
      -- MAX raises the value
      (f.value < v → (s.applyMax p k v).fence? (s.homeOf k) =
        some { f with value := v, last := s.ftc % 2 ^ 63, changed := true }) ∧
      -- or counts as low
      (v ≤ f.value → (s.applyMax p k v).fence? (s.homeOf k) = some { f with low := min (2 ^ 32 - 1) (f.low + 1) } ∧
        ((s.applyMax p k v).part p).counts.fenceLow = min (2 ^ 32 - 1) ((s.part p).counts.fenceLow + 1)) ∧
      -- INCREMENT adds
      (0 < v → f.value + v < 2 ^ 64 → (s.applyInc p k v).1 = .done ∧ (s.applyInc p k v).2.fence? (s.homeOf k) =
        some { f with value := f.value + v, last := s.ftc % 2 ^ 63, changed := true }) ∧
      (f.value < 2 ^ 64 → s.applyInc p k 0 = (.done, s)) ∧
      -- unless the sum leaves 64 bits
      (2 ^ 64 ≤ f.value + v → (s.applyInc p k v).1 = .fenceSaturated ∧ (s.applyInc p k v).2.fence? (s.homeOf k) =
        some { f with sat := min (2 ^ 32 - 1) (f.sat + 1) } ∧
        ((s.applyInc p k v).2.part p).counts.fenceSat = min (2 ^ 32 - 1) ((s.part p).counts.fenceSat + 1)) ∧
      -- FAIL keeps the value
      (s.applyFail k).fence? (s.homeOf k) = some { f with failed := true, last := s.ftc % 2 ^ 63, changed := true }) ∧
    -- no other fence changes
    ∀ h, h ≠ s.homeOf k → (s.applyMax p k v).fence? h = s.fence? h ∧ (s.applyInc p k v).2.fence? h = s.fence? h ∧
      (s.applyFail k).fence? h = s.fence? h

/-- ENABLE is set only where reservations, pages and records suffice; else OVERCOMMIT is set (R66, R53, R408). For a partition
that is disabled and not being torn down: the condition is that RES_MIN over the enabled partitions and this one totals at most
256, tier-0 and tier-1 pages, with those that a partition being torn down still holds, at most those of the tier, and a context
record and a hardware ring are free beside those that accepted commands will take. Once the boot is over: where it fails only
OVERCOMMIT of this partition is set; where it holds ENABLE and the reservations are set, and with its VF enabled the partition
comes up with context 0 and ring 0 DISABLED on records that were free. Before partitions are brought up the enable is only
noted. Counting the pages of a teardown, records set aside and coming up where the second condition takes effect are the model's
readings. Choices of the model: writes and enables around a teardown, and its pages (log 19); when a partition comes up (log
28); how an admin command's time divides (log 29); MEM_USED of a tier (log 127). -/
def Obligations.PartitionsAreEnabledOnlyIfTheyFit : Prop :=
  ∀ (s : State) (p : Nat), (s.part p).enable = false → (s.part p).teardown = none →
    let t := s.enablePart p
    (s.enableFits p = true ↔
      ((s.enabledWith p).map fun q => q.quota.resMin).sum ≤ 256 ∧ ((s.enabledWith p).map fun q => q.quota.mem0).sum + s.leavingPages 0 ≤ s.tierPages 0 ∧
      ((s.enabledWith p).map fun q => q.quota.mem1).sum + s.leavingPages 1 ≤ s.tierPages 1 ∧
      s.ctxNos.length + s.aside (oneOf [0xC0]) < Config.contexts ∧ s.ringNos.length + s.aside (oneOf [0xC2]) < Config.hardRings) ∧
    (s.booting = false → s.enableFits p = false → t.part p = { s.part p with overcommit := true } ∧ ∀ q, q ≠ p → t.part q = s.part q) ∧
    (s.booting = false → s.enableFits p = true →
      (t.part p).enable = true ∧ (t.part p).reserved = true ∧ (t.part p).overcommit = (s.part p).overcommit ∧
      (t.part p).quota = (s.part p).quota ∧
      ((s.part p).vf = true → (s.part p).up = false →
        (∃ c r, t.ctx? (pkey p 0) = some c ∧ c.no ∉ s.ctxNos ∧ t.ring? (pkey p 0) = some r ∧
          r.no ∉ s.ringNos ∧ r.state = .disabled ∧ r.ctx = pkey p 0) ∧ (t.part p).up = true)) ∧
    -- before partitions are brought up it waits for that
    (s.booting = true → t = { s with boot := t.boot } ∧ t.boot = { s.boot with enables := t.boot.enables } ∧
      ∀ q, q ∈ t.boot.enables ↔ q = p ∨ q ∈ s.boot.enables)

/-- A fetched entry is staged or ends the scan, a failed fetch is taken away, and context loads go on (R80, R81, R84, R62, R63,
R91, R330). ENTRY_ARRIVAL stages a wholly published entry for the next tick and else ends the scan; FETCH_FAULT takes the fetch
away and leaves the ring's fault for the boundary; what a discarded fetch brings is dropped (R91); CONTEXT_LOAD_START begins the
first waiting load where a slot and a load unit are free and presents its 16 sectors at memory port input 4; CONTEXT_LOAD_DONE
and CONTEXT_LOST leave their result for the boundary. Choices of the model: faults are recorded at the boundary (log 16); a
second change of a listed fence (log 22); which load begins (log 26); the data of a discarded fetch (log 161). -/
def Obligations.FetchedEntriesAndContextLoads : Prop :=
  ∀ (s : State) (p r c i : Nat) (x : Ring) (why : IoFail) (host : List Word), s.live → s.stop.stopped = false →
    let k := pkey p r
    -- a fetched entry is staged for the next tick where it is wholly published, and else ends the scan
    (s.ring? k = some x → x.stale = 0 → x.fetch = some i → ∀ head words, head = (if x.loc then host else s.entryWords x i 1) →
      words = (if x.loc then (host ++ List.replicate 512 0).take (2 * lenOf head) else s.entryWords x i (lenOf head)) →
      GoesTo (exec (.entryArrival p r (.ok host)) s) fun t =>
        t = { s with rings := t.rings, transl := t.transl } ∧ (x.loc = false → t.transl = s.transl) ∧
        t.rings = Tbl.adjust s.rings k fun y =>
          if (x.sampled + 2 ^ 32 - i % 2 ^ 32) % 2 ^ 32 < lenOf head then { y with fetch := none, scanStop := true }
          else { y with fetch := none, staged := some { idx := i, words := words, since := s.tick + 1 } }) ∧
    -- a read that fails takes the fetch away; the ring's fault follows at the boundary
    (s.ring? k = some x → x.stale = 0 → x.fetch = some i →
      GoesTo (exec (.fetchFault p r why) s) fun t =>
        t = { s with rings := t.rings, later := t.later, flt := t.flt } ∧
        t.rings = Tbl.adjust s.rings k (fun y => { y with fetch := none }) ∧
        t.later = s.later ++ [.fetchFault k (ioStatus why).code i (x.base + i % 2 ^ x.sizeLog2 * 16)]) ∧
    -- what a discarded fetch brings is dropped (R91)
    (s.ring? k = some x → x.stale ≠ 0 →
      exec (.entryArrival p r (.ok host)) s = .next { s with rings := Tbl.adjust s.rings k fun y => { y with stale := y.stale - 1 } } ∧
      exec (.fetchFault p r why) s = .next { s with rings := Tbl.adjust s.rings k fun y => { y with stale := y.stale - 1 } }) ∧
    -- the context loads
    (∀ l rest, s.loads = l :: rest → l.waited = true → l.loading = false → l.key = pkey p c → s.loading < 16 →
      s.slotsUsed < 256 → exec (.contextLoadStart p c) s =
        .next { s.present 4 16 with loads := s.loads.map (fun l => if l.key = pkey p c then { l with loading := true } else l) }) ∧
    ((s.loads.any fun l => l.key == pkey p c && l.loading) = true → s.later = [] →
      exec (.contextLoadDone p c) s = .next { s with later := [.ctxLoaded (pkey p c)] } ∧
      GoesTo (exec (.contextLost p c) s) fun t => t = { s with later := [.ctxLost (pkey p c)], flt := t.flt })

/-- Parked commands go on when what they wait for has come (R379, R97, R275, R282, R121, R113, R169). A routine that waits goes
on where it still holds a sequencer or a free one accepts it in its turn, and otherwise becomes a candidate and stays as it is.
ROUTINE_RESUME decides an admin command in progress, a GRAPH_PATCH by the live generations of then; ROUTE_UNIT_GRANT gives the
first waiting ROUTE a unit, and its scores are read twice; DESCRIPTOR_ARRIVAL starts the instances of a DISPATCH or decides a
PERSIST one, whose task the boundary installs, gives a node that waits for its release its byte, and ends a command whose
descriptor could not be read or names another engine; PREDICATE_READ_RETURN ends a command whose predicate could not be read and
else has its value evaluated in the next tick. No ring, launch or other command changes. Choices of the model: how an admin
command's time divides (log 29); the ticks of predicates and children, and the order of reservations (log 33); which sequencer,
and the rerun after a parity error (log 43); the memory port's cycles (log 102). -/
def Obligations.WaitingCommandsGoOn : Prop :=
  ∀ (s : State) (w l i : Nat) (x : Work) (io : Io) (host : List Word), s.live → s.stop.stopped = false →
    s.work? w = some x →
    -- it holds a sequencer, or one accepts it in its turn
    let goesOn := s.onSeqr w = true ∨ s.turn (s.backRank x) = true
    let phaseIs := fun c ph => GoesTo (exec c s) fun t =>
      (t.work? w).map (fun y => y.phase) = some ph ∧ s.keepsRest t w ∧ t.aroundStart = { s.aroundStart with flt := t.flt }
    -- an admin command in progress is decided when its routine resumes; a GRAPH_PATCH counts live generations then
    (∀ since, x.phase = .io .admin since → since ≤ s.tick → s.adminWaits x.part = false → goesOn →
      phaseIs (.routineResume w io none)
        (.decided (if opcodeOf x.cmd = 0xC9 then (s.chkPatchRoom x.part x.cmd).getD Res.ok else Res.ok) (s.tick + 1))) ∧
    -- without a sequencer it stays as it is, a candidate from this boundary on
    (∀ since, x.phase = .io .admin since → since ≤ s.tick → s.adminWaits x.part = false →
      s.onSeqr w = false → s.turn (s.backRank x) = false →
      exec (.routineResume w io none) s = .next { s with
        works := Tbl.adjust s.works w fun x => { x with seqFrom := some (x.seqFrom.getD s.tick) } }) ∧
    -- a waiting ROUTE takes a routing unit, which reads its scores twice
    (s.nextRoute = some w → s.unitsBusy < 4 → x.abort = none → goesOn → GoesTo (exec (.routeUnitGrant w) s) fun t =>
      (t.work? w).map (fun y => y.phase) = some (.unitRun s.tick) ∧
      (let scores := fun s : State =>
         s.issueRead x.ck 6 (x.locs.getD 0 (.dev 0 0)) (roTok x.cmd * roExp x.cmd * (if roBf16 x.cmd then 2 else 4))
       let r := scores (scores s)
       t.out = r.out ∧ t.arb = r.arb) ∧ s.keepsWorks t w ∧ t.aroundStart = s.aroundStart) ∧
    -- a kernel descriptor of its own engine starts the instances or installs a task, and one of another ends the command
    (x.phase = .descriptor → goesOn → (s.readByte (s.locAddr (x.locs.headD (.dev 0 0)))).toNat = fld x.cmd 9 0 3 →
      GoesTo (exec (.descriptorArrival l i w (.ok host)) s) fun t => s.keepsRest t w ∧ t.aroundStart = s.aroundStart ∧
        (persistOf x.cmd = true → (t.work? w).map (fun y => y.phase) = some (.decided Res.ok (s.tick + 1))) ∧
        (persistOf x.cmd = false → ∃ v, t.work? w = some { x with
          phase := .running
          seqFrom := v
          segUs := s.segUs (fld x.cmd 80 0 16)
          itemNs := fld x.cmd 76 0 32
          insts := x.insts.map fun (j : Inst) => { j with since := s.tick } })) ∧
    -- of a node that waits for its release it gives byte 0 of the descriptor, or why it could not be read
    (∀ y en rd kern o, s.launch? l = some y → y.nodes.getD i .outside = .waiting en rd .reading kern → x.phase ≠ .descriptor →
      kern.pin = some o →
      GoesTo (exec (.descriptorArrival l i w (.ok host)) s) (fun t => t = { s with launches := Tbl.adjust s.launches l fun z =>
        { z with nodes := z.nodes.set i (.waiting en rd
          (.here (s.readByte (s.locAddr (.dev o (mrefOff (s.effBody y i) 40)))).toNat) kern) } }) ∧
      ∀ why a, GoesTo (exec (.descriptorArrival l i w (.fail why a)) s) (fun t => t = { s with
        flt := t.flt
        launches := Tbl.adjust s.launches l fun y =>
          { y with nodes := y.nodes.set i (.waiting en rd (.failed (ioRes why a)) kern) } })) ∧
    (x.phase = .descriptor → goesOn →
      (∀ why a, phaseIs (.descriptorArrival l i w (.fail why a)) (.decided (ioRes why a) (s.tick + 1))) ∧
      ((s.readByte (s.locAddr (x.locs.headD (.dev 0 0)))).toNat ≠ fld x.cmd 9 0 3 →
        phaseIs (.descriptorArrival l i w (.ok host)) (.decided (Res.of .malformed 0x0203) (s.tick + 1)))) ∧
    -- a predicate's value is evaluated in the tick after its read returns
    (x.phase = .predRead → x.abort = none →
      (goesOn → ∀ why a, phaseIs (.predicateReadReturn w (.fail why a)) (.decided (ioRes why a) (s.tick + 1))) ∧
      phaseIs (.predicateReadReturn w (.ok host)) (.predVal
        (if (x.locs.headD (.dev 0 0)).isHost then host.headD 0 else BitVec.ofNat 64 (leNat (s.readLoc (x.locs.headD (.dev 0 0)) 8)))
        (s.tick + 1)))

/-- A resumed WRITE_VALUE or TIMESTAMP stores exactly its bytes, little-endian, and is decided CS_DONE (R145, R147). When the
routine of a command whose write of n bytes of v to a device place is due resumes, the bytes of the place read v in
little-endian order, every other byte of memory reads as before, the command is decided CS_DONE for the next boundary, and
nothing else changes. Choices of the model: the ticks of a write and its stamp (log 34); when a write counts as decided (log
162). -/
def Obligations.WriteValueStoresItsBytes : Prop :=
  ∀ (s : State) (w n v o off since : Nat) (x : Work), s.live → s.stop.stopped = false →
    s.work? w = some x → x.phase = .io (.write n v) since → x.locs = [.dev o off] → since ≤ s.tick →
    isAdmin (opcodeOf x.cmd) = false → (s.onSeqr w = true ∨ s.turn (s.backRank x) = true) →
    GoesTo (exec (.routineResume w (.ok []) none) s) fun t =>
      (t.work? w).map (fun y => y.phase) = some (.decided Res.ok (s.tick + 1)) ∧ s.keepsRest t w ∧
      t.aroundStart = { s.aroundStart with mem := t.mem } ∧
      (∀ a, (∀ j, j < n → a ≠ s.locAddr (.dev o (off + j))) → t.readByte a = s.readByte a) ∧
      ((∀ j k, j < n → k < n → s.locAddr (.dev o (off + j)) = s.locAddr (.dev o (off + k)) → j = k) →
        ∀ j, j < n → t.readByte (s.locAddr (.dev o (off + j))) = BitVec.ofNat 8 (v / 256 ^ j))

/-- A waiting child launch obtains its slots, and a timeout count that is reached decides an urgent abort (R172, R88).
CHILD_RESERVATION launches the child of a waiting command, no earlier attempt of that tick before it, where 1 + W slots are
free; RING_TIMEOUT of a started entry whose count has reached TIMEOUT_US decides one urgent abort with CS_TIMEOUT and marks the
entry, and changes nothing else. Choices of the model: when the environment may send an event (log 6); how timeout ticks count
(log 23); the ticks of predicates and children, and the order of reservations (log 33). -/
def Obligations.ChildReservationsAndTimeouts : Prop :=
  ∀ (s : State) (w g p r seq u : Nat) (c : Bool) (x : Work) (y : Graph), s.live → s.stop.stopped = false →
    s.work? w = some x →
    (x.phase = .reserve g c → x.released < s.tick → s.works.any (s.reserveBefore w) = false → s.callerStopped x = false →
      (s.onSeqr w = true ∨ s.turn (s.backRank x) = true) →
      s.graphOf x.part g = some u → s.graph? u = some y → y.state = .ready → s.childDepth x ≤ 8 →
      s.slotsFree x.part (1 + y.window) = true →
      GoesTo (exec (.childReservation w) s) fun t => (t.work? w).map (fun z => z.phase) = some (.child s.nextLaunch) ∧
        (t.launch? s.nextLaunch).map (fun z => (z.owner, z.graph, z.gen)) = some (.work w, u, y.cur) ∧
        s.keepsRest t w ∧ t.aroundStart = s.aroundStart) ∧
    (s.entryBySeq p r seq = some w → x.timedOut = false → x.timeoutUs ≠ 0 → x.timeoutUs * 1000 ≤ x.ticks * 64 →
      exec (.ringTimeout p r seq) s = .next { s with
        works := Tbl.adjust s.works w fun x => { x with timedOut := true }
        aborts := s.aborts ++ [{ whom := .work w, st := .timeout, detail := 0, urgent := true }] })

/-- Failed postings are retried three times and then block the ring; a retry writes what was held (R215, R216, R217, R203).
POSTING_FAILURE of an unanswered posting schedules the next retry after 1, 10 or 100 microseconds in ticks, holding back at most
64 records, or after the third retry blocks the ring at the next boundary; POSTING_RETRY of a held completion word in device
memory writes the eight bytes of the word, no other byte, and releases the hold. Choices of the model: when the environment may
send an event (log 6); when a posting fails (log 53). -/
def Obligations.PostingRetriesAndBlocking : Prop :=
  ∀ (s : State) (p r n : Nat) (why : IoFail) (x : Ring) (hd : Hold), s.live → s.stop.stopped = false →
    let k := pkey p r
    s.ring? k = some x → x.hold = some hd →
    (hd.st = .unanswered n → GoesTo (exec (.postingFailure p r why) s) fun t =>
      t = { s with rings := t.rings, flt := t.flt, parts := t.parts } ∧
      -- from the report on the ring holds back at most 64 records
      (hd.recs.length ≤ 64 → (s.part (keyPart k)).counts.recDrop < 2 ^ 32 → ∀ q, (t.part q).counts = (s.part q).counts) ∧
      ∃ st, t.ring? k = some { x with hold := some { hd with st := st, recs := if n < 3 then hd.recs.take 64 else hd.recs } } ∧
        st = (if n = 0 then .retryIn 0 16 else if n = 1 then .retryIn 1 157 else if n = 2 then .retryIn 2 1563
              else .blocking (ioStatus why).code x.heldAddr)) ∧
    (∀ q, hd = { st := .retryIn n 0, lead := none, recs := [], word := some q, events := [] } → x.cseqLoc = false →
      GoesTo (exec (.postingRetry p r none) s) fun t =>
        t.ring? k = some { x with hold := none, written := q } ∧ (∀ m, m ≠ k → t.ring? m = s.ring? m) ∧
        t.ctxs = s.ctxs ∧ t.works = s.works ∧ t.fences = s.fences ∧
        (∀ j, j < 8 → t.readByte (x.cseq + j) = BitVec.ofNat 8 (q / 256 ^ j)) ∧
        (∀ a, a < x.cseq ∨ x.cseq + 8 ≤ a → t.readByte a = s.readByte a))

/-- Masks of vectors and functions hold messages back, and unmasking sends what is pending (R210). MSIX_MASK sets the mask of a
vector or of the function and changes nothing else; MSIX_UNMASK clears it and sends each pending message that no mask holds back
any longer, clearing its pending bit, and keeps the others. Choices of the model: values after power-on that the spec does not
give (log 5). -/
def Obligations.MasksAndPendingMessages : Prop :=
  ∀ (s : State) (p v : Nat), s.live → p < 128 → v < 256 →
    exec (.msixMask p (some v)) s = .next { s with
      parts := Tbl.set s.parts p { s.part p with
        vecs := Tbl.set (s.part p).vecs v { s.vec p v with masked := true } } } ∧
    exec (.msixMask p none) s = .next { s with parts := Tbl.set s.parts p { s.part p with funcMask := true } } ∧
    GoesTo (exec (.msixUnmask p (some v)) s) (fun t =>
      t = { s with parts := t.parts, out := t.out } ∧ (t.vec p v).masked = false ∧
      ((s.vec p v).pendingBit = true → (s.part p).funcMask = false → t.out = s.out ++ [.msix p v] ∧ (t.vec p v).pendingBit = false) ∧
      (((s.vec p v).pendingBit = false ∨ (s.part p).funcMask = true) → t.out = s.out ∧ (t.vec p v).pendingBit = (s.vec p v).pendingBit)) ∧
    GoesTo (exec (.msixUnmask p none) s) (fun t =>
      t = { s with parts := t.parts, out := t.out } ∧ (t.part p).funcMask = false ∧
      ∀ u, (t.vec p u).masked = (s.vec p u).masked ∧
        ((s.vec p u).pendingBit = true → (s.vec p u).masked = false → .msix p u ∈ t.out ∧ (t.vec p u).pendingBit = false) ∧
        ((s.vec p u).masked = true → (t.vec p u).pendingBit = (s.vec p u).pendingBit))

/-- ATS invalidations drop a translation once no segment uses it, and disabling ATS drops those cached (R55). An invalidation of
a page that no segment uses drops its translation and is answered at once; of a page in use it is marked closing and answered by
ATS_INVALIDATION_ANSWER when no segment that was dispatched before it uses it any longer; ATS_ENABLE_CHANGE sets the mode and on
disabling drops what is cached. Which pages a running segment uses is the model's reading. Choices of the model: which pages a
segment uses (log 25). -/
def Obligations.TranslationsAreInvalidated : Prop :=
  ∀ (s : State) (p c page n : Nat) (x : Ctx) (used : Bool) (kept : List Transl) (closing : Transl), s.live →
    s.ctx? (pkey p c) = some x → used = s.pageUsed (pkey p c) page n → 
    kept = s.transl.filter (fun t => !(t.ctx == pkey p c && t.page == page && !t.closing)) →
    closing = { ctx := pkey p c, page := page, closing := true, at_ := n } →
    (s.atsOn = true → n = s.tick → used = false →
      exec (.atsInvalidation p c page) s = .next { s with transl := kept, out := s.out ++ [.atsDone p c page] }) ∧
    (s.atsOn = true → n = s.tick → used = true →
      exec (.atsInvalidation p c page) s = .next { s with transl := kept ++ [closing] }) ∧
    -- only segments dispatched before it hold its answer back
    (s.transl.filter (fun t => t.ctx == pkey p c && t.page == page && t.closing) = [closing] → used = false →
      exec (.atsInvalidationAnswer p c page) s =
        .next { s with transl := s.transl.erase closing, out := s.out ++ [.atsDone p c page] }) ∧
    (s.transl.filter (fun t => t.ctx == pkey p c && t.page == page && t.closing) = [closing] → used = true →
      exec (.atsInvalidationAnswer p c page) s = .next s) ∧
    exec (.atsEnableChange true) s = .next { s with atsOn := true } ∧
    exec (.atsEnableChange false) s = .next { s with atsOn := false, transl := s.transl.filter fun t => t.closing }

/-- Accepted untimed flits have their effect at once (R37, R30, R31, R32, R40, R41, R190). At their destination, intact and not
seen before: TIME_REQ is answered with TIME_RESP carrying t1, t2 and t3; LINK_ECHO is echoed with its stamp, and the answer to
one of this chip's own sets the paths (which of the two it is, and when one is sent, is the model's choice, log entry 118); a
REFUSAL is counted against the partition that originated the refused flit; TIME_RESP of the parent sets the offset and moves the
synchronisation state; TIME_ANNOUNCE is kept for its neighbour, and the best root that the neighbours offer becomes this chip's,
or a chip that is no candidate has none; an unknown kind is refused. Choices of the model: stepping the FTC (log 115); when a
root announces (log 116); a root's own synchronisation state, and recovery (log 117); when an echo is sent and which it is (log
118); the asymmetry's sign (log 119); NO_ROOT (log 139). -/
def Obligations.UntimedFlitsAreAnswered : Prop :=
  ∀ (s : State) (f : Flit) (t2 t3 t4 nb : Nat) (asym : Int) (y : State), s.live →
    s.isDest f = true → flitCrcOk f = true → s.seenFlit f = false →
    y = { s with fab := { s.fab with accepted := Tbl.set s.fab.accepted (flitFrom f) (f.inc, f.seq) } } →
    (f.eff = 0 →
      (f.kind = 0x01 → exec (.timeReq f t2 t3) s =
        .next (y.sendFlit 0x02 (flitFrom f) 0 f.w0 (BitVec.ofNat 64 t2) (BitVec.ofNat 64 t3)).2) ∧
      (f.kind = 0x7F → Tbl.get? s.fab.echoes (flitFrom f) ≠ some f.w0.toNat →
        exec (.linkEcho f) s = .next (y.sendFlit 0x7F (flitFrom f) 0 f.w0 0 0).2) ∧
      (f.kind = 0x7F → Tbl.get? s.fab.echoes (flitFrom f) = some f.w0.toNat → ∃ k,
        exec (.linkEcho f) s = .next { y with
          free := s.free + 1
          fab := { y.fab.path (ceilDiv (s.ftc + k % 64 - f.w0.toNat) 2) (8 - f.hops) with
            echoes := Tbl.erase s.fab.echoes (flitFrom f) } }) ∧
      (f.kind = 0x7E → ∀ k p, k = bitsOf f.w0.toNat 32 16 * 2 ^ 16 + bitsOf f.w0.toNat 48 16 → Tbl.get? s.fab.origin k = some p →
        exec (.refusal f) s = .next { y with
          fab := { y.fab with origin := Tbl.erase s.fab.origin k }
          parts := Tbl.set s.parts p { s.part p with
            counts := { (s.part p).counts with fenceRemote := satInc 32 (s.part p).counts.fenceRemote } } }) ∧
      (f.kind = 0x02 → s.fab.parent = some (flitFrom f) → s.fab.waitingResp = true → s.booting = false →
        ∀ off good, off = offset16 f.w0.toNat f.w1.toNat f.w2.toNat t4 asym →
          good = (if off.natAbs ≤ 32 then s.fab.good + 1 else 0) →
          exec (.timeResp f t4 asym) s = .next (({ y with
            fab := { y.fab with offset := off, good := good, missed := 0, waitingResp := false } } : State).toSync
              (s.fab.next off good false))) ∧
      (f.kind = 0x03 → s.fab.sync ≠ .free → ∀ z : Fab, z = { y.fab with
          heard := Tbl.set s.fab.heard nb (bitsOf f.w0.toNat 0 15, bitsOf f.w0.toNat 16 8, bitOf f.w0.toNat 24) } →
        (∀ root hops p cal, z.best s.cfg.rootCand = some (root, hops, p, cal) →
          (s.fab.parent ≠ some p ∨ s.fab.rootChip ≠ root) → (s.fab.isRoot = false ∨ s.booting = false) →
          exec (.timeAnnounce f nb) s = .next { y with
            fab := { z with isRoot := false, noRoot := false, rootChip := root, parent := some p, hopsToRoot := hops,
                            calValid := cal, good := 0, missed := 0, waitingResp := false } }) ∧
        (z.best s.cfg.rootCand = none → s.cfg.rootCand = false →
          exec (.timeAnnounce f nb) s = .next { y with
            fab := { z with isRoot := false, noRoot := true, rootChip := 0, parent := none, hopsToRoot := 0,
                            waitingResp := false } }))) ∧
    (knownKind f.kind = false → exec (.unknownKindFlit f) s = .next (y.refuseFlit f))

/-- Flits for other chips are relayed with HOPS lowered or dropped; damaged ones are refused; repeats do nothing (R36, R37, R40,
R41). FLIT_RELAY at another chip's flit forwards it with HOPS lowered by one, or at HOPS 0 counts it refused; a flit with a bad
CRC is refused and a repeated one changes nothing; a refusal is counted, and unless the refused flit is itself a REFUSAL, it
sends a REFUSAL carrying the first 16 bytes to the source. Choices of the model: a relayed flit's CRC (log 120). -/
def Obligations.RelayedAndRefusedFlits : Prop :=
  ∀ (s : State) (f g : Flit), s.live →
    (s.isDest f = false → f.hops = 0 → exec (.flitRelay f) s =
      .next { s with fab := { s.fab with refused := satInc 32 s.fab.refused } }) ∧
    (s.isDest f = false → f.hops ≠ 0 → g = { f with hops := f.hops - 1 } → exec (.flitRelay f) s =
      .next { s with out := s.out ++ [.flit { g with crc := f.crc ^^^ crc32 (flitBytes f) ^^^ crc32 (flitBytes g) }] }) ∧
    (∀ cmd ∈ [Instr.timeReq f 0 0, .timeAnnounce f 0, .linkEcho f, .refusal f], ∀ kind,
      (cmd, kind) ∈ [(Instr.timeReq f 0 0, 0x01), (.timeAnnounce f 0, 0x03), (.linkEcho f, 0x7F), (.refusal f, 0x7E)] →
      f.kind = kind → s.isDest f = true →
      (flitCrcOk f = false → exec cmd s = .next (s.refuseFlit f)) ∧
      (flitCrcOk f = true → s.seenFlit f = true → exec cmd s = .next s)) ∧
    (s.refuseFlit f).fab.refused = satInc 32 s.fab.refused ∧
    (f.kind = 0x7E → (s.refuseFlit f).out = s.out) ∧
    (f.kind ≠ 0x7E → ∃ r, (s.refuseFlit f).out = s.out ++ [.flit r] ∧ r.kind = 0x7E ∧ r.dst = flitFrom f ∧ r.src = s.fab.chip ∧
      r.seq = Tbl.getD s.fab.seqTo (flitFrom f) 0 ∧
      r.w0 = BitVec.ofNat 64 (leNat ((flitBytes f).take 8)) ∧ r.w1 = BitVec.ofNat 64 (leNat (((flitBytes f).drop 8).take 8)))

/-- Accepted timed flits are held for their tick, and late ones are counted (R38, R39, R40, R190, R254, R255, R299, R343).
FENCE_SIGNAL, FENCE_FAIL, COLLECTIVE CANCEL and the seven epoch flits, accepted, are held for their effective tick or, if late,
for the next boundary and counted; a late epoch flit also sets LATE_STRICT and raises its interrupt; in a global stop a flit for
a tick after the cut is held and is not late (R343). Choices of the model: traffic during a stop (log 86). -/
def Obligations.TimedFlitsWaitForTheirTick : Prop :=
  ∀ (s : State) (f : Flit), s.live → s.isDest f = true → flitCrcOk f = true → s.seenFlit f = false →
    s.refusesTimed = false → flitTick f ≤ s.tick + 65536 → s.fab.hold.length < 4096 →
    let seen := Tbl.set s.fab.accepted (flitFrom f) (f.inc, f.seq)
    let held := fun late => { s with fab := { s.fab with
      accepted := seen, late := late, hold := s.fab.hold ++ [(s.tick, f)] } }
    let waits := fun cmd =>
      (s.tick < flitTick f → exec cmd s = .next (held s.fab.late)) ∧
      (s.stop.stopped = true → s.stop.cut < flitTick f → exec cmd s = .next (held s.fab.late)) ∧
      (flitTick f ≤ s.tick → s.stop.stopped = false → strictKind f.kind = false → exec cmd s = .next (held (satInc 32 s.fab.late)))
    (f.kind = 0x10 → waits (.fenceSignalFlit f)) ∧
    (f.kind = 0x11 → waits (.fenceFailFlit f)) ∧
    (f.kind = 0x40 → waits (.xchgCancel f)) ∧
    (f.kind = 0x30 → ∀ cmd op, (cmd, op) ∈ [(Instr.epochFlitRequest f, 1), (.epochFlitPrepare f, 2), (.epochFlitReady f, 3),
        (.epochFlitFlip f, 4), (.epochFlitClear f, 5), (.epochFlitRetire f, 6), (.epochFlitCancel f, 7)] → epochOpOf f = op →
      waits cmd ∧ (flitTick f ≤ s.tick → s.stop.stopped = false → exec cmd s = .next (({ held (satInc 32 s.fab.late) with
        fab := { (held (satInc 32 s.fab.late)).fab with lateStrict := true } } : State).raise 33)))

/-- Endpoints take DISPATCH, ABORT and STOP, report FROZEN, and send trace messages (R20, R222, R292, R341, R342, R417, R422,
R424, R430, R431). DISPATCH_MESSAGE begins the segment within two clock periods of the boundary at which it may begin (when
within them is free), the walker of a GROUPED_MM reaching the group of its first item; SEGMENT_DONE and NODE_DONE of a segment
whose items are all done join the messages of the tick and bring the BUSY pair up to the end; FENCE_SIGNAL_MESSAGE joins the
signals of the tick; ABORT_MESSAGE notes the abort, and at a stopped clock the state port ends the segment at once; STOP_MESSAGE
is noted; FREEZE_REPORT keeps the words that go into the snapshot; TRACE_MESSAGE is the SEG_END of the first untraced report of
its endpoint, sent where the source holds a slot and else counted lost, and nothing where there is none. Choices of the model:
what a report may end (log 38); whose fences a message may name (log 41); the order of the list checks (log 71); words of an
endpoint that sent none (log 92); when a segment begins within its clock periods (log 142); amounts of a cut segment (log 169).
-/
def Obligations.EndpointsTakeTheirMessages : Prop :=
  ∀ (s : State) (ep stamp : Nat) (x : Ep) (g : Seg) (words : List Word), s.live → x = s.ep ep →
    let begun := fun (n : Nat) => ({ s with eps := Tbl.set s.eps ep { x with seg := some { g with begun := some stamp, walked := n } } } : State)
    -- DISPATCH: the segment begins; the walker of a GROUPED_MM reaches the group of its first item
    (x.seg = some g → g.begun = none → s.stop.stopped = false → x.clockStopped = false → x.hung = false →
      g.from_ ≤ s.tick → x.mayBegin g ≤ stamp → stamp ≤ x.mayBegin g + twoPeriods x.step →
      ((∀ w i, g.owner = .work w i → ∃ y, s.work? w = some y ∧ opcodeOf y.cmd ≠ 0x05) →
        exec (.dispatchMessage ep stamp) s = .next (begun g.walked)) ∧
      ∀ w i y, g.owner = .work w i → s.work? w = some y → opcodeOf y.cmd = 0x05 → g.walked < g.count →
        exec (.dispatchMessage ep stamp) s = .next ((begun (g.walked + 1)).run fun z => z.mmReach w i (g.first + g.walked))) ∧
    -- SEGMENT_DONE and NODE_DONE: the BUSY pair is brought up to the end
    (ep < 512 → s.stop.stopped = false → s.isFenced (ep / 4) = false → x.hung = false → x.clockStopped = false →
      x.ended = false → x.seg = some g → g.begun.isSome = true → s.sentBy ep < 2 →
      ∀ (cmd : Instr) (node : Bool) (r : SegReport) (e d : Nat), (cmd, node) ∈ [(.segmentDone ep r, false), (.nodeDone ep r, true)] →
      r.code = 0 → r.fatal = false → r.writes = [] → r.items = g.count → s.kindFits node g r.items = true →
      e = min (s.tick * 64 + 63) (r.stamp.getD s.ftc) → d = x.busyNow false e →
      GoesTo (exec cmd s) fun t =>
        t = { s with eps := t.eps, gcnt := t.gcnt, pcnt := t.pcnt, msgs := s.msgs ++ [{ ep := ep, node := node, r := r }] } ∧
        t.ep ep = { x with seg := some { g with busy := g.busy + d, busyFrom := max g.busyFrom e }, ended := true
                           busyNs := (x.busyNs + d) % 2 ^ 64, busyCyc := (x.busyCyc + d * x.step * 3) % 2 ^ 69 } ∧
        ∀ k, ep ≠ k → t.ep k = s.ep k) ∧
    (∀ p f v y, s.fence? (pkey p f) = some y → s.fenceLive p f = true → y.signal = true → s.isRemote (pkey p f) = false →
      s.stop.stopped = false → exec (.fenceSignalMessage p f v) s =
        .next { s with sigs := s.sigs ++ [{ src := .message, fence := pkey p f, value := some (v % 2 ^ 64) }] }) ∧
    -- ABORT: at a stopped clock the state port ends the segment
    (∀ u b, x.abort = some (u, b) → x.seg = some g → x.abortAt = none → x.ended = false → s.stop.stopped = false →
      (x.clockStopped = false → b < s.tick → exec (.abortMessage ep) s =
        .next { s with eps := Tbl.set s.eps ep { x with abortAt := some s.tick } }) ∧
      (x.clockStopped = true → b ≤ s.tick → GoesTo (exec (.abortMessage ep) s) fun t =>
        t = { s with free := s.free + 129, eps := t.eps
                     msgs := s.msgs ++ [{ ep := ep, node := false, r := SegReport.cut ep g.count s.free }] } ∧
        t.ep ep = { x with abortAt := some s.tick, ended := true } ∧ ∀ e, ep ≠ e → t.ep e = s.ep e)) ∧
    (ep < 526 → s.cutting = true →
      exec (.stopMessage ep) s = .next { s with eps := Tbl.set s.eps ep { x with stopSent := true } }) ∧
    (s.stop.stopped = true → x.stopSent = true → x.frozen = none → x.hung = false → 512 ≤ ep →
      ∃ ftc, s.ftc ≤ ftc ∧ ftc < s.ftc + 64 ∧ exec (.freezeReport ep words) s = .next { s with
        free := s.free + 1, eps := Tbl.set s.eps ep { x with frozen := some words },
        stop := { s.stop with frozenFtc := ftc } }) ∧
    -- TRACE: the SEG_END of the first report of this tick that has not been traced
    (∀ (a : TraceMsg) (k : Nat) (y : EpMsg) (m : TraceMsg) (z : State), s.msgs.findIdx? (fun m => m.ep == a.src && !m.traced) = some k →
      s.msgs[k]? = some y → y.ep = ep → y.r.fatal = false → x.seg = some g →
      m = { src := ep, event := 2, offset := y.r.stamp.getD 0 % 64, deferred := y.r.stamp.isNone, part := g.part
            d0 := y.r.items % 2 ^ 32, d1 := g.seq % 2 ^ 32
            d2 := g.ring % 2 ^ 16 + 2 ^ 16 * natOfBool y.node + 2 ^ 24 * (y.r.code % 256) } →
      z = { s with free := s.free + 2, msgs := s.msgs.set k { y with traced := true } } →
      s.trace.onTick = true → s.trace.enabled ep = true → s.trace.passes m = true →
      (s.trace.holders.contains ep = true → (s.trace.sent.any fun y => y.msg.src == ep) = false →
        exec (.traceMessage a) s = .next { z with trace := { s.trace with
          sent := s.trace.sent ++ [{ msg := m, loss := s.trace.owed.contains ep }]
          owed := s.trace.owed.filter fun y => y != ep } }) ∧
      (s.trace.holders.contains ep = false →
        exec (.traceMessage a) s = .next { z with trace := { s.trace with
          lost := satInc 32 s.trace.lost
          owed := if s.trace.owed.contains ep then s.trace.owed else ep :: s.trace.owed } })) ∧
    (∀ a : TraceMsg, (∀ y ∈ s.msgs, y.ep = a.src → y.traced = true) → exec (.traceMessage a) s = .next s)

/-- Segment and node reports store what they wrote and wait for the boundary; fence messages wait for step 2 (R20, R123, R177,
R412, R422, R424, R344, R417). SEGMENT_DONE and NODE_DONE that the endpoint can send (all items done, or its running time of
SEG_MAX_US used up, or an error) store exactly the reported bytes that lie in the outputs of its command, end the segment at its
endpoint, add its running time to the BUSY pair and join the tick's messages; one that wrote outside the device address map
faults. A report of the hub's endpoints is of a partition that their work belongs to. FENCE_SIGNAL_MESSAGE joins the signals
that the next boundary applies with MAX. Choices of the model: what a report may end (log 38); the partition of the hub's work
(log 39); whose fences a message may name (log 41); what kernels write (log 54); a report of a byte outside the device map
faults (log 137). -/
def Obligations.ReportsAndMessagesReachMahorn : Prop :=
  ∀ (s : State) (ep p f v e : Nat) (r : SegReport) (cmd : Instr) (node : Bool) (x : Ep), s.live → x = s.ep ep →
    e = min (s.tick * 64 + 63) (r.stamp.getD s.ftc) →
    ((cmd, node) ∈ [(Instr.segmentDone ep r, false), (.nodeDone ep r, true)] →
      (s.takesReport node ep r = true ∨
        (s.stop.stopped = false ∧ s.sentBy ep < 2 ∧ x.clockStopped = false ∧
          ((512 ≤ ep ∧ ep < 526 ∧ s.hubPart ep r.part = true) ∨
            ∃ g b, ep < 512 ∧ s.isFenced (ep / 4) = false ∧ x.hung = false ∧ x.ended = false ∧ x.seg = some g ∧ g.begun = some b ∧
              (r.fatal = true ∨ (r.items ≤ g.count ∧
                (r.code ≠ 0 ∨ ((r.items = g.count ∨ (1 ≤ r.items ∧ g.segNs ≤ g.busy + (s.tick * 64 + 63 - max b g.busyFrom))) ∧
                  s.kindFits node g r.items = true))))))) →
      ((∀ c ∈ r.writes, deviceAddr s.cfg c.1 = true) → GoesTo (exec cmd s) fun t =>
        t = { s with mem := t.mem, eps := t.eps, gcnt := t.gcnt, pcnt := t.pcnt, msgs := s.msgs ++ [{ ep := ep, node := node, r := r }] } ∧
        (r.fatal = true ∨ x.seg = none → t.ep ep = { x with ended := false }) ∧
        (∀ g d, r.fatal = false → x.seg = some g → d = x.busyNow s.stop.stopped e → t.ep ep = { x with
          seg := some { g with busy := g.busy + d, busyFrom := max g.busyFrom e }, ended := true
          busyNs := (x.busyNs + d) % 2 ^ 64, busyCyc := (x.busyCyc + d * x.step * 3) % 2 ^ 69 }) ∧
        (∀ k, ep ≠ k → t.ep k = s.ep k) ∧
        (∀ a, t.readByte a = match newest (s.kept ep r.writes).reverse a with | some b => b | none => s.readByte a)) ∧
      (∀ c ∈ r.writes, deviceAddr s.cfg c.1 = false → exec cmd s = .fault .noDeviceAddress)) ∧
    (s.fenceLive p f = true → s.maySignal p f = true → s.isRemote (pkey p f) = false → s.stop.stopped = false →
      exec (.fenceSignalMessage p f v) s =
        .next { s with sigs := s.sigs ++ [{ src := .message, fence := pkey p f, value := some (v % 2 ^ 64) }] })

/-- Management writes with a row of their own reach Mahorn and wait for the boundary (R247, R265, R327, R350, R368, R370, R359,
R374, R425, R431, R335). EPOCH_FLIP_WRITE, HOTROW_INVALIDATE, SERVICE_ACTIVATE, HANG_CLEAR, FW_ACTIVATE, FW_ABORT,
FW_COMMIT_SVN, CRASH_CLEAR, GCNT_LATCH, TRACE_MARK and PART_CNT_LATCH join the writes that the next boundary applies as writes
of their register, and change nothing else; CORE_FENCE_WRITE also decides the fencing at arrival (log entry 6). Choices of the
model: how a core is fenced (log 89); ENABLE is looked at when a write arrives (log 124). -/
def Obligations.ManagementWritesWaitForTheBoundary : Prop :=
  ∀ (s : State) (p core v : Nat), s.live →
    let write := fun who at_ bytes data => Host.Outcome.next { s with
      hostOps := s.hostOps ++ [.reg { who := who, addr := at_, bytes := bytes, data := data }] }
    exec .epochFlipWrite s = write .pf 0x10060008 1 1 ∧
    exec .hotrowInvalidate s = write .pf 0x10060218 4 1 ∧
    exec .serviceActivate s = write .pf 0x10080000 4 1 ∧
    exec .hangClear s = write .pf 0x10090022 1 1 ∧
    exec .fwActivate s = write .pf 0x100A0200 4 2 ∧
    exec .fwAbort s = write .pf 0x100A0200 4 3 ∧
    exec .fwCommitSvn s = write .pf 0x100A0200 4 4 ∧
    exec .crashClear s = write .pf 0x100A0300 4 0x10000 ∧
    exec .gcntLatch s = write .pf 0x100F0100 4 1 ∧
    exec (.traceMark v) s = write .pf 0x100F0048 8 (v % 2 ^ 64) ∧
    (p < 128 → s.isUp p = true → exec (.partCntLatch p) s = write (.vf p) 0x80000 4 1) ∧
    exec (.coreFenceWrite core) s = .next { s with
      flt := { s.flt with fencing := s.flt.fencing ++ [(core % 128, 3)] }
      hostOps := s.hostOps ++ [.reg { who := .pf, addr := 0x10090028, bytes := 4, data := core % 128 + 256 }] }

/-- What those management writes do when they take effect (R247, R265, R326, R327, R350, R368, R370, R359, R374, R425, R431,
R392). A flip is requested as of this tick unless one is already; the hot-row cache is emptied and HOTROW_WARM cleared; the
service table is activated, or its activation waits for a core that holds SERVICE, and source 43 is raised; hang records are
cleared; an activation, an abort or a commit of the SVN begins and the firmware source is raised; crash records are cleared;
latches are requested; a MARKER event is raised. Choices of the model: placements and chip-wide numbers are free values (log 3);
a waiting activation (log 80); operations in progress (log 96). -/
def Obligations.ManagementWritesTakeTheirEffect : Prop :=
  ∀ (s : State) (un : List (Nat × Nat × Nat)) (p v : Nat),
    let applied := fun at_ bytes data => s.hostOp1 un (.reg { who := .pf, addr := at_, bytes := bytes, data := data })
    applied 0x10060008 1 1 = { s with cop := { s.cop with request := some (s.cop.request.getD s.tick) } } ∧
    applied 0x10060218 4 1 = { s with marshal := { s.marshal with lines := [], hotWarm := false } } ∧
    ((s.duty 10).2 = false →
      applied 0x10080000 4 1 = ({ s.raise 43 with svc := { s.svc with acting := false } } : State).activateTable) ∧
    ((s.duty 10).2 = true → applied 0x10080000 4 1 = { s.raise 43 with svc := { s.svc with acting := true } }) ∧
    applied 0x10090022 1 1 = { s with flt := { s.flt with recs := [] } } ∧
    applied 0x100A0200 4 2 = (s.raise 42).activateFw ∧
    applied 0x100A0200 4 3 = (s.raise 42).abortFw ∧
    applied 0x100A0200 4 4 = (s.raise 42).commitSvn ∧
    applied 0x100A0300 4 0x10000 = { s with fw := { s.fw with crashRecs := [] } } ∧
    applied 0x100F0100 4 1 = { s with gcnt := { s.gcnt with want := true } } ∧
    applied 0x100F0048 8 v = s.event 808 0x0B none (v % 2 ^ 32) (v / 2 ^ 32 % 2 ^ 32) 1 ∧
    (p < 128 → s.isUp p = true → s.hostOp1 un (.reg { who := .vf p, addr := 0x80000, bytes := 4, data := 1 }) =
      { s with pcnt := Tbl.set s.pcnt p { s.pcount p with want := true } })

/-- Calendar seconds, settings, captures, PTP events and the backup cell (R46, R48, R49, R50, R353). CALENDAR_SECOND steps the
seconds, sets SUBSEC 0 with an edge of the crystal and captures the FTC; CAL_TIME_WRITE takes effect at the next crystal edge
and clears INVALID, and each further edge steps SUBSEC; CAL_CAPTURE_READ latches the seconds for the reader; PTP_EVENT of the
configured port and domain slews towards the offset within 500 ppm (how far is a free value) or steps beyond 1 s, does nothing
but raise its source where no core holds the duty PTP, and of another port or domain does nothing; the cell and the crystal set
CELL_LOW and INVALID; without power only a valid calendar runs. Choices of the model: the crystal's edges (log 121); the
capture's latch (log 122); the servo's slew (log 141); the crystal's rate (log 157); who sets SOURCE (log 160). -/
def Obligations.TheCalendarKeepsTime : Prop :=
  ∀ (s : State) (v : Word) (who : Agent) (nx domain ftc sec sub utc : Nat) (err : Int), s.live →
    -- a second begins with an edge of the crystal, which takes a write that waits
    (∃ f k, s.ftc ≤ f ∧ f < s.ftc + 64 ∧
      let c : Cal := { s.cal with sec := (s.cal.sec + 1) % 2 ^ 48, sub := 0, capFtc := f, capSec := (s.cal.sec + 1) % 2 ^ 48,
                                  edge := f * 32768 + s.cal.gap k }
      (s.cal.pendingSet = none → exec .calendarSecond s = .next { s with free := s.free + 1, cal := c }) ∧
      ∀ a b, s.cal.pendingSet = some (a, b) → exec .calendarSecond s = .next { s with
        free := s.free + 1, cal := { c with sec := a, sub := b, invalid := false, pendingSet := none } }) ∧
    exec (.calTimeWrite v) s = .next { s with cal := { s.cal with
      pendingSet := some (v.toNat / 2 ^ 15 % 2 ^ 48, v.toNat % 2 ^ 15) } } ∧
    (s.ftc * 32768 < s.cal.edge → s.calEdge = s) ∧
    (s.cal.edge ≤ s.ftc * 32768 → ∃ k, ∀ next, next = s.cal.edge + s.cal.gap k →
      (∀ a b, s.cal.pendingSet = some (a, b) → s.calEdge = { s with
        free := s.free + 1
        cal := { s.cal with sec := a, sub := b, invalid := false, pendingSet := none, edge := next } }) ∧
      (s.cal.pendingSet = none → s.calEdge = { s with
        free := s.free + 1, cal := { s.cal with sub := min 32767 (s.cal.sub + 1), edge := next } })) ∧
    exec (.calCaptureRead who) s = .next { s with
      readData := s.cal.capFtc
      cal := { s.cal with latchSec := (who, s.cal.capSec) :: s.cal.latchSec.filter fun x => x.1 != who } } ∧
    (s.cfg.ptpPort = nx + 1 → nx ≤ 1 → domain = s.cfg.ptpDomain → ftc ≤ s.ftc + 63 → err.natAbs ≤ 1000000000 →
      s.cal.invalid = false → (s.duty 12).2 = false → ∃ slew : Nat, slew ≤ 500000 ∧ exec (.ptpEvent ⟨nx, domain⟩ ftc sec sub utc err) s =
        .next (({ s with free := s.free + 1, cal := { s.cal with
          slew := err.sign * slew, source := nx + 1, utc := utc % 2 ^ 16, ptpLocked := decide (err.natAbs ≤ 1000) } } : State).raise 40)) ∧
    (s.cfg.ptpPort = nx + 1 → nx ≤ 1 → domain = s.cfg.ptpDomain → ftc ≤ s.ftc + 63 →
      (1000000000 < err.natAbs ∨ s.cal.invalid = true) → (s.duty 12).2 = false → exec (.ptpEvent ⟨nx, domain⟩ ftc sec sub utc err) s =
        .next (({ s with free := s.free + 1, cal := { s.cal with
          sec := sec % 2 ^ 48, sub := sub % 2 ^ 15, invalid := false, slew := 0, source := nx + 1, utc := utc % 2 ^ 16,
          ptpLocked := decide (err.natAbs ≤ 1000) } } : State).raise 40)) ∧
    -- no core holds the duty PTP
    (s.cfg.ptpPort = nx + 1 → nx ≤ 1 → domain = s.cfg.ptpDomain → ftc ≤ s.ftc + 63 → (s.duty 12).2 = true →
      exec (.ptpEvent ⟨nx, domain⟩ ftc sec sub utc err) s = .next (s.raise 40)) ∧
    ((s.cfg.ptpPort ≠ nx + 1 ∨ domain ≠ s.cfg.ptpDomain) → exec (.ptpEvent ⟨nx, domain⟩ ftc sec sub utc err) s = .next s) ∧
    exec .backupCellLow s = .next { s with cal := { s.cal with cellLow := true } } ∧
    exec .crystalStop s = .next s ∧
    ∀ u, u = { s with boot := { s.boot with unpowered := true } } →
      exec .crystalStop u = .next { u with cal := { s.cal with invalid := true, cellLow := true } } ∧
      (s.cal.invalid = false →
        exec .calendarSecond u = .next { u with cal := { s.cal with sec := (s.cal.sec + 1) % 2 ^ 48, sub := 0 } }) ∧
      (s.cal.invalid = true → exec .calendarSecond u = .next u)

/-- Links go down and come up, alignment times out, and a child asks its parent for the time (R30, R35, R74, R409, R29, R402).
LINK_DOWN, PEER_LINK_UP and HOST_LINK_RETRAIN leave their result for the boundary, which changes LINKS_UP and the peer's entry,
sends the unacknowledged flits again (R35) and forgets what a neighbour that is gone has announced; FT_ALIGN_TIMEOUT after 200
ms sets the timeout; TIME_EXCHANGE sends one TIME_REQ to the parent stamped within this tick and waits for the response, and may
send one LINK_ECHO (log entry 118). Choices of the model: when periodic work recurs (log 47); a root's own synchronisation
state, and recovery (log 117); when an echo is sent and which it is (log 118); which flits a failed link had not had
acknowledged (log 140). -/
def Obligations.LinksAndSynchronisation : Prop :=
  ∀ (s : State) (link chip lat gen : Nat) (unacked : List (Nat × Nat × Nat)), s.live →
    let later := fun x => Host.Outcome.next { s with later := s.later ++ [x] }
    let down := s.applyLater (.linkDown link unacked)
    (link < 8 → bitOf s.fab.linksUp link = true → exec (.linkDown ⟨link, unacked⟩) s = later (.linkDown link unacked)) ∧
    (link < 8 → chip < 2 ^ 15 → s.cfg.fabric = true → exec (.peerLinkUp link chip lat) s = later (.linkUp link chip lat)) ∧
    (let most := if bitsOf s.boot.straps 5 2 = 1 then 1 else if bitsOf s.boot.straps 5 2 = 2 then 0 else 2
     (gen ≤ most → exec (.hostLinkRetrain gen) s = later (.linkGen gen)) ∧
     (most < gen → exec (.hostLinkRetrain gen) s = .next s)) ∧
    (s.boot.phase = .fabric → s.cfg.fabric = true → s.fab.sync ≠ .locked → 200000000 ≤ (s.boot.ticks - s.boot.align) * 64 →
      exec .ftAlignTimeout s = .next { s with boot := { s.boot with ftTimeout := true } }) ∧
    (∀ par, s.fab.parent = some par → s.tick % 2 ^ s.fab.syncPeriod = 0 → s.fab.sync ≠ .free → s.once.contains 3 = false →
      s.fab.waitingResp = false → s.fab.missed < 64 → GoesTo (exec .timeExchange s) fun t =>
        t = { s with fab := t.fab, out := t.out, free := t.free, once := 3 :: s.once } ∧ t.fab.waitingResp = true ∧
        t.fab.missed = s.fab.missed ∧ t.fab.sync = s.fab.sync ∧ t.fab.ftc = s.fab.ftc ∧
        ∃ f rest, t.out = s.out ++ .flit f :: rest ∧ f.kind = 0x01 ∧ f.dst = par ∧ f.eff = 0 ∧
          (∃ k, k < 64 ∧ f.w0 = BitVec.ofNat 64 (s.ftc + k)) ∧ rest.length ≤ 1 ∧
          ∀ o ∈ rest, ∃ g k, o = .flit g ∧ g.kind = 0x7F ∧ g.dst ∈ Tbl.keys s.fab.accepted ∧ k < 64 ∧
            g.w0 = BitVec.ofNat 64 (s.ftc + k) ∧ Tbl.get? t.fab.echoes g.dst = some (s.ftc + k)) ∧
    (s.fab.parent = none → s.fab.isRoot = true → s.fab.accepted = [] → s.tick % 2 ^ s.fab.syncPeriod = 0 →
      s.fab.sync ≠ .free → s.once.contains 3 = false →
      exec .timeExchange s = .next { s with once := 3 :: s.once }) ∧
    -- what the results do at the boundary
    down.fab.linksUp = clearBit s.fab.linksUp link ∧
    down.fab.linkWentDown = true ∧
    down.out = s.out ++ unackedFlits s.out unacked ∧
    (s.fab.sync ≠ .free → (∀ l < 8, l ≠ link → bitOf s.fab.linksUp l = true →
        (Tbl.getD s.fab.links l (0, 0)).1 ≠ (Tbl.getD s.fab.links link (0, 0)).1) →
      down.fab.heard = Tbl.erase s.fab.heard (Tbl.getD s.fab.links link (0, 0)).1) ∧
    (s.applyLater (.linkUp link chip lat)).fab.linksUp = setBit s.fab.linksUp link ∧
    Tbl.get? (s.applyLater (.linkUp link chip lat)).fab.links link = some (chip, lat % 2 ^ 16)

/-- TICK_BOUNDARY takes the FTC to the next multiple of 64 ns and leaves the state settled (R24, R18, R27). With no reset due
and boot over, TICK_BOUNDARY answers a next state whose FTC is the next multiple of 64 ns (mod 2^64), with the same queue and
the memory invariant; what its six steps do is stated of the operations that they apply. Choices of the model: when a reset
begins (log 106). -/
def Obligations.TheTickEndsAtTheNextMultiple : Prop :=
  ∀ (s : State) (un : List (Nat × Nat × Nat)) (errs : List MemErr), s.live → s.boot.due = none → s.booting = false →
    GoesTo (exec (.tickBoundary un errs) s) fun t =>
      t.ftc = (s.ftc / 64 * 64 + 64) % 2 ^ 64 ∧ t.ftc % 64 = 0 ∧ t.pending = s.pending ∧ t.settled

/-- Every kind of reset ends the volatile state and keeps what R399 keeps (R399, R400, R27, R402, R411, R439). POWER_ON_RESET,
PERST_DEASSERT, PF_FLR, MODULE_POWER_LOSS and a reset due at the boundary leave no partition, context, ring, command, launch,
graph, fence, object, table or task, Pleach and the Marshal as at reset; flash, fuses and calendar stay; the FTC starts at 0 at
power-on and is kept by the others; memory survives a module or Mahorn reset; PF_FLR before bring-up is answered Request Retry
Status and changes nothing. Unwritten memory reading 0, the layout of what a reset keeps and the instruction register of the
test port after power-on are the model's choices. Choices of the model: unwritten memory reads 0 (log 2); placements and
chip-wide numbers are free values (log 3); values after power-on that the spec does not give (log 5); commands without power
have no effect (log 13); when a reset begins (log 106); VF Enable and a PF FLR (log 107); links and fabric registers after a
reset (log 108); fenced cores after a reset (log 109); when straps are sampled (log 111); the test port's instruction register
(log 170). -/
def Obligations.ResetsEndEveryVolatileState : Prop :=
  ∀ (s : State) (straps : Nat) (un : List (Nat × Nat × Nat)) (errs : List MemErr), s.live →
    let empty := fun (t : State) => t.parts = [] ∧ t.ctxs = [] ∧ t.rings = [] ∧ t.works = [] ∧ t.launches = [] ∧ t.graphs = [] ∧
      t.fences = [] ∧ t.exports = [] ∧ t.watch = [] ∧ t.listed = [] ∧ t.objs = [] ∧ t.tables = [] ∧ t.tasks = [] ∧
      t.hostOps = [] ∧ t.msgs = [] ∧ t.epoch = 1 ∧ t.cop = Coppice.reset ∧ t.marshal = Marshal.reset ∧ t.stop = Stop.reset ∧
      t.flt = Faults.reset ∧ t.pwr = Power.reset ∧ t.svc = Svc.reset ∧ t.trace = TraceUnit.reset ∧ t.fenced = 0
    let keeps := fun (z t : State) => t.fw = Fw.reset z.flashKept s.fw.fuseSvn ∧ t.pleach = Pleach.reset ∧
      t.cal = z.cal.reset
    -- the calendar may have run on its cell while power was off
    let back : State := { s with free := s.free + 1, cal := s.cal.powered (Config.pick s.free) }
    (GoesTo (exec (.powerOnReset straps) s) fun t => empty t ∧ keeps back t ∧ t.ftc = 0 ∧ t.tapIr = 1 ∧
      t.boot = Boot.start (straps % 2 ^ 9) 1 0 ∧ ∀ a, a < 2 ^ 64 → t.readByte a = 0) ∧
    (GoesTo (exec (.perstDeassert straps) s) fun t => empty t ∧ keeps s t ∧ t.ftc = s.ftc ∧ t.tapIr = s.tapIr ∧
      t.boot = Boot.start (straps % 2 ^ 9) 2 s.boot.resets ∧ SameMemory s t) ∧
    (s.answersConfig = true → GoesTo (exec .pfFlr s) fun t => empty t ∧ keeps s t ∧ t.ftc = s.ftc ∧
      t.boot = Boot.start s.boot.straps 5 (min (s.boot.resets + 1) 65535) ∧ SameMemory s t) ∧
    (s.answersConfig = false → exec .pfFlr s = .next s) ∧
    (GoesTo (exec .modulePowerLoss s) fun t => empty t ∧ keeps s t ∧ t.ftc = 0 ∧ t.boot.unpowered = true ∧
      ∀ a, a < 2 ^ 64 → t.readByte a = 0) ∧
    (∀ k, s.boot.due = some (k, straps) → GoesTo (exec (.tickBoundary un errs) s) fun t =>
      t.rings = [] ∧ t.ctxs = [] ∧ t.works = [] ∧ t.fences = [] ∧ t.epoch = 1 ∧ t.boot.phase = .rom ∧ t.boot.straps = straps ∧
      t.boot.kind = k)

/-- A write of KIND with CONFIRM 0x5A to MH_RST_CTRL makes a reset due, and without CONFIRM does nothing (R400).
MAHORN_RESET_WRITE and MODULE_RESET_WRITE note the reset that the next boundary takes, with the straps as last sampled or as
sampled now; a write whose CONFIRM is not 0x5A has no effect. Choices of the model: when a reset begins (log 106); when straps
are sampled (log 111); ENABLE is looked at when a write arrives (log 124). -/
def Obligations.ResetsAreAskedForByRegister : Prop :=
  ∀ (s : State) (straps : Nat) (a b : RegAcc), s.live →
    a = { who := .pf, addr := 0x100E0004, bytes := 4, data := 0x5A01 } →
    b = { who := .pf, addr := 0x100E0004, bytes := 4, data := 0x5A02 } →
    exec (.mahornResetWrite a) s = .next { s with
      boot := { s.boot with due := some (4, s.boot.straps) }, hostOps := s.hostOps ++ [.reg a] } ∧
    exec (.moduleResetWrite b straps) s = .next { s with
      boot := { s.boot with due := some (3, straps % 2 ^ 9) }, hostOps := s.hostOps ++ [.reg b] } ∧
    ∀ d, d / 2 ^ 8 % 2 ^ 8 ≠ 0x5A → s.rstWrite d straps = s

/-- Emergency levels are decided for the next boundary, a hardware trip stops engine clocks, and PWR changes frequencies (R415,
R416, R417, R419). EMERGENCY_LEVEL_CHANGE while PWR runs decides the level that the operands and limits call for and counts the
watts into the average; HW_TRIP stops the core clocks at once and decides TRIP, noting the causes of every level where it is
thermal; at TRIP it undoes a fall decided in that tick; ENGINE_FREQ_CHANGE within THROTTLE, no trip being due, sets the step of
the core or of the NX and CX engines; the decided level takes effect in step 5. Choices of the model: power averages (log 112);
work that a TRIP abandoned (log 113). -/
def Obligations.EmergencyLevelsAndClocks : Prop :=
  ∀ (s : State) (watts celsius ep step : Nat) (th : Bool), s.live →
    let here := fun l => s.cause watts celsius l
    let clocked := fun (t : State) => t = { s with pwr := t.pwr, eps := t.eps, gcnt := t.gcnt, pcnt := t.pcnt }
    let compared := fun l => GoesTo (exec (.emergencyLevelChange watts celsius) s) fun t =>
      t = { s with pwr := t.pwr, free := s.free + 1 } ∧ t.pwr.due = some (l, false) ∧ t.pwr.level = s.pwr.level ∧
      t.pwr.moduleW = watts % 2 ^ 16 ∧ t.pwr.coreStep = s.pwr.coreStep ∧ t.pwr.nxStep = s.pwr.nxStep
    (s.procUp 9 = true → s.pwr.due = none →
      (s.pwr.level < 2 → here 2 = true → compared 2) ∧
      (s.pwr.level = 0 → here 2 = false → here 1 = true → compared 1)) ∧
    (s.pwr.level ≠ 3 → GoesTo (exec (.hwTrip th) s) fun t => clocked t ∧ t.pwr.due = some (3, true) ∧
      t.pwr.level = s.pwr.level ∧ t.pwr.nxStep = s.pwr.nxStep ∧ t.pwr.coreStep = 0 ∧
      t.pwr.causes = if th = true then [s.ftc, s.ftc, s.ftc] else s.pwr.causes.set 2 s.ftc) ∧
    -- at TRIP the sensor holds the level: a fall decided in this tick does not take effect
    (s.pwr.level = 3 → GoesTo (exec (.hwTrip th) s) fun t => t = { s with pwr := t.pwr } ∧ t.pwr.due = none ∧
      t.pwr.coreStep = s.pwr.coreStep ∧ t.pwr.level = 3) ∧
    (s.pwr.level = 1 → s.pwr.clamp = false → (∀ d, s.pwr.due = some d → d.1 ≠ 3) → s.procUp 9 = true → 8 ≤ step → step ≤ 16 →
      (ep < 520 → GoesTo (exec (.engineFreqChange ep step) s) fun t =>
        clocked t ∧ t.pwr = { s.pwr with coreStep := step }) ∧
      (520 ≤ ep → ep < 526 → GoesTo (exec (.engineFreqChange ep step) s) fun t =>
        clocked t ∧ t.pwr = { s.pwr with nxStep := step })) ∧
    (∀ l hw, s.pwr.due = some (l, hw) → l ≠ 3 → s.applyLevel.pwr.level = l ∧ s.applyLevel.pwr.due = none)

/-- Receive descriptors, request headers and messages without a slot (R312, R314, R315, R316, R326). RECEIVE_DESCRIPTOR for a
stocked slot is taken; REQUEST_HEADER_ARRIVAL of a header that passes every check numbers the request, sets its deadline and
holds it; RECEIVER_NOT_READY of a listener sends the RNR NAK and counts it in NOSLOT, whatever slots are still being filled.
Other requests are unchanged. Choices of the model: a request without a header (log 76); a message that finds no slot (log 77);
REQUEST events (log 81). -/
def Obligations.RequestsEnterTheService : Prop :=
  ∀ (s : State) (d : RxDesc) (q i : Nat) (r r1 : Request) (m : Model) (host : List Word) (l : Listener) (u : Nat), s.live →
    s.stop.stopped = false →
    -- a receive descriptor for a slot that the engine has
    (d.nx < 2 → d.bytes < 2 ^ 32 → d.qpn < 2 ^ 24 → d.rx < 256 → s.listenerFor d.nx d.qpn = some (i, l) → l.stock.contains d.slot = true →
      s.svc.descs = [] → exec (.receiveDescriptor d.nx d.slot d.bytes d.qpn d.rx d.arrival) s =
        .next { s with svc := { s.svc with descs := [d] } }) ∧
    -- a header that passes every check: the request is numbered and held
    (s.request? q = some r → r.st = .reading → r.rx = 0 → s.hdrOk r = true → Tbl.get? s.svc.listeners r.lno = some l →
      l.isOpen = true → r.lst.closed = false → r.modelFor (s.hdr r 8 4) = some m → s.hdr r 12 4 ≠ 0 → s.hdr r 12 4 ≤ m.maxCand →
      s.hdr r 28 4 ≤ s.hdr r 12 4 → u = (s.svcClass (s.hdr r 6 1 % 16)).deadlineUs →
      r1 = { r with
        cls := s.hdr r 6 1 % 16, reqId := s.hdr r 16 8, ncand := s.hdr r 12 4, model := some m, num := l.seq + 1
        nresult := if s.hdr r 28 4 = 0 then s.hdr r 12 4 else s.hdr r 28 4
        deadline := r.arrival % 2 ^ 63 + (if s.hdr r 24 4 = 0 then u else min (s.hdr r 24 4) u) * 1000 } →
      s.shedNow r1.cls = false → s.lateNow r1 = false →
      (∀ z : State, z = { s with svc := { s.svc with requests := Tbl.adjust s.svc.requests q fun _ => r1 } } →
        (z.heldBy fun _ => true) < 4096 ∧ (z.heldBy fun p => p == r.lst.part) < (s.part r.lst.part).quota.requests) →
      GoesTo (exec (.requestHeaderArrival q (.ok host)) s) fun t =>
        t = { s with svc := t.svc } ∧ t.request? q = some { r1 with held := true, st := .queued } ∧
        (Tbl.get? t.svc.listeners r.lno) = some { l with seq := l.seq + 1 } ∧ ∀ k, k ≠ q → t.request? k = s.request? k) ∧
    -- the engine finds no free slot of a listener that exists
    (Tbl.get? s.svc.listeners i = some l → GoesTo (exec (.receiverNotReady i) s) fun t =>
      t = { s with svc := t.svc, out := s.out ++ [.rnr i] } ∧
      (Tbl.getD t.svc.counts i ListCount.zero).noslot = satInc 32 (Tbl.getD s.svc.counts i ListCount.zero).noslot)

/-- Deadlines, sends, opening listeners and the start of the service (R319, R322, R311, R309, R61, R321, R327, R352).
REQUEST_DEADLINE of a launched request decides an urgent abort with CS_DEADLINE; SEND_COMPLETE ends the request and returns its
slot to the listener that it came from, if that still exists; LISTENER_OPEN opens a listener whose fence has reached OPEN_VALUE
and makes its context resident where a slot is free, or queues its load; SERVICE_START waits for the boundary, which refuses a
table that fails a check with step and index, and adopts one that passes without start entries. Choices of the model: a failed
entry read of a start list (log 45); a message that finds no slot (log 77); traffic during a stop (log 86); when a listener's
context counts as busy (log 149); what is compared with RES_MIN (log 150); a listener's permanent slot (log 153). -/
def Obligations.RequestsLeaveTheService : Prop :=
  ∀ (s : State) (q i nx l : Nat) (ok : Bool) (r : Request) (y : Listener) (since ep : Nat) (io : Io), s.live → s.stop.stopped = false →
    (s.request? q = some r → r.st = .launched l since ep → r.deadline ≤ s.tick * 64 → (s.svcClass r.cls).lateOk = false →
      exec (.requestDeadline q) s = .next { s with
        aborts := s.aborts ++ [{ whom := .launch l, st := .deadline, detail := 0x02C8, urgent := true }] }) ∧
    (s.request? q = some r → r.st = .sending → r.lst.port = nx → Tbl.get? s.svc.listeners r.lno = some y → y.same r.lst = true → y.closed = false →
      y.stock.contains r.slot = false → r.slot < y.slots → GoesTo (exec (.sendComplete nx q ok) s) fun t =>
        t = { s with svc := t.svc, out := s.out ++ [.stock y.port r.lno r.slot] } ∧ t.request? q = none ∧
        Tbl.get? t.svc.listeners r.lno = some { y with stock := y.stock ++ [r.slot] }) ∧
    (Tbl.get? s.svc.listeners i = some y → s.svc.st = 2 → y.isOpen = false → y.closed = false →
      (y.openFence = none ∨ ∃ f, y.openFence = some f ∧ (s.fenceView (pkey y.part f)).2 = false ∧
        y.openValue ≤ (s.fenceView (pkey y.part f)).1) →
      GoesTo (exec (.listenerOpen i) s) fun t =>
        Tbl.get? t.svc.listeners i = some { y with isOpen := true } ∧
        ∀ ck c, ck = pkey y.part y.ctx → s.ctx? ck = some c →
          (c.resident = true → t = { s with svc := t.svc }) ∧
          (c.resident = false → c.lost = false → s.slotsUsed < 256 →
            t = { s with svc := t.svc, ctxs := t.ctxs, loads := s.loads.filter fun l => l.key != ck, parts := t.parts, arb := t.arb } ∧
            t.ctx? ck = some { c with resident := true, lastUse := s.tick } ∧ (∀ k, ck ≠ k → t.ctx? k = s.ctx? k) ∧
            (t.part (keyPart ck)).counts = { (s.part (keyPart ck)).counts with
              ctxLoads := satInc 32 (s.part (keyPart ck)).counts.ctxLoads }) ∧
          (c.resident = false → c.lost = false → 256 ≤ s.slotsUsed → s.victim (keyPart ck) = none → s.loads = [] →
            t = { s with svc := t.svc, loads := [{ key := ck, loading := false, waited := false }] })) ∧
    ((s.duty 10).2 = false → s.svc.st = 1 → s.svc.image ≠ [] → s.later.any Later.isSvcStart = false →
      exec (.serviceStart io) s = .next { s with later := s.later ++ [.svcStart io] }) ∧
    -- at the boundary: the table fails its checks, or it passes and the service is active
    (∀ x, (s.duty 10).2 = false → s.svc.st = 1 → s.svc.image ≠ [] → s.tableCheck s.svc.image false = some x →
      s.applyLater (.svcStart io) =
        { s with svc := { s.svc with st := 3, failStep := x.1, failIndex := x.2, failStatus := 0, failDetail := 0 } }) ∧
    ((s.duty 10).2 = false → s.svc.st = 1 → s.svc.image ≠ [] → s.tableCheck s.svc.image false = none → tblStart s.svc.image = 0 →
      tn s.svc.image 28 4 = 0 → s.objectCheck s.svc.image = none → ∀ t, t = s.applyLater (.svcStart io) →
        t.svc.st = 2 ∧ t.svc.tableGen = tn s.svc.image 20 4 ∧ t.svc.models = (List.range (tblModel s.svc.image)).map (readModel s.svc.image) ∧
        t.svc.classes = (List.range 16).map (readClass s.svc.image))

/-- Claims, completions, doorbells, timers and watchdog warnings of the firmware processors (R391, R392, R393, R394, R352).
IC_CLAIM returns the selected source, clears PENDING and sets ACTIVE, or returns 0xFFFF; IC_COMPLETE and IC_DOORBELL wait for
the boundary (R352), where they clear ACTIVE or set COMPLETE_ERR, and set the doorbell sources of every bit of the mask pending;
IC_TIMER and WDT_WARN set their private source pending, a timer clearing its COMPARE. Choices of the model: firmware's writes
(log 103); ENABLE is looked at when a write arrives (log 124). -/
def Obligations.ProcessorsTakeTheirInterrupts : Prop :=
  ∀ (s : State) (n k m : Nat) (un : List (Nat × Nat × Nat)) (done ring : RegAcc) (bank : IcProc), s.live → n < 19 →
    bank = s.ic.procs.getD n IcProc.reset →
    done = { who := .proc n, addr := 0x100D0004 + 256 * n, bytes := 4, data := k } →
    ring = { who := .proc n, addr := 0x100D0018 + 256 * n, bytes := 4, data := m } →
    let with_ := fun y => { s with ic := { s.ic with procs := s.ic.procs.set n y } }
    (s.icSelect n = none → exec (.icClaim n) s = .next { s with readData := 0xFFFF }) ∧
    (s.icSelect n = some k → k < 32 → exec (.icClaim n) s = .next { s with
      readData := k
      ic := { s.ic with procs := s.ic.procs.set n { bank with
        pending := clearBit bank.pending k, active := setBit bank.active k } } }) ∧
    (s.icSelect n = some k → (icReset k).isSome = true → 32 ≤ k → exec (.icClaim n) s = .next { s with
      readData := k
      ic := { s.ic with srcs := Tbl.set s.ic.srcs k { s.icSrc k with pending := false, active := true } } }) ∧
    -- the writes wait for the boundary, and what they do there
    (k < 2 ^ 16 → exec (.icComplete n k) s = .next { s with hostOps := s.hostOps ++ [.reg done] } ∧
      (s.icActive n k = true → k < 32 → s.hostOp1 un (.reg done) = with_ { bank with active := clearBit bank.active k }) ∧
      (s.icActive n k = true → 32 ≤ k → (icReset k).isSome = true → s.hostOp1 un (.reg done) = { s with
        ic := { s.ic with srcs := Tbl.set s.ic.srcs k { s.icSrc k with active := false } } }) ∧
      (s.icActive n k = false → s.hostOp1 un (.reg done) = with_ { bank with err := true })) ∧
    (m < 2 ^ 8 → exec (.icDoorbell n m) s = .next { s with hostOps := s.hostOps ++ [.reg ring] } ∧
      s.hostOp1 un (.reg ring) = with_ { bank with
        pending := (List.range 8).foldl (fun v i => if m / 2 ^ i % 2 = 1 then setBit v (3 + i) else v) bank.pending }) ∧
    (bank.timer0 ≠ 0 → bank.timer0 ≤ s.ftc + 63 → s.ic.procs.length = 19 →
      exec (.icTimer n 0) s = .next (with_ { bank with timer0 := 0, pending := setBit bank.pending 0 })) ∧
    (bank.timer1 ≠ 0 → bank.timer1 ≤ s.ftc + 63 → s.ic.procs.length = 19 →
      exec (.icTimer n 1) s = .next (with_ { bank with timer1 := 0, pending := setBit bank.pending 1 })) ∧
    (s.procUp n = true → exec (.wdtWarn n) s = .next (with_ { bank with pending := setBit bank.pending 2 }))

/-- Only SEC writes the patch store and the dispatch table, and only while LOCK is clear; transfers join their queue (R382,
R383, R384, R386, R352). PATCH_DATA_WRITE, DISPATCH_ENTRY_WRITE and PATCH_LOCK wait for the boundary (R352). There, from SEC and
with LOCK clear, PATCH_DATA_WRITE collects five words into a microword and advances INDEX, DISPATCH_ENTRY_WRITE rewrites one
entry (while a patch is offered: only what it holds), PATCH_LOCK sets LOCK; from any other writer or under LOCK they change
nothing. TRANSFER_REQUEST joins the pending transfers of its arbiter input, or waits before four of them. That SEC writes a
patch as offered, and the input's division of the cycle, are the model's readings. Choices of the model: signatures, digests and
decryption (log 94); the memory port's cycles (log 102); firmware's writes (log 103). -/
def Obligations.OnlySecWritesThePatchStore : Prop :=
  ∀ (s : State) (v k cyc n : Nat) (who : Agent) (un : List (Nat × Nat × Nat)), s.live →
    -- the writes wait for the boundary
    let queue := fun off data => Host.Outcome.next { s with
      hostOps := s.hostOps ++ [.reg { who := who, addr := 0x10000000 + off, bytes := 4, data := data }] }
    ((who = .pf ∨ ∃ m < 19, who = .proc m) →
      exec (.patchDataWrite who v) s = queue 0xB0018 (v % 2 ^ 32) ∧
      exec (.dispatchEntryWrite who v) s = queue 0xB001C (v % 2 ^ 32) ∧
      exec (.patchLock who) s = queue 0xB0010 1) ∧
    -- what they do there
    let applied := fun off data => s.hostOp1 un (.reg { who := who, addr := 0x10000000 + off, bytes := 4, data := data })
    (who = .proc 8 → s.bw.lock = false → ∀ op e, op = v % 2 ^ 8 → e = v / 2 ^ 8 % 2 ^ 15 + 2 ^ 15 * (v / 2 ^ 23 % 2) →
      (s.bw.parts.length < 4 → applied 0xB0018 v = { s with bw := { s.bw with parts := s.bw.parts ++ [v % 2 ^ 32] } }) ∧
      (∀ a b c d, s.bw.parts = [a, b, c, d] →
        s.bw.wordDue s.bw.index (patchWord [a, b, c, d, v % 2 ^ 32]) = true → applied 0xB0018 v = { s with bw := { s.bw with
        parts := [], index := (s.bw.index + 1) % 2 ^ 11
        words := Tbl.set s.bw.words s.bw.index (patchWord [a, b, c, d, v % 2 ^ 32]) } }) ∧
      (s.bw.dispDue op e = true → applied 0xB001C v = { s with dispTable := Tbl.set s.dispTable op e }) ∧
      (s.bw.offerWords = [] → s.bw.offerDisp = [] → s.bw.patchId = 0 → applied 0xB0010 1 = { s with bw := { s.bw with lock := true } })) ∧
    ((who = .pf ∨ ∃ m < 19, who = .proc m) → (who ≠ .proc 8 ∨ s.bw.lock = true) →
      ∀ off ∈ [0xB0010, 0xB0014, 0xB0018, 0xB001C], applied off v = s) ∧
    -- the memory port
    (k < 8 → 0 < n → n ≤ arbMost k → cyc < 128 → ∀ (a : Arb) (y : Xfer), a = s.arb.run (cyc - s.arb.cycle) →
      y = { sectors := n, moved := 0 } →
      a.queues.length = 8 → a.wait.length = 8 → GoesTo (exec (.transferRequest k cyc n) s) fun t => t = { s with arb := t.arb } ∧
        (a.wait.getD k [] = [] → a.depth k < 4 → t.arb.queues.getD k [] = a.queues.getD k [] ++ [y]) ∧
        (4 ≤ a.depth k → t.arb.queues.getD k [] = a.queues.getD k [] ∧ t.arb.wait.getD k [] = a.wait.getD k [] ++ [y]) ∧
        (∀ j, j < 8 → j ≠ k → a.wait.getD j [] = [] → t.arb.queues.getD j [] = a.queues.getD j []) ∧
        t.arb.held = a.held ∧ t.arb.loss = a.loss ∧ t.arb.used = a.used)

/-- A register write reaches Mahorn and waits for the boundary (R443, R53, R23). REGISTER_WRITE to a register of the management
window, or of an enabled partition window, joins the writes of the next boundary with the operations of the registers that it
covers; to a window that is not enabled or to no window it changes nothing. Choices of the model: how a flash write ends (log
97); when straps are sampled (log 111); ENABLE is looked at when a write arrives (log 124); a CMD written with a clear (log
152). -/
def Obligations.RegisterWritesArrive : Prop :=
  ∀ (s : State) (a : RegAcc) (p o : Nat) (bs : List Nat), s.live → a.bytes ≤ 64 → bs = basesOf (spaceOf a) a →
    (spaceOf a = .mgmt o → (∀ b ∈ bs, atArrival b = false ∧ mgmtOps { a with addr := o } b true = [] ∧
        mgmtOps { a with addr := o } b false = []) →
      exec (.registerWrite a) s = .next { s with free := s.free + 1, hostOps := s.hostOps ++ [.reg a] }) ∧
    (spaceOf a = .win p o → s.isUp p = true →
      exec (.registerWrite a) s = .next { s with
        free := s.free + 1
        hostOps := s.hostOps ++ (bs.flatMap (winOps { a with addr := o } p) ++ if bs.any plainWinReg then [.reg a] else []) }) ∧
    (spaceOf a = .win p o → s.isUp p = false → exec (.registerWrite a) s = .next { s with free := s.free + 1 }) ∧
    (spaceOf a = .none → exec (.registerWrite a) s = .next { s with free := s.free + 1 })

/-- RW, W1C and read-only fields of the fabric-time registers take only writes that cover their field whole (R443, R444). Of
MH_FT_CTRL, MH_FT_STATUS and the capability table: a write that covers the RW fields of MH_FT_CTRL sets them within their
ranges; one that covers a field only in part leaves it, also where its byte enables leave a gap; the W1C bits of MH_FT_STATUS
are cleared by the 1s written and nothing else of it changes; the first word of the capability table, which is read only, is not
changed. Choices of the model: the latches of high words (log 123). -/
def Obligations.ByteEnablesAndFieldKinds : Prop :=
  ∀ (s : State) (un : List (Nat × Nat × Nat)) (v : Nat) (w x y z : RegAcc), v < 2 ^ 32 →
    w = { who := .pf, addr := 0x10010010, bytes := 4, data := v } →
    x = { who := .pf, addr := 0x10010010, bytes := 1, data := v } →
    y = { who := .pf, addr := 0x10010018, bytes := 1, data := v } →
    z = { who := .pf, addr := 0x10000000, bytes := 4, data := v } →
    -- RW fields whose bytes are all written
    s.hostOp1 un (.reg w) = { s with fab := { s.fab with
      leadTicks := clampNat 8 4096 (v % 2 ^ 16), syncPeriod := clampNat 6 14 (v / 2 ^ 16 % 2 ^ 4) } } ∧
    -- a write that covers a field only in part leaves it, also where its byte enables leave a gap
    s.hostOp1 un (.reg x) = s ∧
    s.hostOp1 un (.reg { w with skip := [1] }) = { s with fab := { s.fab with
      syncPeriod := clampNat 6 14 (v / 2 ^ 16 % 2 ^ 4) } } ∧
    -- W1C bits
    s.hostOp1 un (.reg y) = { s with fab := { s.fab with
      lateStrict := s.fab.lateStrict && !(v / 2 ^ 4 % 2 == 1), holdFull := s.fab.holdFull && !(v / 2 ^ 5 % 2 == 1)
      unlockedApply := s.fab.unlockedApply && !(v / 2 ^ 6 % 2 == 1), linkWentDown := s.fab.linkWentDown && !(v / 2 ^ 7 % 2 == 1) } } ∧
    -- a register that is read only
    s.hostOp1 un (.reg z) = s

/-- Reads of RC fields clear them and 32-bit reads of a low word latch the high word (R444, R33, R28). RC_READ that returns the
least significant byte of MH_FT_LATE or MH_CTX_LOADS returns and clears the field and one that does not leaves it; LOW_WORD_READ
of MH_FT_TIME latches its high word for the requester, and the one read of the high word returns it; of MH_PWR_EVENTS a latched
high word clears the counts that it returns, and a read of the high word with nothing latched returns the current one and clears
nothing. Choices of the model: the capture's latch (log 122); the latches of high words (log 123). -/
def Obligations.ReadsClearAndLatch : Prop :=
  ∀ (s : State) (p hi : Nat) (a b c d e f : RegAcc), s.live → p < 128 →
    a = { who := .pf, addr := 0x10010030, bytes := 4, data := 0 } →
    b = { who := .pf, addr := 0x10010031, bytes := 1, data := 0 } →
    c = { who := .vf p, addr := 0x1020, bytes := 4, data := 0 } →
    d = { who := .pf, addr := 0x10010000, bytes := 4, data := 0 } →
    e = { who := .pf, addr := 0x10010004, bytes := 4, data := 0 } →
    f = { who := .pf, addr := 0x100E0024, bytes := 4, data := 0 } →
    -- MH_FT_LATE: its least significant byte clears it, another byte does not
    (s.latches = [] → exec (.rcRead a) s = .next { s with readData := s.fab.late % 2 ^ 32, fab := { s.fab with late := 0 } }) ∧
    exec (.rcRead b) s = .next { s with readData := s.fab.late / 2 ^ 8 % 2 ^ 8 } ∧
    -- MH_CTX_LOADS of a partition
    (s.latches = [] → s.isUp p = true → exec (.rcRead c) s = .next { s with
      readData := (s.part p).counts.ctxLoads % 2 ^ 32
      parts := Tbl.set s.parts p { s.part p with counts := { (s.part p).counts with ctxLoads := 0 } } }) ∧
    -- MH_FT_TIME: the low word latches the high word, which one read of the high word then returns
    (s.latches = [] → exec (.lowWordRead d) s = .next { s with
      readData := s.ftc % 2 ^ 32, latches := [(.pf, 2 ^ 28 + 0x10004, s.ftc / 2 ^ 32 % 2 ^ 32)] }) ∧
    (s.latches = [(.pf, 2 ^ 28 + 0x10004, hi)] → exec (.lowWordRead e) s = .next { s with readData := hi, latches := [] }) ∧
    -- MH_PWR_EVENTS: a read of its latched high word clears the counts whose least significant bytes lie there
    (s.latches = [(.pf, 2 ^ 28 + 0xE0024, hi)] → exec (.lowWordRead f) s = .next { s with
      readData := hi, latches := [], pwr := { s.pwr with trips := 0, hwTrips := 0 } }) ∧
    -- without a latched value it returns the current high word and clears nothing
    (s.latches = [] → exec (.lowWordRead f) s = .next { s with 
      readData := (s.pwr.throttles + 2 ^ 16 * s.pwr.sheds + 2 ^ 32 * s.pwr.trips + 2 ^ 48 * s.pwr.hwTrips) / 2 ^ 32 % 2 ^ 32 })

/-- Watchdogs, hangs, failed endpoints and machine checks (R329, R331, R332, R333, R334, R339, R344). Of the endpoints of the
cores: SEGMENT_WATCHDOG after the segment's running time decides an urgent abort with CS_TIMEOUT 0x02E7; HANG_DECLARE, 4
microseconds after the ABORT, and ENDPOINT_FAILED declare the endpoint, write or count a capture record, decide the fencing of
its core and raise the hang interrupt. MACHINE_CHECK sets MCHK and the syndrome and schedules a chip-scope stop for the next
tick. Choices of the model: when the environment may send an event (log 6); a watchdog's abort (log 56); numbers of stops (log
83); ADDR of a machine check (log 87); words of an endpoint that sent none (log 92). -/
def Obligations.WatchdogsHangsAndMachineChecks : Prop :=
  ∀ (s : State) (e w i part detail : Nat) (g : Seg) (words : List Word), s.live → s.stop.stopped = false → e < 512 → (s.ep e).seg = some g →
    -- what declaring an endpoint does: 1 it hangs, 2 it has failed
    let declared := fun (kind code : Nat) (t : State) =>
      t = { s with eps := t.eps, flt := t.flt, ic := t.ic, out := s.out ++ [.pfMsix s.flt.vector] } ∧
      t.ep e = { s.ep e with hung := true } ∧ (∀ k, e ≠ k → t.ep k = s.ep k) ∧ t.flt.hang = true ∧
      t.flt.fencing = s.flt.fencing ++ [(e / 4, kind)] ∧
      (s.flt.recs.length < 16 → t.flt.recs = s.flt.recs ++ [s.hangRecord e kind code words] ∧ t.flt.lost = s.flt.lost) ∧
      (16 ≤ s.flt.recs.length → t.flt.recs = s.flt.recs ∧ t.flt.lost = satInc 16 s.flt.lost)
    -- the watchdog: the segment has run longer than its time and HANG_US
    (g.owner = .work w i → g.watched = none → g.segNs + max 10 s.cfg.hangUs * 1000 < g.ran →
      exec (.segmentWatchdog e) s = .next { s with
        eps := Tbl.set s.eps e { s.ep e with seg := some { g with watched := some (s.tick + 1) } }
        aborts := s.aborts ++ [{ whom := s.entryOf w, st := .timeout, detail := 0x02E7, urgent := true }] }) ∧
    -- an endpoint that does not end an aborted segment within 4 µs
    (∀ b a, g.watched = some b → (s.ep e).abortAt = some a → (s.ep e).hung = false → (s.ep e).clockStopped = false →
      a * 64 + 4000 ≤ s.tick * 64 → GoesTo (exec (.hangDeclare e words) s) (declared 1 0)) ∧
    -- an endpoint that reported a fatal error
    (∀ code, (s.ep e).fatal = some code → (s.ep e).hung = false → s.isFenced (e / 4) = false →
      GoesTo (exec (.endpointFailed e words) s) (declared 2 code)) ∧
    -- a machine check
    (part < 4 → s.stop.plan = none → s.bw.synValid = false → GoesTo (exec (.machineCheck part detail) s) fun t =>
      t = { s with bw := t.bw, stop := t.stop, flt := { s.flt with mchk := true, ue := (s.flt.ue + min part 1) % 2 ^ 64 }, ic := t.ic, out := t.out } ∧
      t.bw.mchks = satInc 32 s.bw.mchks ∧ t.bw.synValid = true ∧ t.bw.synFtc = s.ftc % 2 ^ 63 ∧
      t.bw.syn / 2 ^ 8 % 2 ^ 8 = 3 + part ∧
      t.stop.plan = some { at_ := s.tick + 1, reason := 3, scope := 0, id := (s.stop.sent + 1) % 2 ^ 32, origin := s.fab.chip })

/-- Stops, resumes and abandons are scheduled from register writes and flits (R339, R340, R343, R344, R345, R381). A write of
STOP, RESUME or ABANDON waits for the boundary; STOP of this chip schedules the stop for T but not before the next tick, and one
of more chips by a chip that may originate no flit sets REFUSED; RESUME and ABANDON schedule its end at U or set REFUSED; the
flits of the stop in force do the same. Choices of the model: the end of a stop (log 82); numbers of stops (log 83). -/
def Obligations.StopsAreScheduled : Prop :=
  ∀ (s : State) (un : List (Nat × Nat × Nat)) (d : Nat) (a : RegAcc) (f : Flit), s.live →
    a = { who := .pf, addr := 0x10090030, bytes := 8, data := d } → d < 2 ^ 64 →
    let op := d / 2 ^ 60 % 2 ^ 2
    let tick := d % 2 ^ 58
    let written := Host.Outcome.next { s with free := s.free + 1, hostOps := s.hostOps ++ [.reg a] }
    let t := s.hostOp1 un (.reg a)
    (op = 1 → exec (.globalStopRequest a) s = written) ∧
    (op = 2 → exec (.globalStopResume a) s = written) ∧
    (op = 3 → exec (.globalStopAbandon a) s = written) ∧
    -- STOP of this chip alone
    (op = 1 → d / 2 ^ 58 % 2 ^ 2 = 0 → s.stop.stopped = false → s.stop.plan = none →
      t = { s with stop := t.stop, out := t.out } ∧
      t.stop.plan = some { at_ := max (s.tick + 1) tick, reason := 1, scope := 0, id := (s.stop.sent + 1) % 2 ^ 32,
                           origin := s.fab.chip }) ∧
    -- STOP of more chips while this one may originate no flit for it
    (op = 1 → d / 2 ^ 58 % 2 ^ 2 ≠ 0 → s.stop.stopped = false → s.fab.sync ≠ .locked → s.fab.sync ≠ .free →
      t = { s with stop := { s.stop with refused := true } }) ∧
    -- RESUME and ABANDON of a stop of this chip alone
    (s.stop.stopped = true → s.stop.endAt = none → s.stop.last.scope = 0 → s.bw.groups ≠ 0 →
      (op = 2 ∨ op = 3) →
      (s.stop.last.at_ + 16384 ≤ tick → s.tick + 1 ≤ tick →
        t = { s with stop := { s.stop with endAt := some (tick, op == 3) } }) ∧
      (tick < s.stop.last.at_ + 16384 → t = { s with stop := { s.stop with refused := true } })) ∧
    -- flits that the chip accepts
    (s.isDest f = true → flitCrcOk f = true → s.seenFlit f = false → s.refusesTimed = false → s.tick < flitTick f →
      flitTick f ≤ s.tick + 65536 → s.fab.hold.length < 4096 →
      (f.kind = 0x20 → f.w0.toNat % 2 ^ 8 = 1 → s.stop.stopped = false → s.stop.plan = none →
        GoesTo (exec (.stopFlit f) s) fun t => t = { s with stop := t.stop, out := t.out, fab := t.fab } ∧
          t.stop.plan = some { at_ := flitTick f, reason := 4, scope := f.w0.toNat / 2 ^ 16 % 2 ^ 8 % 4,
                               id := f.w0.toNat / 2 ^ 32 % 2 ^ 32, origin := flitFrom f }) ∧
      (f.kind = 0x21 → s.stop.stopped = true → s.stop.endAt = none → s.stop.last.scope ≠ 0 → s.stop.last.origin = flitFrom f →
        s.stop.last.id = f.w0.toNat / 2 ^ 32 % 2 ^ 32 →
        (f.w0.toNat % 2 ^ 8 = 2 → GoesTo (exec (.resumeFlit f) s) fun t => t = { s with stop := t.stop, fab := t.fab } ∧
          t.stop = { s.stop with endAt := some (flitTick f, false) }) ∧
        (f.w0.toNat % 2 ^ 8 = 3 → GoesTo (exec (.abandonFlit f) s) fun t => t = { s with stop := t.stop, fab := t.fab } ∧
          t.stop = { s.stop with endAt := some (flitTick f, true) })))

/-- SNAPSHOT_DONE writes the snapshot at the stop area and sets SNAP_DONE (R347, R348, R341). With a stop in force and every
endpoint frozen, SNAPSHOT_DONE stores the snapshot from the base of the snapshot area, no other byte, sets SNAP_DONE and raises
the stop interrupt; the FTC at which it is done lies within the tick and is otherwise free (log entry 3). Choices of the model:
placements and chip-wide numbers are free values (log 3); the ENTRY record of the snapshot (log 91). -/
def Obligations.TheSnapshotIsWritten : Prop :=
  ∀ (s u : State), s.live → s.stop.stopped = true → s.stop.snapDone = false → s.freezeOwed = false →
    u = { s with
      free := s.free + 1
      stop := { s.stop with snapDone := true, doneFtc := s.ftc + Config.pick s.free % 64
                            frozenFtc := if s.stop.frozenFtc = 0 then s.ftc else s.stop.frozenFtc } } →
    GoesTo (exec .snapshotDone s) fun t =>
      t = { u with mem := t.mem, flt := { s.flt with snapped := true }, out := s.out ++ [.pfMsix s.flt.vector], ic := t.ic } ∧
      (∀ j, j < u.snapshot.length → t.readByte (s.boot.stopBase + j) = u.snapshot.getD j 0) ∧
      (∀ a, a < s.boot.stopBase ∨ s.boot.stopBase + u.snapshot.length ≤ a → t.readByte a = s.readByte a)

/-- Firmware processors crash, restart, get their duties back, and their gates open (R360, R361, R362, R355, R365).
PROCESSOR_CRASH, for a watchdog no sooner than its period allows, holds the processor in reset, counts and records it and asks
FLASH for the log entry; PROCESSOR_RESTART makes it RUNNING from the verified image cache with the duties that waited for it,
and while SEC is down waits for a copy that is not in the cache; DUTY_RETURN gives a moved duty at its quiet point back to the
first processor that lost it and runs; CCC_GATE_TIMEOUT opens the launch gate after 5 ms and sets DEGRADED. Choices of the
model: the processors' journals (log 66); private sources of a crash (log 98); the cached digest (log 100); fields of the crash
record (log 101); when a watchdog expires (log 158); when components are cached (log 159). -/
def Obligations.ProcessorsCrashAndRestart : Prop :=
  ∀ (s : State) (n d cause pc info home : Nat) (p : Proc) (lost : List Nat), s.live → n < 19 → s.fw.procs.length = 19 → s.fw.duties.length = 14 →
    p = s.proc n →
    (p.st = .running → 1 ≤ cause → cause ≤ 4 → (cause = 1 → p.wdtFrom + s.wdtNs n ≤ s.sinceReset) → p.switched = none → p.declared = [] → n ≠ 8 →
      GoesTo (exec (.processorCrash n cause pc info) s) fun t =>
        (t.proc n).st = .restarting ∧ (t.proc n).cause = cause ∧ (t.proc n).crashes = satInc 8 p.crashes ∧
        (t.proc n).declared = [s.ftc] ∧ (∀ k, k ≠ n → (t.proc k).st = (s.proc k).st) ∧
        (t.proc n).sramUe = (cause == 3) ∧ t.fw.flash = s.fw.flash ∧
        t.fw.writes = s.fw.writes ++ [.crash (s.crashRecord n cause (satInc 8 p.crashes) false pc info)] ∧
        (s.fw.crashRecs.length < 16 →
          t.fw.crashRecs = s.fw.crashRecs ++ [s.crashRecord n cause (satInc 8 p.crashes) false pc info]) ∧
        (11 ≤ n → (t.proc n).gate = true) ∧ t.fences = s.fences ∧ t.rings = s.rings ∧ SameMemory s t) ∧
    (p.st = .restarting → (n = 8 ∨ s.procUp 8 = true) → GoesTo (exec (.processorRestart n) s) fun t =>
        (t.proc n).st = .running ∧ (t.proc n).degraded = false ∧ (t.proc n).sramUe = false ∧ (t.proc n).wdtFrom = s.sinceReset ∧
        Tbl.has t.fw.cache (cacheKey (compOf n) p.imageB) = true ∧ (∀ k, k ≠ n → t.proc k = s.proc k) ∧
        (∀ k, n < 8 → k < 14 → (s.duty k).2 = true → t.duty k = (n, false)) ∧
        t = { s with free := s.free + 2, fw := t.fw, ic := t.ic }) ∧
    -- while SEC is down a copy that is not there or does not match waits
    (p.st = .restarting → n ≠ 8 → s.procUp 8 = false → Tbl.has s.fw.cache (cacheKey (compOf n) p.imageB) = false →
      GoesTo (exec (.processorRestart n) s) fun t => (∀ k, t.proc k = s.proc k) ∧ t = { s with free := s.free + 2, fw := t.fw }) ∧
    (d < 14 → lost = Tbl.getD s.fw.lost d [] → lost.find? (fun k => s.procUp k) = some home → s.dutyQuiet d = true →
      GoesTo (exec (.dutyReturn d) s) fun t =>
        t = { s with
          fw := { s.fw with duties := s.fw.duties.set d (home, false), lost := Tbl.set s.fw.lost d (lost.takeWhile fun k => k != home) }
          ic := t.ic } ∧
        (8 ≤ d → t.ic = s.ic) ∧
        (∀ q, d < 8 → q < 128 → q % 8 = d → (t.icSrc (64 + q)).target = home)) ∧
    (∀ at_ rest, 11 ≤ n → p.gate = true → p.st ≠ .running → p.declared = at_ :: rest → at_ + 5000000 ≤ s.ftc →
      exec (.cccGateTimeout n) s = .next { s with
        fw := { s.fw with procs := s.fw.procs.set n { p with gate := false, degraded := true } } })

/-- Staging, switching and flash operations of firmware updates (R355, R356, R358, R365, R367, R368, R369, R286). FW_STAGE joins
the writes of the boundary, where the staged image is checked and to be written to the slot that does not run, or the command
fails with the cause; FW_SWITCH switches the next processor at its quiet point; FLASH_WRITE_DONE ends the oldest flash write,
where a core holds FLASH, and puts what it writes in its place: image slot, boot record (after which the version shown changes
at the boundary), crash log or bias area; and raises its source. Choices of the model: signatures, digests and decryption (log
94); the order of the image checks (log 95); operations in progress (log 96); how a flash write ends (log 97); what version
registers show (log 104); the layout of crash log and bias area (log 156); when components are cached (log 159). -/
def Obligations.FirmwareUpdates : Prop :=
  ∀ (s : State) (un : List (Nat × Nat × Nat)) (n len : Nat) (ok : Bool) (image : List Host.Cell), s.live → s.fw.procs.length = 19 →
    exec (.fwStage ok) s = .next { s with
      hostOps := s.hostOps ++ [.fwStage ok, .reg { who := .pf, addr := 0x100A0200, bytes := 4, data := 1 }] } ∧
    s.hostOp1 un (.fwStage ok) = (s.raise 42).stage s.fw.stageLen ok ∧
    -- the staged image: one that passes its checks is to go to the slot that does not run, one that fails leaves the cause
    (s.fw.act ≠ 1 → s.fw.act ≠ 3 → s.fw.act ≠ 4 → s.fw.reverting = false → s.procUp 8 = true → s.boot.phase ≠ .recovery →
      image = s.fw.staged.filter (fun c => decide (c.1 < len)) →
      s.stage len ok = { s with fw := match imgCheck s.fw.staged len s.fw.fuseSvn s.cfg.keyDigest with
        | none => { s.fw with act := 1, fail := 0, writes := s.fw.writes ++ [.image (!s.runB) image ok] }
        | some c => { s.fw with act := 7, fail := c } }) ∧
    -- a processor switches at its quiet point
    (n < 19 → s.fw.act = 3 → s.fw.next = n → s.maySwitch n = true → GoesTo (exec (.fwSwitch n) s) fun t =>
      t.fw.act = 4 ∧ (t.proc n).st = .switching ∧ (∀ k, k ≠ n → t.proc k = s.proc k) ∧ t.rings = s.rings ∧ t.fences = s.fences) ∧
    -- the oldest flash write ends, where a core holds the duty
    (∀ x l, s.fw.writes = x :: l → (s.duty 13).2 = true → exec .flashWriteDone s = .next s) ∧
    (∀ x l, s.fw.writes = x :: l → (s.duty 13).2 = false →
      let written := fun w => exec .flashWriteDone s = .next (({ s with fw := w } : State).raise 41)
      (∀ b, x = .image b image true → s.boot.phase ≠ .recovery → written { s.fw with
        writes := l, act := 2, fail := 0, stagedOk := true, stagedVersion := tn image 8 4, stagedSvn := tn image 12 1
        flash := s.fw.flash.put (offSlot b) imageSlotBytes image }) ∧
      (∀ b, x = .image b image false → written { s.fw with writes := l, act := 7, fail := 8 }) ∧
      (∀ (b : Bool) (v : Option (Nat × Nat)) (z : State), x = .record b v →
        z = { s with
          fw := { s.fw with writes := l, activeB := b, flash := s.fw.flash.record b }
          later := s.later ++ match v with | some w => [Later.fwVersion w.1 w.2 b] | none => [] } →
        exec .flashWriteDone s = .next (z.raise 41)) ∧
      (∀ r, x = .crash r → written { s.fw with writes := l, flash :=
        { s.fw.flash.put (offCrash s.fw.flash.logged) 64 (bytesCells r) with logged := s.fw.flash.logged + 1 } }) ∧
      (∀ v, x = .snapshot v → written { s.fw with writes := l, flash := s.fw.flash.putSnaps v }))

/-- MCTP, SPDM and PLDM messages are answered and sensors are updated (R371, R372, R373, R352). MCTP_MESSAGE hands the first
PLDM or SPDM request of a requester over and answers unknown types; SPDM_REQUEST and PLDM_REQUEST answer a request that came as
a message, and only such a one, and free the requester; a PLDM firmware update waits for the boundary; SENSOR_UPDATE sets the
six sensors, at most every 100 ms. What the standards give of the message bodies is presumed, and signatures, digests and
unstated bodies are free values. Choices of the model: the messages of the DSP standards (log 93). -/
def Obligations.TheManagementPortAnswers : Prop :=
  ∀ (s : State) (eid mtype code : Nat) (body : List Word) (w : Word) (r : List Nat), s.live → s.telemetryUp = true →
    let freed := s.fw.busy.filter fun e => e.1 != eid
    let rebusy := fun b => { s.fw with busy := b }
    -- one request of a requester at a time
    ((mtype = 1 ∨ mtype = 5) → exec (.mctpMessage eid mtype body) s = .next (
      if (s.fw.busy.any fun m => m.1 == eid) = true then s.raise 39
      else ({ s with fw := rebusy ((eid, mtype) :: s.fw.busy) } : State).raise 39)) ∧
    (2 ≤ mtype → mtype ≠ 5 → GoesTo (exec (.mctpMessage eid mtype body) s) fun t =>
      t.fw = s.fw ∧ ∃ x, t.out = s.out ++ [.mctp eid mtype [x]]) ∧
    -- no request that came as a message, no answer
    (s.fw.busy.contains (eid, 5) = false → exec (.spdmRequest eid code body) s = .next s) ∧
    (s.fw.busy.contains (eid, 1) = false → exec (.pldmRequest eid code body) s = .next s) ∧
    (s.fw.busy.contains (eid, 5) = true → s.procUp 8 = true → spdmKnown code = true →
      GoesTo (exec (.spdmRequest eid code body) s) fun t => t = { s with free := s.free + 1, fw := rebusy freed, out := t.out } ∧
        ∃ x, t.out = s.out ++ [.mctp eid 5 (BitVec.ofNat 64 (code % 2 ^ 7 * 2 ^ 8) :: s.spdmBody code body ++ [x])]) ∧
    (s.fw.busy.contains (eid, 5) = true → (s.procUp 8 = false ∨ spdmKnown code = false) →
      ∃ x, exec (.spdmRequest eid code body) s = .next { s with fw := rebusy freed, out := s.out ++ [.mctp eid 5 [x]] }) ∧
    (s.fw.busy.contains (eid, 1) = true → exec (.pldmRequest eid 2 (w :: body)) s = .next { s with
      fw := rebusy freed, out := s.out ++ [.mctp eid 1 [BitVec.ofNat 64 (s.fw.sensors.getD w.toNat 0)]] }) ∧
    (s.fw.busy.contains (eid, 1) = true → GoesTo (exec (.pldmRequest eid 5 body) s) fun t =>
      t = { s with free := s.free + 2, fw := rebusy freed, hostOps := t.hostOps, out := t.out } ∧
        ∃ ok x, t.hostOps = s.hostOps ++ [.pldm body ok] ∧ t.out = s.out ++ [.mctp eid 1 [x]]) ∧
    (∀ a b c e, r = [a, b, c, e] → exec (.sensorUpdate r) s = .next
      (if s.sinceReset < s.fw.sensorAt + 100000000 then s
      else { s with fw := { s.fw with sensors := [a, b, c, s.pwr.level, e, s.fencedCount], sensorAt := s.sinceReset } }))

/-- Trace turns on and off, the sampler samples, and JTAG reads and writes like the PF (R432, R436, R439, R33). Trace turns on
and off at the boundary; PC_SAMPLE in its tick counts a sample and steps the LFSR; MGMT_ACCESS reads and writes the management
window with the rights of the PF, its instruction being the test port's instruction register; a register of no debug access is
answered with an error. Choices of the model: the ERR of a debug access (log 125); the order of trace records and slots (log
128); when trace turns (log 130); the sampled cycle (log 131); the test port's instruction register (log 170). -/
def Obligations.TracingStartsSamplesAndStops : Prop :=
  ∀ (s : State) (j : Nat) (a : RegAcc), s.live →
    (s.trace.st = .armed → s.trace.enable = true → s.trace.startTick ≤ s.tick + 1 →
      exec .traceStart s = .next { s with trace := { s.trace with turn := some true } }) ∧
    (s.trace.st = .on → s.trace.stopTick ≠ 0 → s.trace.stopTick ≤ s.tick + 1 →
      exec .traceStop s = .next { s with trace := { s.trace with turn := some false } }) ∧
    (s.trace.turn = some true → s.turnTrace = { s with trace := { s.trace with
      turn := none, st := .on, records := 0, wrapped := false } }) ∧
    (s.trace.turn = some false → s.turnTrace = { s with trace := { s.trace with turn := none, st := .off } }) ∧
    (s.trace.sampleTicks ≠ 0 → s.trace.sampleDone = false → s.stop.stopped = false → s.tick % s.trace.sampleTicks = 0 →
      s.trace.onTick = false → exec .pcSample s = .next { s with
        free := s.free + 1
        trace := { s.trace with samples := s.trace.samples + 1, lfsr := lfsrNext s.trace.lfsr, sampleDone := true } }) ∧
    (a = { who := .pf, addr := 0x10000, bytes := 4, data := j } → s.latches = [] → exec (.mgmtAccess a false) s = .next { s with
      tapIr := 0x10, readData := s.ftc % 2 ^ 32, latches := [(.jtag, 2 ^ 28 + 0x10004, s.ftc / 2 ^ 32 % 2 ^ 32)] }) ∧
    (a = { who := .pf, addr := 0xF0048, bytes := 8, data := j } → exec (.mgmtAccess a true) s = .next { s with
      tapIr := 0x10, free := s.free + 1, readData := 0, hostOps := s.hostOps ++ [.reg { who := .jtag, addr := 0xF0048, bytes := 8, data := j }] }) ∧
    (a = { who := .pf, addr := 0x30000, bytes := 4, data := j } → exec (.mgmtAccess a true) s = .next { s with
      tapIr := 0x10, free := s.free + 1, readData := 2 ^ 64, hostOps := s.hostOps ++ [.reg { who := .jtag, addr := 0x30000, bytes := 4, data := j }] })

/-- Results of background work wait for the boundary (R157, R258, R260, R247, R224, R408, R284). GRAPH_IMAGE_READ_DONE,
TABLE_LOAD_DONE, TABLE_STAGE_DONE, FILL_DONE, TEARDOWN_DONE, PARTITION_BRINGUP and BIAS_PERIOD, where their work is in progress,
leave their result for the start of the next boundary and change nothing else. Choices of the model: when a decision takes
effect (log 11); bias periods (log 74); when a boot phase may end (log 105); when an image's bytes are read (log 166). -/
def Obligations.BackgroundResultsWaitForTheBoundary : Prop :=
  ∀ (s : State) (p t u : Nat) (x : Table) (host : List Word) (rd : ImageRead) (rest : List ImageRead) (failed : List Nat),
    s.live → s.stop.stopped = false →
    let later := fun r => Host.Outcome.next { s with later := s.later ++ [r] }
    (s.imageReads = rd :: rest → s.later.any Later.isImage = false → exec (.graphImageReadDone (.ok host)) s = later (.image rd.graph (.ok host) s.headImage)) ∧
    (s.tableOf p t = some u → s.table? u = some x →
      (x.state = .loading → s.later.any (Later.isLoadOf u) = false →
        exec (.tableLoadDone p t (.ok host)) s = later (.tableLoad u (.ok host))) ∧
      (x.stages ≠ [] → s.later.any (Later.isStageOf u) = false →
        exec (.tableStageDone p t (.ok host)) s = later (.stage u (.ok host)))) ∧
    (s.filling = some u → s.epochDuty = true → s.cop.phase = .opening → s.later.any (Later.isFillOf u) = false →
      exec (.fillDone (.ok host)) s = later (.fill u (.ok host))) ∧
    (∀ td, (s.part p).teardown = some td → s.partRuns p = false → .torn p ∉ s.later →
      exec (.teardownDone p) s = later (.torn p)) ∧
    (s.mayBringUp = true → s.later.any Later.isBringup = false → exec (.partitionBringup failed) s = later (.bringup failed)) ∧
    (s.pleach.periodUs ≠ 0 → s.biasEnd ≤ s.sinceReset + 63 → exec .biasPeriod s = .next { s with
      later := s.later ++ [.bias], pleach := { s.pleach with lastPeriod := s.biasEnd } })

/-- What those results do at the boundary (R157, R258, R247, R284, R285, R224, R56). The image of a load is what its source
holds when the read ends; one that passes its checks makes its graph READY and signals the fence, one that fails makes it
LOAD_FAILED with the detail and marks the fence FAILED; a result for another graph than the one being read has no effect; a
table becomes READY; a set is filled; bias vectors are published; a teardown that leaves the partition enabled brings it up with
ring 0 DISABLED. Choices of the model: when a decision takes effect (log 11); registers that a teardown leaves (log 20); when a
partition comes up (log 28); reports of a LOAD_FAILED graph (log 49); LOAD_DETAIL of a table (log 50); bias periods (log 74). -/
def Obligations.BackgroundResultsTakeEffect : Prop :=
  ∀ (s : State) (u : Nat) (host : List Word) (rd : ImageRead) (rest : List ImageRead) (img : List Byte) (g : Graph) (x : Table)
    (c : RowSet) (p : Nat),
    -- the image is what the source holds when the read ends
    (s.imageReads = rd :: rest → s.headImage = s.readLoc (.dev rd.obj rd.off) rd.bytes) ∧
    -- one that passes its checks makes its graph READY and signals the load's fence
    (s.imageReads = rd :: rest → s.graph? rd.graph = some g → imageChk img = none →
      ∃ y, (s.applyLater (.image rd.graph (.ok host) img)).graph? rd.graph = some y ∧ y.state = .ready ∧ y.cur = 1 ∧
        y.shownNodes = imgNodes img ∧ y.part = g.part ∧ (s.applyLater (.image rd.graph (.ok host) img)).imageReads = rest ∧
        (s.applyLater (.image rd.graph (.ok host) img)).sigs =
          s.sigs ++ (match rd.fence with | some f => [{ src := .own, fence := f.1, value := some f.2 }] | none => [])) ∧
    -- one that fails a check makes it LOAD_FAILED and marks the fence FAILED
    (∀ d, s.imageReads = rd :: rest → s.graph? rd.graph = some g → imageChk img = some d →
      ∃ y, (s.applyLater (.image rd.graph (.ok host) img)).graph? rd.graph = some y ∧ y.state = .loadFailed ∧
        y.loadStatus = Status.malformed.code ∧ y.loadDetail = d ∧
        (s.applyLater (.image rd.graph (.ok host) img)).sigs =
          s.sigs ++ (match rd.fence with | some f => [{ src := .own, fence := f.1, value := none }] | none => [])) ∧
    -- a result for a graph whose read is not the one at the head has no effect
    (∀ k, s.imageReads = rd :: rest → rd.graph ≠ k → s.applyLater (.image k (.ok host) img) = s) ∧
    -- a table's creation work ends
    (s.table? u = some x → x.state = .loading →
      (s.applyLater (.tableLoad u (.ok host))).table? u = some { x with state := .ready, loadSrc := none }) ∧
    -- a fill ends
    (s.table? u = some x → x.committed = some c →
      (s.applyLater (.fill u (.ok host))).table? u = some { x with committed := some { c with filled := true } }) ∧
    -- a bias period ends: every eligible layer's vector is published, unless the loop is off or its duty waits
    (s.applyLater .bias).pleach.layers =
      (if s.pleach.loopOff || (s.duty 8).2 then s.pleach.layers else Tbl.mapV s.pleach.layers fun _ l => l.period) ∧
    -- a teardown that leaves the partition enabled brings it up again with context 0 and ring 0 DISABLED
    (∀ td, (s.part p).teardown = some td → td.disable = false → (s.part p).enable = true →
      let t := s.applyLater (.torn p)
      (t.part p).teardown = none ∧ (∀ r, t.ring? (pkey p 0) = some r → r.state = .disabled) ∧ t.shears.lastPart = p ∧
      t.shears.escalated = td.escalated)

/-- Coppice goes from PREPARE through the flip to DRAIN, CATCHUP and OPEN (R241, R247, R249, R250, R254, R246).
CARRIED_FILL_DONE schedules the flip or makes READY due; the flip takes the next epoch and drains the previous;
PREVIOUS_EPOCH_RETIRE without pins begins CATCHUP; GRACE_EXPIRY aborts every holder with CS_EPOCH_EXPIRED; CATCHUP_DONE waits
for the boundary, which returns to OPEN; FLIP_WAIT_EXPIRY sends CANCEL or RETIRE. Choices of the model: the chips of an epoch
domain (log 12); whom a grace period aborts (log 57); CANCEL and repeats (log 72); one command for the carried fills (log 73).
-/
def Obligations.TheEpochCycleGoesOn : Prop :=
  ∀ (s : State) (host : List Word) (e : Nat), s.live → s.stop.stopped = false → s.epochDuty = true →
    -- the carried fills are done: the flip is scheduled, or READY is due
    (s.cop.phase = .prepare → s.cop.flipDue = false → s.cop.readyDue = false →
      GoesTo (exec (.carriedFillDone (.ok host)) s) fun t =>
        t.cop = (if s.soleDomain = true then { s.cop with flipDue := true } else { s.cop with readyDue := true }) ∧
        t.epoch = s.epoch ∧ t.rings = s.rings ∧ t.works = s.works ∧ t.fences = s.fences ∧
        ∀ u x c, u ∈ s.unfilled → s.table? u = some x → x.committed = some c →
          t.table? u = some { x with committed := some { c with filled := true } }) ∧
    -- no pin is left: the previous epoch is retired and CATCHUP begins
    (s.cop.prev = some e → s.cop.phase = .drain → s.epochPins e = 0 → (s.soleDomain = true ∨ s.cop.retireDue = true) →
      GoesTo (exec .previousEpochRetire s) fun t =>
        t = { s with cop := t.cop, trace := t.trace, free := t.free } ∧
        t.cop = { s.cop with prev := none, phase := .catchup, retireDue := false, clearFrom := [], waited := 0 }) ∧
    -- the grace period runs out: every holder is aborted urgently with CS_EPOCH_EXPIRED
    (s.cop.prev = some e → s.cop.graceDone = false → s.cop.graceMs * 1000000 ≤ s.cop.ran * 64 →
      exec .graceExpiry s = .next { s with
        aborts := s.aborts ++ (s.holders e).map fun h => { whom := h, st := .epochExpired, detail := 0x02AD, urgent := true }
        cop := { s.cop with
          graceDone := true, expired := s.cop.expired || (s.holders e) != [], waited := 0
          expiredCount := min (2 ^ 32 - 1) (s.cop.expiredCount + (s.holders e).length) } }) ∧
    -- catch-up ends
    (s.cop.phase = .catchup → exec .catchupDone s = .next { s with later := s.later ++ [.catchup] }) ∧
    (s.cop.phase = .catchup → s.cop.prepareHeld = false → ∀ t, t = s.applyLater .catchup →
      t.cop = { s.cop with phase := .opening, carriedRows := [] } ∧ t.epoch = s.epoch ∧ t.works = s.works ∧ t.rings = s.rings) ∧
    -- FLIP_WAIT_MS passes at the coordinator of several chips
    (s.soleDomain = false → s.coordinates = true → s.fab.sync = .locked → s.epoch < 2 ^ 32 → s.cop.flipWaitMs * 1000000 ≤ s.cop.waited * 64 →
      (s.cop.phase = .prepare → s.cop.requestSent = true → s.cop.flipSent = false → GoesTo (exec .flipWaitExpiry s) fun t =>
        t = { s with cop := { s.cop with waited := 0 }, fab := t.fab, out := t.out } ∧
        ∃ f, t.out = s.out ++ [.flit f] ∧ f.kind = 0x30 ∧ epochOpOf f = 7 ∧ f.eff = s.tick + s.lead) ∧
      (s.cop.phase = .drain → s.cop.graceDone = true → s.cop.retireDue = false → GoesTo (exec .flipWaitExpiry s) fun t =>
        t = { s with cop := { s.cop with waited := 0, clearFrom := [] }, fab := t.fab, out := t.out } ∧
        ∃ f, t.out = s.out ++ [.flit f] ∧ f.kind = 0x30 ∧ epochOpOf f = 6 ∧ f.eff = s.tick + s.lead)) ∧
    -- the flip itself
    (s.flip.epoch = (if s.epoch = 0xFFFFFFFF then 1 else s.epoch + 1) ∧ s.flip.cop.prev = some s.epoch ∧
      s.flip.cop.phase = .drain ∧ s.flip.cop.half = 1 - s.cop.half ∧ s.flip.works = s.works)

/-- Batches close, the reorder window adapts, and exchanges between chips go on (R235, R239, R242, R256, R297, R298, R299,
R300). BATCH_CLOSE merges at most one batch into gather segments; REORDER_ADJUST moves the window by one in an interval with
traffic, unless it is fixed, and clears the sketch; XCHG_REQUEST_SEGMENT opens an exchange: a row that the cache holds is sent
back in the reply, another joins this chip's own batch, and for an unknown table every row is answered with CS_ACCESS;
XCHG_REPLY_SEGMENT delivers a row or its status to its position; XCHG_OVERDUE fails the awaiting positions with 0x0228 and sends
CANCEL to the peers. Choices of the model: the sketch's hash (log 62); what adapts the reorder window (log 63); DETAIL of a
remote row (log 64); how a server answers (log 65). -/
def Obligations.TheMarshalGoesOn : Prop :=
  ∀ (s : State) (b : Batch) (eff xid u v w i t0 from_ id part epoch key rb : Nat) (frames : List (List Word)) (mark : SegMark)
    (a : Asked) (g : Gather) (x : Work) (tb : Table), s.live → s.stop.stopped = false →
    -- what the header of an exchange segment and the words after it say
    let ws := frames.flatten
    let last := mark.last
    let now := s.sinceReset / 64
    let n := mark.rows
    let row := fun j => bitsOf (ws.getD j 0).toNat 0 40
    let reply := fun (status rowBytes : Nat) (body : List Byte) =>
      let l := xchgHeader id s.fab.chip 1 last part n epoch key status rowBytes 0 ++ bytesWords ((body.length + 7) / 8) body
      Out.xchg from_ id (cutFrames l.length l)
    let opened : List Served := s.marshal.served ++ if last then [] else [{ chip := from_, xid := id, epoch := epoch, part := part }]
    -- segment 0 of an exchange that this chip does not hold yet, while it serves no other segment
    let first := mark.dir = 0 ∧ mark.no = 0 ∧ (∀ y ∈ s.marshal.served, ¬ (y.chip = from_ ∧ y.xid = id)) ∧
      (∀ e ∈ s.marshal.gathers, e.2.serves = none ∧ e.1 ≠ s.nextWork)
    let slot := tb.slotOf (row 0) (s.mapHalf tb (row 0) (s.halfOf epoch))
    -- a batch closes
    (s.marshal.batch = some b → s.batchDue b.opened b.window b.entries.length = true → s.marshal.remotes = [] →
      GoesTo (exec .batchClose s) fun t =>
        t = { s with marshal := t.marshal, trace := t.trace, free := t.free } ∧
        t.marshal.batch = (if b.entries.length ≤ Config.batchEntries then none else
          some { opened := s.tick, window := s.marshal.window, entries := b.entries.drop Config.batchEntries }) ∧
        ∀ sectors, sectors = s.mergeSectors (sortBy BatchEntry.le (b.entries.take Config.batchEntries)) → sectors ≠ [] →
          sectors.length ≤ 1024 → t.marshal.segs = Tbl.set s.marshal.segs s.marshal.nextSeg { sectors := sectors, since := s.tick + 1 }) ∧
    -- the reorder window at the end of an interval
    (s.marshal.interval + 4096 ≤ now → GoesTo (exec (.reorderAdjust eff) s) fun t =>
      t = { s with marshal := t.marshal, free := s.free + 1 } ∧
      t.marshal.interval = s.marshal.interval + (now - s.marshal.interval) / 4096 * 4096 ∧
      t.marshal.sketch = [] ∧ t.marshal.traffic = (s.marshal.gathers.any fun e => e.2.serves.isNone) ∧ t.marshal.eff = eff % 2 ^ 16 ∧
      (s.marshal.traffic = false ∨ s.marshal.fixed = true → t.marshal.w = s.marshal.w ∧ t.marshal.up = s.marshal.up) ∧
      (s.marshal.traffic = true → s.marshal.fixed = false → t.marshal.reorderWarm = true ∧
        ((t.marshal.up = true ∧ t.marshal.w = min 8 (s.marshal.w + 1)) ∨ (t.marshal.up = false ∧ t.marshal.w = max 1 (s.marshal.w - 1))))) ∧
    -- a request segment of another chip for a table that this chip does not hold
    (first → n ≠ 0 → s.tableOfKey key = none → GoesTo (exec (.xchgRequestSegment from_ id part epoch key frames mark) s) fun t =>
      t.out = s.out ++ [reply Status.access.code 0 (List.replicate n (BitVec.ofNat 8 Status.access.code))] ∧
      t.marshal.served = opened ∧ t.marshal.gathers = s.marshal.gathers ∧ t.works = s.works ∧ t.mem = s.mem) ∧
    -- a row that the hot-row cache holds is sent back in the reply
    (first → n = 1 → s.tableOfKey key = some (u, tb) → tb.state = .ready → (epoch = s.epoch ∨ s.cop.prev = some epoch) →
      row 0 < tb.lrows → s.hasLine u true (row 0 / 8) = true → s.hasLine u false slot = true →
      GoesTo (exec (.xchgRequestSegment from_ id part epoch key frames mark) s) fun t =>
        t.out = s.out ++ [reply 0 tb.rowBytes (s.readLoc (tb.slotLoc slot) tb.rowBytes ++ [0])] ∧
        t.marshal.served = opened ∧ t.marshal.gathers = s.marshal.gathers ∧ t.marshal.hits = (s.marshal.hits + 1) % 2 ^ 64 ∧
        t.works = s.works ∧ t.mem = s.mem) ∧
    -- another joins this chip's own batch, and the segment awaits it
    (first → n = 1 → s.tableOfKey key = some (u, tb) → tb.state = .ready → (epoch = s.epoch ∨ s.cop.prev = some epoch) →
      row 0 < tb.lrows → s.mapBad u (row 0) = false → s.hasLine u false slot = false →
      GoesTo (exec (.xchgRequestSegment from_ id part epoch key frames mark) s) fun t =>
        t.out = s.out ∧ t.works = s.works ∧ t.mem = s.mem ∧
        t.marshal.served = s.marshal.served ++ [{ chip := from_, xid := id, epoch := epoch, part := part }] ∧
        (∃ y m, t.gather? s.nextWork = some y ∧ y.pos = [.local_ u slot (sectorsIn (s.locAddr (tb.slotLoc slot)) tb.rowBytes) m] ∧
          y.serves = some { chip := from_, xid := id, part := part, epoch := epoch, key := key, no := 0, last := last, status := 0,
                            rowBytes := tb.rowBytes }) ∧
        ∃ c, t.marshal.batch = some c ∧ c.entries.map (fun e => (e.granule, e.work, e.pos)) =
          (match s.marshal.batch with | some o => o.entries.map fun e => (e.granule, e.work, e.pos) | none => []) ++
            (granules (s.locAddr (tb.slotLoc slot)) tb.rowBytes).map fun r => (r, s.nextWork, 0)) ∧
    -- a reply's row, or its status, reaches its position of a SUM or MEAN
    ((s.marshal.asked.find? fun a => a.chip == from_ && a.xid == id) = some a → mark.dir = 1 → n = 1 → a.pos = [i] →
      s.work? a.work = some x → gaMode x.cmd ≠ 0 → s.gather? a.work = some g → g.pos.getD i .unresolved = .remote v u →
      s.segRuns a.work = true →
      GoesTo (exec (.xchgReplySegment from_ id rb frames mark none) s) fun t =>
        let body := wordBytes ws
        let code := if mark.status ≠ 0 then mark.status else (body.getD rb 0).toNat
        t = { s with marshal := t.marshal } ∧ t.marshal.asked = s.marshal.asked.erase a ∧
        t.gather? a.work = some { g with
          pos := g.pos.set i (if code = 0 then .row u (body.take rb) else .bad (Status.ofCode code) (remoteDetail code rb))
          peers := if last && a.last then g.peers.filter fun c => c != from_ else g.peers }) ∧
    -- XCHG_MS passes without LAST
    ((s.marshal.gathers.find? fun e => e.2.xid == xid && e.2.peers != []) = some (w, g) → s.gather? w = some g → s.work? w = some x →
      g.lastSent = some t0 → t0 + s.marshal.xchgMs * 15625 ≤ s.tick → gaMode x.cmd ≠ 0 → s.segRuns w = true →
      GoesTo (exec (.xchgOverdue xid) s) fun t =>
        t = { s with marshal := t.marshal, fab := t.fab, out := t.out } ∧ t.marshal.overdue = satInc 16 s.marshal.overdue ∧
        (∃ l : List Flit, t.out = s.out ++ l.map Out.flit ∧ l.map Flit.dst = g.allPeers ∧ ∀ f ∈ l, f.kind = 0x40) ∧
        ∃ y : Gather, t.gather? w = some y ∧ y.peers = [] ∧
          ∀ (j : Nat) (c v : Nat), g.pos[j]? = some (PosSt.remote c v) → y.pos[j]? = some (PosSt.bad .access 0x0228))

/-- Refreshes, polls, snapshots, page clearing and escalation of teardowns (R181, R190, R224, R286, R411, R31). FENCE_REFRESH
sends one flit for each remote export of a fence that has not changed; OVERFLOW_POLL checks the waiters of the polled fences;
BIAS_SNAPSHOT and ORDERLY_SHUTDOWN ask FLASH to write the vector of every keyed layer; PAGE_CLEAR_DONE makes the partition pages
read 0 and no other byte; TEARDOWN_ESCALATE sends urgent aborts to the endpoints that still run the partition's segments.
Choices of the model: when the environment may send an event (log 6); a second change of a listed fence (log 22); when periodic
work recurs (log 47); when a boot phase may end (log 105); MEM_USED of a tier (log 127). -/
def Obligations.TimedHousekeepingRuns : Prop :=
  ∀ (s : State) (p : Nat) (td : Teardown), s.live →
    -- every remote export of an unchanged fence is refreshed
    (s.stop.stopped = false → s.tick % 16384 = 0 → 2 ∉ s.once → s.fab.sync ≠ .free → GoesTo (exec .fenceRefresh s) fun t =>
      t = { s with once := 2 :: s.once, fab := t.fab, out := t.out } ∧
      ∃ sent : List Flit, t.out = s.out ++ sent.map Out.flit ∧ (∀ f ∈ sent, f.kind = 0x10 ∧ f.eff = s.tick + s.lead) ∧
        sent.map (fun f => (f.dst, f.w0, f.w1)) = s.exports.filterMap fun x =>
          match x.chip, s.fence? x.fence with
          | some c, some f => if f.changed then none else some (c, BitVec.ofNat 64 f.value, BitVec.ofNat 64 x.key)
          | _, _ => none) ∧
    -- the poll of the overflow list
    (s.stop.stopped = false → s.tick % 16 = 0 → 1 ∉ s.once → GoesTo (exec .overflowPoll s) fun t =>
      t = { s with once := 1 :: s.once, works := t.works, listed := t.listed, arb := t.arb } ∧
      t.listed = (s.listed.map fun x => if s.polled.contains x.fence then { x with changed := none } else x) ∧
      ∀ w x, s.work? w = some x →
        ((∀ k ∈ s.polled, w ∉ s.waiters k) → t.work? w = some x) ∧
        (∀ k v, k ∈ s.polled → w ∈ s.waiters k → x.abort = none → s.fenceView (pkey x.part (fenceNo x.cmd)) = (v, false) →
          t.work? w = some (if thresholdOf x.cmd ≤ v then { x with phase := .decided Res.ok (s.tick + 1) } else x))) ∧
    -- the bias snapshots: every ten minutes and at an orderly shutdown FLASH is asked to write each keyed layer's vector
    ((s.duty 8).2 = false →
      let writes := s.fw.writes ++ if s.biasSnaps = [] then [] else [.snapshot s.biasSnaps]
      (s.pleach.lastSnap + 600000000000 ≤ s.sinceReset → exec .biasSnapshot s = .next { s with
        pleach := { s.pleach with lastSnap := s.sinceReset }, fw := { s.fw with writes := writes } }) ∧
      exec .orderlyShutdown s = .next { s with fw := { s.fw with writes := writes } }) ∧
    (∀ e ∈ s.pleach.layers, e.2.key ≠ 0 → { key := e.2.key, bias := e.2.bias } ∈ s.biasSnaps) ∧
    -- page clearing ends
    ((s.boot.phase = .config ∨ s.boot.phase = .fabric ∨ s.boot.phase = .bringup) → GoesTo (exec .pageClearDone s) fun t =>
      t = { s with mem := t.mem, boot := { s.boot with cleared := true } } ∧
      ∀ a, t.readByte a =
        if a < s.tierPages 0 * Config.pageBytes ∨ (Config.tier1Base ≤ a ∧ a < Config.tier1Base + s.tierPages 1 * Config.pageBytes)
        then 0 else s.readByte a) ∧
    -- 600 µs into a teardown
    ((s.part p).teardown = some td → s.stop.stopped = false → td.escalated = false → 600000 ≤ td.ran * 64 → s.partRuns p = true →
      GoesTo (exec (.teardownEscalate p) s) fun t =>
        (t.part p).teardown = some { td with escalated := true } ∧ t.works = s.works ∧ t.tasks = s.tasks ∧ t.rings = s.rings ∧
        t.fences = s.fences ∧ SameMemory s t ∧
        ∀ e g w i x, (s.ep e).seg = some g → g.owner = .work w i → s.work? w = some x → x.part = p →
          (t.ep e).abort = some (true, s.tick) ∧ (s.cutting = false → Out.abort e true ∈ t.out))

end
end

