-- ==== Sys2Proof/Laws/State.lean ====
section
/-! SUPPORT. What each plain update of the state leaves in each field: one lemma per field and update. -/
namespace Sys2Proof.Machine

section
variable (s : State) (a : Nat) (v : Byte)
@[simp] theorem State.store_pending : (s.store a v).pending = s.pending := rfl
@[simp] theorem State.store_mem : (s.store a v).mem = s.mem := rfl
@[simp] theorem State.store_stores : (s.store a v).stores = (a, v) :: s.stores := rfl
@[simp] theorem State.store_cleared : (s.store a v).cleared = s.cleared := rfl
@[simp] theorem State.store_free : (s.store a v).free = s.free := rfl
@[simp] theorem State.store_out : (s.store a v).out = s.out := rfl
@[simp] theorem State.store_readData : (s.store a v).readData = s.readData := rfl
@[simp] theorem State.store_cfg : (s.store a v).cfg = s.cfg := rfl
@[simp] theorem State.store_fab : (s.store a v).fab = s.fab := rfl
@[simp] theorem State.store_cal : (s.store a v).cal = s.cal := rfl
@[simp] theorem State.store_parts : (s.store a v).parts = s.parts := rfl
@[simp] theorem State.store_ctxs : (s.store a v).ctxs = s.ctxs := rfl
@[simp] theorem State.store_loads : (s.store a v).loads = s.loads := rfl
@[simp] theorem State.store_transl : (s.store a v).transl = s.transl := rfl
@[simp] theorem State.store_atsOn : (s.store a v).atsOn = s.atsOn := rfl
@[simp] theorem State.store_objs : (s.store a v).objs = s.objs := rfl
@[simp] theorem State.store_nextObj : (s.store a v).nextObj = s.nextObj := rfl
@[simp] theorem State.store_rings : (s.store a v).rings = s.rings := rfl
@[simp] theorem State.store_works : (s.store a v).works = s.works := rfl
@[simp] theorem State.store_nextWork : (s.store a v).nextWork = s.nextWork := rfl
@[simp] theorem State.store_launches : (s.store a v).launches = s.launches := rfl
@[simp] theorem State.store_nextLaunch : (s.store a v).nextLaunch = s.nextLaunch := rfl
@[simp] theorem State.store_graphs : (s.store a v).graphs = s.graphs := rfl
@[simp] theorem State.store_nextGraph : (s.store a v).nextGraph = s.nextGraph := rfl
@[simp] theorem State.store_nextBlock : (s.store a v).nextBlock = s.nextBlock := rfl
@[simp] theorem State.store_imageReads : (s.store a v).imageReads = s.imageReads := rfl
@[simp] theorem State.store_espWaits : (s.store a v).espWaits = s.espWaits := rfl
@[simp] theorem State.store_eps : (s.store a v).eps = s.eps := rfl
@[simp] theorem State.store_tasks : (s.store a v).tasks = s.tasks := rfl
@[simp] theorem State.store_fences : (s.store a v).fences = s.fences := rfl
@[simp] theorem State.store_exports : (s.store a v).exports = s.exports := rfl
@[simp] theorem State.store_nextExport : (s.store a v).nextExport = s.nextExport := rfl
@[simp] theorem State.store_watch : (s.store a v).watch = s.watch := rfl
@[simp] theorem State.store_listed : (s.store a v).listed = s.listed := rfl
@[simp] theorem State.store_sigs : (s.store a v).sigs = s.sigs := rfl
@[simp] theorem State.store_marks : (s.store a v).marks = s.marks := rfl
@[simp] theorem State.store_mirrors : (s.store a v).mirrors = s.mirrors := rfl
@[simp] theorem State.store_hostOps : (s.store a v).hostOps = s.hostOps := rfl
@[simp] theorem State.store_msgs : (s.store a v).msgs = s.msgs := rfl
@[simp] theorem State.store_aborts : (s.store a v).aborts = s.aborts := rfl
@[simp] theorem State.store_accepted : (s.store a v).accepted = s.accepted := rfl
@[simp] theorem State.store_ran : (s.store a v).ran = s.ran := rfl
@[simp] theorem State.store_once : (s.store a v).once = s.once := rfl
@[simp] theorem State.store_latches : (s.store a v).latches = s.latches := rfl
@[simp] theorem State.store_epoch : (s.store a v).epoch = s.epoch := rfl
@[simp] theorem State.store_cop : (s.store a v).cop = s.cop := rfl
@[simp] theorem State.store_tables : (s.store a v).tables = s.tables := rfl
@[simp] theorem State.store_nextTable : (s.store a v).nextTable = s.nextTable := rfl
@[simp] theorem State.store_marshal : (s.store a v).marshal = s.marshal := rfl
@[simp] theorem State.store_pleach : (s.store a v).pleach = s.pleach := rfl
@[simp] theorem State.store_later : (s.store a v).later = s.later := rfl
@[simp] theorem State.store_svc : (s.store a v).svc = s.svc := rfl
@[simp] theorem State.store_pwr : (s.store a v).pwr = s.pwr := rfl
@[simp] theorem State.store_stop : (s.store a v).stop = s.stop := rfl
@[simp] theorem State.store_flt : (s.store a v).flt = s.flt := rfl
@[simp] theorem State.store_fw : (s.store a v).fw = s.fw := rfl
@[simp] theorem State.store_bw : (s.store a v).bw = s.bw := rfl
@[simp] theorem State.store_arb : (s.store a v).arb = s.arb := rfl
@[simp] theorem State.store_ic : (s.store a v).ic = s.ic := rfl
@[simp] theorem State.store_boot : (s.store a v).boot = s.boot := rfl
@[simp] theorem State.store_shears : (s.store a v).shears = s.shears := rfl
@[simp] theorem State.store_shownWarm : (s.store a v).shownWarm = s.shownWarm := rfl
@[simp] theorem State.store_fenced : (s.store a v).fenced = s.fenced := rfl
@[simp] theorem State.store_dispTable : (s.store a v).dispTable = s.dispTable := rfl
@[simp] theorem State.store_pcnt : (s.store a v).pcnt = s.pcnt := rfl
@[simp] theorem State.store_gcnt : (s.store a v).gcnt = s.gcnt := rfl
@[simp] theorem State.store_epCopy : (s.store a v).epCopy = s.epCopy := rfl
@[simp] theorem State.store_resetFtc : (s.store a v).resetFtc = s.resetFtc := rfl
@[simp] theorem State.store_trace : (s.store a v).trace = s.trace := rfl
@[simp] theorem State.store_tapIr : (s.store a v).tapIr = s.tapIr := rfl
end

section
variable (s : State) (o : Out)
@[simp] theorem State.send_pending : (s.send o).pending = s.pending := rfl
@[simp] theorem State.send_mem : (s.send o).mem = s.mem := rfl
@[simp] theorem State.send_stores : (s.send o).stores = s.stores := rfl
@[simp] theorem State.send_cleared : (s.send o).cleared = s.cleared := rfl
@[simp] theorem State.send_free : (s.send o).free = s.free := rfl
@[simp] theorem State.send_out : (s.send o).out = s.out ++ [o] := rfl
@[simp] theorem State.send_readData : (s.send o).readData = s.readData := rfl
@[simp] theorem State.send_cfg : (s.send o).cfg = s.cfg := rfl
@[simp] theorem State.send_fab : (s.send o).fab = s.fab := rfl
@[simp] theorem State.send_cal : (s.send o).cal = s.cal := rfl
@[simp] theorem State.send_parts : (s.send o).parts = s.parts := rfl
@[simp] theorem State.send_ctxs : (s.send o).ctxs = s.ctxs := rfl
@[simp] theorem State.send_loads : (s.send o).loads = s.loads := rfl
@[simp] theorem State.send_transl : (s.send o).transl = s.transl := rfl
@[simp] theorem State.send_atsOn : (s.send o).atsOn = s.atsOn := rfl
@[simp] theorem State.send_objs : (s.send o).objs = s.objs := rfl
@[simp] theorem State.send_nextObj : (s.send o).nextObj = s.nextObj := rfl
@[simp] theorem State.send_rings : (s.send o).rings = s.rings := rfl
@[simp] theorem State.send_works : (s.send o).works = s.works := rfl
@[simp] theorem State.send_nextWork : (s.send o).nextWork = s.nextWork := rfl
@[simp] theorem State.send_launches : (s.send o).launches = s.launches := rfl
@[simp] theorem State.send_nextLaunch : (s.send o).nextLaunch = s.nextLaunch := rfl
@[simp] theorem State.send_graphs : (s.send o).graphs = s.graphs := rfl
@[simp] theorem State.send_nextGraph : (s.send o).nextGraph = s.nextGraph := rfl
@[simp] theorem State.send_nextBlock : (s.send o).nextBlock = s.nextBlock := rfl
@[simp] theorem State.send_imageReads : (s.send o).imageReads = s.imageReads := rfl
@[simp] theorem State.send_espWaits : (s.send o).espWaits = s.espWaits := rfl
@[simp] theorem State.send_eps : (s.send o).eps = s.eps := rfl
@[simp] theorem State.send_tasks : (s.send o).tasks = s.tasks := rfl
@[simp] theorem State.send_fences : (s.send o).fences = s.fences := rfl
@[simp] theorem State.send_exports : (s.send o).exports = s.exports := rfl
@[simp] theorem State.send_nextExport : (s.send o).nextExport = s.nextExport := rfl
@[simp] theorem State.send_watch : (s.send o).watch = s.watch := rfl
@[simp] theorem State.send_listed : (s.send o).listed = s.listed := rfl
@[simp] theorem State.send_sigs : (s.send o).sigs = s.sigs := rfl
@[simp] theorem State.send_marks : (s.send o).marks = s.marks := rfl
@[simp] theorem State.send_mirrors : (s.send o).mirrors = s.mirrors := rfl
@[simp] theorem State.send_hostOps : (s.send o).hostOps = s.hostOps := rfl
@[simp] theorem State.send_msgs : (s.send o).msgs = s.msgs := rfl
@[simp] theorem State.send_aborts : (s.send o).aborts = s.aborts := rfl
@[simp] theorem State.send_accepted : (s.send o).accepted = s.accepted := rfl
@[simp] theorem State.send_ran : (s.send o).ran = s.ran := rfl
@[simp] theorem State.send_once : (s.send o).once = s.once := rfl
@[simp] theorem State.send_latches : (s.send o).latches = s.latches := rfl
@[simp] theorem State.send_epoch : (s.send o).epoch = s.epoch := rfl
@[simp] theorem State.send_cop : (s.send o).cop = s.cop := rfl
@[simp] theorem State.send_tables : (s.send o).tables = s.tables := rfl
@[simp] theorem State.send_nextTable : (s.send o).nextTable = s.nextTable := rfl
@[simp] theorem State.send_marshal : (s.send o).marshal = s.marshal := rfl
@[simp] theorem State.send_pleach : (s.send o).pleach = s.pleach := rfl
@[simp] theorem State.send_later : (s.send o).later = s.later := rfl
@[simp] theorem State.send_svc : (s.send o).svc = s.svc := rfl
@[simp] theorem State.send_pwr : (s.send o).pwr = s.pwr := rfl
@[simp] theorem State.send_stop : (s.send o).stop = s.stop := rfl
@[simp] theorem State.send_flt : (s.send o).flt = s.flt := rfl
@[simp] theorem State.send_fw : (s.send o).fw = s.fw := rfl
@[simp] theorem State.send_bw : (s.send o).bw = s.bw := rfl
@[simp] theorem State.send_arb : (s.send o).arb = s.arb := rfl
@[simp] theorem State.send_ic : (s.send o).ic = s.ic := rfl
@[simp] theorem State.send_boot : (s.send o).boot = s.boot := rfl
@[simp] theorem State.send_shears : (s.send o).shears = s.shears := rfl
@[simp] theorem State.send_shownWarm : (s.send o).shownWarm = s.shownWarm := rfl
@[simp] theorem State.send_fenced : (s.send o).fenced = s.fenced := rfl
@[simp] theorem State.send_dispTable : (s.send o).dispTable = s.dispTable := rfl
@[simp] theorem State.send_pcnt : (s.send o).pcnt = s.pcnt := rfl
@[simp] theorem State.send_gcnt : (s.send o).gcnt = s.gcnt := rfl
@[simp] theorem State.send_epCopy : (s.send o).epCopy = s.epCopy := rfl
@[simp] theorem State.send_resetFtc : (s.send o).resetFtc = s.resetFtc := rfl
@[simp] theorem State.send_trace : (s.send o).trace = s.trace := rfl
@[simp] theorem State.send_tapIr : (s.send o).tapIr = s.tapIr := rfl
end

section
variable (s : State) (o : HostOp)
@[simp] theorem State.hostOp_pending : (s.hostOp o).pending = s.pending := rfl
@[simp] theorem State.hostOp_mem : (s.hostOp o).mem = s.mem := rfl
@[simp] theorem State.hostOp_stores : (s.hostOp o).stores = s.stores := rfl
@[simp] theorem State.hostOp_cleared : (s.hostOp o).cleared = s.cleared := rfl
@[simp] theorem State.hostOp_free : (s.hostOp o).free = s.free := rfl
@[simp] theorem State.hostOp_out : (s.hostOp o).out = s.out := rfl
@[simp] theorem State.hostOp_readData : (s.hostOp o).readData = s.readData := rfl
@[simp] theorem State.hostOp_cfg : (s.hostOp o).cfg = s.cfg := rfl
@[simp] theorem State.hostOp_fab : (s.hostOp o).fab = s.fab := rfl
@[simp] theorem State.hostOp_cal : (s.hostOp o).cal = s.cal := rfl
@[simp] theorem State.hostOp_parts : (s.hostOp o).parts = s.parts := rfl
@[simp] theorem State.hostOp_ctxs : (s.hostOp o).ctxs = s.ctxs := rfl
@[simp] theorem State.hostOp_loads : (s.hostOp o).loads = s.loads := rfl
@[simp] theorem State.hostOp_transl : (s.hostOp o).transl = s.transl := rfl
@[simp] theorem State.hostOp_atsOn : (s.hostOp o).atsOn = s.atsOn := rfl
@[simp] theorem State.hostOp_objs : (s.hostOp o).objs = s.objs := rfl
@[simp] theorem State.hostOp_nextObj : (s.hostOp o).nextObj = s.nextObj := rfl
@[simp] theorem State.hostOp_rings : (s.hostOp o).rings = s.rings := rfl
@[simp] theorem State.hostOp_works : (s.hostOp o).works = s.works := rfl
@[simp] theorem State.hostOp_nextWork : (s.hostOp o).nextWork = s.nextWork := rfl
@[simp] theorem State.hostOp_launches : (s.hostOp o).launches = s.launches := rfl
@[simp] theorem State.hostOp_nextLaunch : (s.hostOp o).nextLaunch = s.nextLaunch := rfl
@[simp] theorem State.hostOp_graphs : (s.hostOp o).graphs = s.graphs := rfl
@[simp] theorem State.hostOp_nextGraph : (s.hostOp o).nextGraph = s.nextGraph := rfl
@[simp] theorem State.hostOp_nextBlock : (s.hostOp o).nextBlock = s.nextBlock := rfl
@[simp] theorem State.hostOp_imageReads : (s.hostOp o).imageReads = s.imageReads := rfl
@[simp] theorem State.hostOp_espWaits : (s.hostOp o).espWaits = s.espWaits := rfl
@[simp] theorem State.hostOp_eps : (s.hostOp o).eps = s.eps := rfl
@[simp] theorem State.hostOp_tasks : (s.hostOp o).tasks = s.tasks := rfl
@[simp] theorem State.hostOp_fences : (s.hostOp o).fences = s.fences := rfl
@[simp] theorem State.hostOp_exports : (s.hostOp o).exports = s.exports := rfl
@[simp] theorem State.hostOp_nextExport : (s.hostOp o).nextExport = s.nextExport := rfl
@[simp] theorem State.hostOp_watch : (s.hostOp o).watch = s.watch := rfl
@[simp] theorem State.hostOp_listed : (s.hostOp o).listed = s.listed := rfl
@[simp] theorem State.hostOp_sigs : (s.hostOp o).sigs = s.sigs := rfl
@[simp] theorem State.hostOp_marks : (s.hostOp o).marks = s.marks := rfl
@[simp] theorem State.hostOp_mirrors : (s.hostOp o).mirrors = s.mirrors := rfl
@[simp] theorem State.hostOp_hostOps : (s.hostOp o).hostOps = s.hostOps ++ [o] := rfl
@[simp] theorem State.hostOp_msgs : (s.hostOp o).msgs = s.msgs := rfl
@[simp] theorem State.hostOp_aborts : (s.hostOp o).aborts = s.aborts := rfl
@[simp] theorem State.hostOp_accepted : (s.hostOp o).accepted = s.accepted := rfl
@[simp] theorem State.hostOp_ran : (s.hostOp o).ran = s.ran := rfl
@[simp] theorem State.hostOp_once : (s.hostOp o).once = s.once := rfl
@[simp] theorem State.hostOp_latches : (s.hostOp o).latches = s.latches := rfl
@[simp] theorem State.hostOp_epoch : (s.hostOp o).epoch = s.epoch := rfl
@[simp] theorem State.hostOp_cop : (s.hostOp o).cop = s.cop := rfl
@[simp] theorem State.hostOp_tables : (s.hostOp o).tables = s.tables := rfl
@[simp] theorem State.hostOp_nextTable : (s.hostOp o).nextTable = s.nextTable := rfl
@[simp] theorem State.hostOp_marshal : (s.hostOp o).marshal = s.marshal := rfl
@[simp] theorem State.hostOp_pleach : (s.hostOp o).pleach = s.pleach := rfl
@[simp] theorem State.hostOp_later : (s.hostOp o).later = s.later := rfl
@[simp] theorem State.hostOp_svc : (s.hostOp o).svc = s.svc := rfl
@[simp] theorem State.hostOp_pwr : (s.hostOp o).pwr = s.pwr := rfl
@[simp] theorem State.hostOp_stop : (s.hostOp o).stop = s.stop := rfl
@[simp] theorem State.hostOp_flt : (s.hostOp o).flt = s.flt := rfl
@[simp] theorem State.hostOp_fw : (s.hostOp o).fw = s.fw := rfl
@[simp] theorem State.hostOp_bw : (s.hostOp o).bw = s.bw := rfl
@[simp] theorem State.hostOp_arb : (s.hostOp o).arb = s.arb := rfl
@[simp] theorem State.hostOp_ic : (s.hostOp o).ic = s.ic := rfl
@[simp] theorem State.hostOp_boot : (s.hostOp o).boot = s.boot := rfl
@[simp] theorem State.hostOp_shears : (s.hostOp o).shears = s.shears := rfl
@[simp] theorem State.hostOp_shownWarm : (s.hostOp o).shownWarm = s.shownWarm := rfl
@[simp] theorem State.hostOp_fenced : (s.hostOp o).fenced = s.fenced := rfl
@[simp] theorem State.hostOp_dispTable : (s.hostOp o).dispTable = s.dispTable := rfl
@[simp] theorem State.hostOp_pcnt : (s.hostOp o).pcnt = s.pcnt := rfl
@[simp] theorem State.hostOp_gcnt : (s.hostOp o).gcnt = s.gcnt := rfl
@[simp] theorem State.hostOp_epCopy : (s.hostOp o).epCopy = s.epCopy := rfl
@[simp] theorem State.hostOp_resetFtc : (s.hostOp o).resetFtc = s.resetFtc := rfl
@[simp] theorem State.hostOp_trace : (s.hostOp o).trace = s.trace := rfl
@[simp] theorem State.hostOp_tapIr : (s.hostOp o).tapIr = s.tapIr := rfl
end

section
variable (s : State) (p : Nat) (f : Part → Part)
@[simp] theorem State.adjPart_pending : (s.adjPart p f).pending = s.pending := rfl
@[simp] theorem State.adjPart_mem : (s.adjPart p f).mem = s.mem := rfl
@[simp] theorem State.adjPart_stores : (s.adjPart p f).stores = s.stores := rfl
@[simp] theorem State.adjPart_cleared : (s.adjPart p f).cleared = s.cleared := rfl
@[simp] theorem State.adjPart_free : (s.adjPart p f).free = s.free := rfl
@[simp] theorem State.adjPart_out : (s.adjPart p f).out = s.out := rfl
@[simp] theorem State.adjPart_readData : (s.adjPart p f).readData = s.readData := rfl
@[simp] theorem State.adjPart_cfg : (s.adjPart p f).cfg = s.cfg := rfl
@[simp] theorem State.adjPart_fab : (s.adjPart p f).fab = s.fab := rfl
@[simp] theorem State.adjPart_cal : (s.adjPart p f).cal = s.cal := rfl
@[simp] theorem State.adjPart_parts : (s.adjPart p f).parts = Tbl.set s.parts p (f (s.part p)) := rfl
@[simp] theorem State.adjPart_ctxs : (s.adjPart p f).ctxs = s.ctxs := rfl
@[simp] theorem State.adjPart_loads : (s.adjPart p f).loads = s.loads := rfl
@[simp] theorem State.adjPart_transl : (s.adjPart p f).transl = s.transl := rfl
@[simp] theorem State.adjPart_atsOn : (s.adjPart p f).atsOn = s.atsOn := rfl
@[simp] theorem State.adjPart_objs : (s.adjPart p f).objs = s.objs := rfl
@[simp] theorem State.adjPart_nextObj : (s.adjPart p f).nextObj = s.nextObj := rfl
@[simp] theorem State.adjPart_rings : (s.adjPart p f).rings = s.rings := rfl
@[simp] theorem State.adjPart_works : (s.adjPart p f).works = s.works := rfl
@[simp] theorem State.adjPart_nextWork : (s.adjPart p f).nextWork = s.nextWork := rfl
@[simp] theorem State.adjPart_launches : (s.adjPart p f).launches = s.launches := rfl
@[simp] theorem State.adjPart_nextLaunch : (s.adjPart p f).nextLaunch = s.nextLaunch := rfl
@[simp] theorem State.adjPart_graphs : (s.adjPart p f).graphs = s.graphs := rfl
@[simp] theorem State.adjPart_nextGraph : (s.adjPart p f).nextGraph = s.nextGraph := rfl
@[simp] theorem State.adjPart_nextBlock : (s.adjPart p f).nextBlock = s.nextBlock := rfl
@[simp] theorem State.adjPart_imageReads : (s.adjPart p f).imageReads = s.imageReads := rfl
@[simp] theorem State.adjPart_espWaits : (s.adjPart p f).espWaits = s.espWaits := rfl
@[simp] theorem State.adjPart_eps : (s.adjPart p f).eps = s.eps := rfl
@[simp] theorem State.adjPart_tasks : (s.adjPart p f).tasks = s.tasks := rfl
@[simp] theorem State.adjPart_fences : (s.adjPart p f).fences = s.fences := rfl
@[simp] theorem State.adjPart_exports : (s.adjPart p f).exports = s.exports := rfl
@[simp] theorem State.adjPart_nextExport : (s.adjPart p f).nextExport = s.nextExport := rfl
@[simp] theorem State.adjPart_watch : (s.adjPart p f).watch = s.watch := rfl
@[simp] theorem State.adjPart_listed : (s.adjPart p f).listed = s.listed := rfl
@[simp] theorem State.adjPart_sigs : (s.adjPart p f).sigs = s.sigs := rfl
@[simp] theorem State.adjPart_marks : (s.adjPart p f).marks = s.marks := rfl
@[simp] theorem State.adjPart_mirrors : (s.adjPart p f).mirrors = s.mirrors := rfl
@[simp] theorem State.adjPart_hostOps : (s.adjPart p f).hostOps = s.hostOps := rfl
@[simp] theorem State.adjPart_msgs : (s.adjPart p f).msgs = s.msgs := rfl
@[simp] theorem State.adjPart_aborts : (s.adjPart p f).aborts = s.aborts := rfl
@[simp] theorem State.adjPart_accepted : (s.adjPart p f).accepted = s.accepted := rfl
@[simp] theorem State.adjPart_ran : (s.adjPart p f).ran = s.ran := rfl
@[simp] theorem State.adjPart_once : (s.adjPart p f).once = s.once := rfl
@[simp] theorem State.adjPart_latches : (s.adjPart p f).latches = s.latches := rfl
@[simp] theorem State.adjPart_epoch : (s.adjPart p f).epoch = s.epoch := rfl
@[simp] theorem State.adjPart_cop : (s.adjPart p f).cop = s.cop := rfl
@[simp] theorem State.adjPart_tables : (s.adjPart p f).tables = s.tables := rfl
@[simp] theorem State.adjPart_nextTable : (s.adjPart p f).nextTable = s.nextTable := rfl
@[simp] theorem State.adjPart_marshal : (s.adjPart p f).marshal = s.marshal := rfl
@[simp] theorem State.adjPart_pleach : (s.adjPart p f).pleach = s.pleach := rfl
@[simp] theorem State.adjPart_later : (s.adjPart p f).later = s.later := rfl
@[simp] theorem State.adjPart_svc : (s.adjPart p f).svc = s.svc := rfl
@[simp] theorem State.adjPart_pwr : (s.adjPart p f).pwr = s.pwr := rfl
@[simp] theorem State.adjPart_stop : (s.adjPart p f).stop = s.stop := rfl
@[simp] theorem State.adjPart_flt : (s.adjPart p f).flt = s.flt := rfl
@[simp] theorem State.adjPart_fw : (s.adjPart p f).fw = s.fw := rfl
@[simp] theorem State.adjPart_bw : (s.adjPart p f).bw = s.bw := rfl
@[simp] theorem State.adjPart_arb : (s.adjPart p f).arb = s.arb := rfl
@[simp] theorem State.adjPart_ic : (s.adjPart p f).ic = s.ic := rfl
@[simp] theorem State.adjPart_boot : (s.adjPart p f).boot = s.boot := rfl
@[simp] theorem State.adjPart_shears : (s.adjPart p f).shears = s.shears := rfl
@[simp] theorem State.adjPart_shownWarm : (s.adjPart p f).shownWarm = s.shownWarm := rfl
@[simp] theorem State.adjPart_fenced : (s.adjPart p f).fenced = s.fenced := rfl
@[simp] theorem State.adjPart_dispTable : (s.adjPart p f).dispTable = s.dispTable := rfl
@[simp] theorem State.adjPart_pcnt : (s.adjPart p f).pcnt = s.pcnt := rfl
@[simp] theorem State.adjPart_gcnt : (s.adjPart p f).gcnt = s.gcnt := rfl
@[simp] theorem State.adjPart_epCopy : (s.adjPart p f).epCopy = s.epCopy := rfl
@[simp] theorem State.adjPart_resetFtc : (s.adjPart p f).resetFtc = s.resetFtc := rfl
@[simp] theorem State.adjPart_trace : (s.adjPart p f).trace = s.trace := rfl
@[simp] theorem State.adjPart_tapIr : (s.adjPart p f).tapIr = s.tapIr := rfl
end

section
variable (s : State) (k : Nat) (f : Ring → Ring)
@[simp] theorem State.adjRing_pending : (s.adjRing k f).pending = s.pending := rfl
@[simp] theorem State.adjRing_mem : (s.adjRing k f).mem = s.mem := rfl
@[simp] theorem State.adjRing_stores : (s.adjRing k f).stores = s.stores := rfl
@[simp] theorem State.adjRing_cleared : (s.adjRing k f).cleared = s.cleared := rfl
@[simp] theorem State.adjRing_free : (s.adjRing k f).free = s.free := rfl
@[simp] theorem State.adjRing_out : (s.adjRing k f).out = s.out := rfl
@[simp] theorem State.adjRing_readData : (s.adjRing k f).readData = s.readData := rfl
@[simp] theorem State.adjRing_cfg : (s.adjRing k f).cfg = s.cfg := rfl
@[simp] theorem State.adjRing_fab : (s.adjRing k f).fab = s.fab := rfl
@[simp] theorem State.adjRing_cal : (s.adjRing k f).cal = s.cal := rfl
@[simp] theorem State.adjRing_parts : (s.adjRing k f).parts = s.parts := rfl
@[simp] theorem State.adjRing_ctxs : (s.adjRing k f).ctxs = s.ctxs := rfl
@[simp] theorem State.adjRing_loads : (s.adjRing k f).loads = s.loads := rfl
@[simp] theorem State.adjRing_transl : (s.adjRing k f).transl = s.transl := rfl
@[simp] theorem State.adjRing_atsOn : (s.adjRing k f).atsOn = s.atsOn := rfl
@[simp] theorem State.adjRing_objs : (s.adjRing k f).objs = s.objs := rfl
@[simp] theorem State.adjRing_nextObj : (s.adjRing k f).nextObj = s.nextObj := rfl
@[simp] theorem State.adjRing_rings : (s.adjRing k f).rings = Tbl.adjust s.rings k f := rfl
@[simp] theorem State.adjRing_works : (s.adjRing k f).works = s.works := rfl
@[simp] theorem State.adjRing_nextWork : (s.adjRing k f).nextWork = s.nextWork := rfl
@[simp] theorem State.adjRing_launches : (s.adjRing k f).launches = s.launches := rfl
@[simp] theorem State.adjRing_nextLaunch : (s.adjRing k f).nextLaunch = s.nextLaunch := rfl
@[simp] theorem State.adjRing_graphs : (s.adjRing k f).graphs = s.graphs := rfl
@[simp] theorem State.adjRing_nextGraph : (s.adjRing k f).nextGraph = s.nextGraph := rfl
@[simp] theorem State.adjRing_nextBlock : (s.adjRing k f).nextBlock = s.nextBlock := rfl
@[simp] theorem State.adjRing_imageReads : (s.adjRing k f).imageReads = s.imageReads := rfl
@[simp] theorem State.adjRing_espWaits : (s.adjRing k f).espWaits = s.espWaits := rfl
@[simp] theorem State.adjRing_eps : (s.adjRing k f).eps = s.eps := rfl
@[simp] theorem State.adjRing_tasks : (s.adjRing k f).tasks = s.tasks := rfl
@[simp] theorem State.adjRing_fences : (s.adjRing k f).fences = s.fences := rfl
@[simp] theorem State.adjRing_exports : (s.adjRing k f).exports = s.exports := rfl
@[simp] theorem State.adjRing_nextExport : (s.adjRing k f).nextExport = s.nextExport := rfl
@[simp] theorem State.adjRing_watch : (s.adjRing k f).watch = s.watch := rfl
@[simp] theorem State.adjRing_listed : (s.adjRing k f).listed = s.listed := rfl
@[simp] theorem State.adjRing_sigs : (s.adjRing k f).sigs = s.sigs := rfl
@[simp] theorem State.adjRing_marks : (s.adjRing k f).marks = s.marks := rfl
@[simp] theorem State.adjRing_mirrors : (s.adjRing k f).mirrors = s.mirrors := rfl
@[simp] theorem State.adjRing_hostOps : (s.adjRing k f).hostOps = s.hostOps := rfl
@[simp] theorem State.adjRing_msgs : (s.adjRing k f).msgs = s.msgs := rfl
@[simp] theorem State.adjRing_aborts : (s.adjRing k f).aborts = s.aborts := rfl
@[simp] theorem State.adjRing_accepted : (s.adjRing k f).accepted = s.accepted := rfl
@[simp] theorem State.adjRing_ran : (s.adjRing k f).ran = s.ran := rfl
@[simp] theorem State.adjRing_once : (s.adjRing k f).once = s.once := rfl
@[simp] theorem State.adjRing_latches : (s.adjRing k f).latches = s.latches := rfl
@[simp] theorem State.adjRing_epoch : (s.adjRing k f).epoch = s.epoch := rfl
@[simp] theorem State.adjRing_cop : (s.adjRing k f).cop = s.cop := rfl
@[simp] theorem State.adjRing_tables : (s.adjRing k f).tables = s.tables := rfl
@[simp] theorem State.adjRing_nextTable : (s.adjRing k f).nextTable = s.nextTable := rfl
@[simp] theorem State.adjRing_marshal : (s.adjRing k f).marshal = s.marshal := rfl
@[simp] theorem State.adjRing_pleach : (s.adjRing k f).pleach = s.pleach := rfl
@[simp] theorem State.adjRing_later : (s.adjRing k f).later = s.later := rfl
@[simp] theorem State.adjRing_svc : (s.adjRing k f).svc = s.svc := rfl
@[simp] theorem State.adjRing_pwr : (s.adjRing k f).pwr = s.pwr := rfl
@[simp] theorem State.adjRing_stop : (s.adjRing k f).stop = s.stop := rfl
@[simp] theorem State.adjRing_flt : (s.adjRing k f).flt = s.flt := rfl
@[simp] theorem State.adjRing_fw : (s.adjRing k f).fw = s.fw := rfl
@[simp] theorem State.adjRing_bw : (s.adjRing k f).bw = s.bw := rfl
@[simp] theorem State.adjRing_arb : (s.adjRing k f).arb = s.arb := rfl
@[simp] theorem State.adjRing_ic : (s.adjRing k f).ic = s.ic := rfl
@[simp] theorem State.adjRing_boot : (s.adjRing k f).boot = s.boot := rfl
@[simp] theorem State.adjRing_shears : (s.adjRing k f).shears = s.shears := rfl
@[simp] theorem State.adjRing_shownWarm : (s.adjRing k f).shownWarm = s.shownWarm := rfl
@[simp] theorem State.adjRing_fenced : (s.adjRing k f).fenced = s.fenced := rfl
@[simp] theorem State.adjRing_dispTable : (s.adjRing k f).dispTable = s.dispTable := rfl
@[simp] theorem State.adjRing_pcnt : (s.adjRing k f).pcnt = s.pcnt := rfl
@[simp] theorem State.adjRing_gcnt : (s.adjRing k f).gcnt = s.gcnt := rfl
@[simp] theorem State.adjRing_epCopy : (s.adjRing k f).epCopy = s.epCopy := rfl
@[simp] theorem State.adjRing_resetFtc : (s.adjRing k f).resetFtc = s.resetFtc := rfl
@[simp] theorem State.adjRing_trace : (s.adjRing k f).trace = s.trace := rfl
@[simp] theorem State.adjRing_tapIr : (s.adjRing k f).tapIr = s.tapIr := rfl
end

section
variable (s : State) (k : Nat) (f : Ctx → Ctx)
@[simp] theorem State.adjCtx_pending : (s.adjCtx k f).pending = s.pending := rfl
@[simp] theorem State.adjCtx_mem : (s.adjCtx k f).mem = s.mem := rfl
@[simp] theorem State.adjCtx_stores : (s.adjCtx k f).stores = s.stores := rfl
@[simp] theorem State.adjCtx_cleared : (s.adjCtx k f).cleared = s.cleared := rfl
@[simp] theorem State.adjCtx_free : (s.adjCtx k f).free = s.free := rfl
@[simp] theorem State.adjCtx_out : (s.adjCtx k f).out = s.out := rfl
@[simp] theorem State.adjCtx_readData : (s.adjCtx k f).readData = s.readData := rfl
@[simp] theorem State.adjCtx_cfg : (s.adjCtx k f).cfg = s.cfg := rfl
@[simp] theorem State.adjCtx_fab : (s.adjCtx k f).fab = s.fab := rfl
@[simp] theorem State.adjCtx_cal : (s.adjCtx k f).cal = s.cal := rfl
@[simp] theorem State.adjCtx_parts : (s.adjCtx k f).parts = s.parts := rfl
@[simp] theorem State.adjCtx_ctxs : (s.adjCtx k f).ctxs = Tbl.adjust s.ctxs k f := rfl
@[simp] theorem State.adjCtx_loads : (s.adjCtx k f).loads = s.loads := rfl
@[simp] theorem State.adjCtx_transl : (s.adjCtx k f).transl = s.transl := rfl
@[simp] theorem State.adjCtx_atsOn : (s.adjCtx k f).atsOn = s.atsOn := rfl
@[simp] theorem State.adjCtx_objs : (s.adjCtx k f).objs = s.objs := rfl
@[simp] theorem State.adjCtx_nextObj : (s.adjCtx k f).nextObj = s.nextObj := rfl
@[simp] theorem State.adjCtx_rings : (s.adjCtx k f).rings = s.rings := rfl
@[simp] theorem State.adjCtx_works : (s.adjCtx k f).works = s.works := rfl
@[simp] theorem State.adjCtx_nextWork : (s.adjCtx k f).nextWork = s.nextWork := rfl
@[simp] theorem State.adjCtx_launches : (s.adjCtx k f).launches = s.launches := rfl
@[simp] theorem State.adjCtx_nextLaunch : (s.adjCtx k f).nextLaunch = s.nextLaunch := rfl
@[simp] theorem State.adjCtx_graphs : (s.adjCtx k f).graphs = s.graphs := rfl
@[simp] theorem State.adjCtx_nextGraph : (s.adjCtx k f).nextGraph = s.nextGraph := rfl
@[simp] theorem State.adjCtx_nextBlock : (s.adjCtx k f).nextBlock = s.nextBlock := rfl
@[simp] theorem State.adjCtx_imageReads : (s.adjCtx k f).imageReads = s.imageReads := rfl
@[simp] theorem State.adjCtx_espWaits : (s.adjCtx k f).espWaits = s.espWaits := rfl
@[simp] theorem State.adjCtx_eps : (s.adjCtx k f).eps = s.eps := rfl
@[simp] theorem State.adjCtx_tasks : (s.adjCtx k f).tasks = s.tasks := rfl
@[simp] theorem State.adjCtx_fences : (s.adjCtx k f).fences = s.fences := rfl
@[simp] theorem State.adjCtx_exports : (s.adjCtx k f).exports = s.exports := rfl
@[simp] theorem State.adjCtx_nextExport : (s.adjCtx k f).nextExport = s.nextExport := rfl
@[simp] theorem State.adjCtx_watch : (s.adjCtx k f).watch = s.watch := rfl
@[simp] theorem State.adjCtx_listed : (s.adjCtx k f).listed = s.listed := rfl
@[simp] theorem State.adjCtx_sigs : (s.adjCtx k f).sigs = s.sigs := rfl
@[simp] theorem State.adjCtx_marks : (s.adjCtx k f).marks = s.marks := rfl
@[simp] theorem State.adjCtx_mirrors : (s.adjCtx k f).mirrors = s.mirrors := rfl
@[simp] theorem State.adjCtx_hostOps : (s.adjCtx k f).hostOps = s.hostOps := rfl
@[simp] theorem State.adjCtx_msgs : (s.adjCtx k f).msgs = s.msgs := rfl
@[simp] theorem State.adjCtx_aborts : (s.adjCtx k f).aborts = s.aborts := rfl
@[simp] theorem State.adjCtx_accepted : (s.adjCtx k f).accepted = s.accepted := rfl
@[simp] theorem State.adjCtx_ran : (s.adjCtx k f).ran = s.ran := rfl
@[simp] theorem State.adjCtx_once : (s.adjCtx k f).once = s.once := rfl
@[simp] theorem State.adjCtx_latches : (s.adjCtx k f).latches = s.latches := rfl
@[simp] theorem State.adjCtx_epoch : (s.adjCtx k f).epoch = s.epoch := rfl
@[simp] theorem State.adjCtx_cop : (s.adjCtx k f).cop = s.cop := rfl
@[simp] theorem State.adjCtx_tables : (s.adjCtx k f).tables = s.tables := rfl
@[simp] theorem State.adjCtx_nextTable : (s.adjCtx k f).nextTable = s.nextTable := rfl
@[simp] theorem State.adjCtx_marshal : (s.adjCtx k f).marshal = s.marshal := rfl
@[simp] theorem State.adjCtx_pleach : (s.adjCtx k f).pleach = s.pleach := rfl
@[simp] theorem State.adjCtx_later : (s.adjCtx k f).later = s.later := rfl
@[simp] theorem State.adjCtx_svc : (s.adjCtx k f).svc = s.svc := rfl
@[simp] theorem State.adjCtx_pwr : (s.adjCtx k f).pwr = s.pwr := rfl
@[simp] theorem State.adjCtx_stop : (s.adjCtx k f).stop = s.stop := rfl
@[simp] theorem State.adjCtx_flt : (s.adjCtx k f).flt = s.flt := rfl
@[simp] theorem State.adjCtx_fw : (s.adjCtx k f).fw = s.fw := rfl
@[simp] theorem State.adjCtx_bw : (s.adjCtx k f).bw = s.bw := rfl
@[simp] theorem State.adjCtx_arb : (s.adjCtx k f).arb = s.arb := rfl
@[simp] theorem State.adjCtx_ic : (s.adjCtx k f).ic = s.ic := rfl
@[simp] theorem State.adjCtx_boot : (s.adjCtx k f).boot = s.boot := rfl
@[simp] theorem State.adjCtx_shears : (s.adjCtx k f).shears = s.shears := rfl
@[simp] theorem State.adjCtx_shownWarm : (s.adjCtx k f).shownWarm = s.shownWarm := rfl
@[simp] theorem State.adjCtx_fenced : (s.adjCtx k f).fenced = s.fenced := rfl
@[simp] theorem State.adjCtx_dispTable : (s.adjCtx k f).dispTable = s.dispTable := rfl
@[simp] theorem State.adjCtx_pcnt : (s.adjCtx k f).pcnt = s.pcnt := rfl
@[simp] theorem State.adjCtx_gcnt : (s.adjCtx k f).gcnt = s.gcnt := rfl
@[simp] theorem State.adjCtx_epCopy : (s.adjCtx k f).epCopy = s.epCopy := rfl
@[simp] theorem State.adjCtx_resetFtc : (s.adjCtx k f).resetFtc = s.resetFtc := rfl
@[simp] theorem State.adjCtx_trace : (s.adjCtx k f).trace = s.trace := rfl
@[simp] theorem State.adjCtx_tapIr : (s.adjCtx k f).tapIr = s.tapIr := rfl
end

section
variable (s : State) (w : Nat) (f : Work → Work)
@[simp] theorem State.adjWork_pending : (s.adjWork w f).pending = s.pending := rfl
@[simp] theorem State.adjWork_mem : (s.adjWork w f).mem = s.mem := rfl
@[simp] theorem State.adjWork_stores : (s.adjWork w f).stores = s.stores := rfl
@[simp] theorem State.adjWork_cleared : (s.adjWork w f).cleared = s.cleared := rfl
@[simp] theorem State.adjWork_free : (s.adjWork w f).free = s.free := rfl
@[simp] theorem State.adjWork_out : (s.adjWork w f).out = s.out := rfl
@[simp] theorem State.adjWork_readData : (s.adjWork w f).readData = s.readData := rfl
@[simp] theorem State.adjWork_cfg : (s.adjWork w f).cfg = s.cfg := rfl
@[simp] theorem State.adjWork_fab : (s.adjWork w f).fab = s.fab := rfl
@[simp] theorem State.adjWork_cal : (s.adjWork w f).cal = s.cal := rfl
@[simp] theorem State.adjWork_parts : (s.adjWork w f).parts = s.parts := rfl
@[simp] theorem State.adjWork_ctxs : (s.adjWork w f).ctxs = s.ctxs := rfl
@[simp] theorem State.adjWork_loads : (s.adjWork w f).loads = s.loads := rfl
@[simp] theorem State.adjWork_transl : (s.adjWork w f).transl = s.transl := rfl
@[simp] theorem State.adjWork_atsOn : (s.adjWork w f).atsOn = s.atsOn := rfl
@[simp] theorem State.adjWork_objs : (s.adjWork w f).objs = s.objs := rfl
@[simp] theorem State.adjWork_nextObj : (s.adjWork w f).nextObj = s.nextObj := rfl
@[simp] theorem State.adjWork_rings : (s.adjWork w f).rings = s.rings := rfl
@[simp] theorem State.adjWork_works : (s.adjWork w f).works = Tbl.adjust s.works w f := rfl
@[simp] theorem State.adjWork_nextWork : (s.adjWork w f).nextWork = s.nextWork := rfl
@[simp] theorem State.adjWork_launches : (s.adjWork w f).launches = s.launches := rfl
@[simp] theorem State.adjWork_nextLaunch : (s.adjWork w f).nextLaunch = s.nextLaunch := rfl
@[simp] theorem State.adjWork_graphs : (s.adjWork w f).graphs = s.graphs := rfl
@[simp] theorem State.adjWork_nextGraph : (s.adjWork w f).nextGraph = s.nextGraph := rfl
@[simp] theorem State.adjWork_nextBlock : (s.adjWork w f).nextBlock = s.nextBlock := rfl
@[simp] theorem State.adjWork_imageReads : (s.adjWork w f).imageReads = s.imageReads := rfl
@[simp] theorem State.adjWork_espWaits : (s.adjWork w f).espWaits = s.espWaits := rfl
@[simp] theorem State.adjWork_eps : (s.adjWork w f).eps = s.eps := rfl
@[simp] theorem State.adjWork_tasks : (s.adjWork w f).tasks = s.tasks := rfl
@[simp] theorem State.adjWork_fences : (s.adjWork w f).fences = s.fences := rfl
@[simp] theorem State.adjWork_exports : (s.adjWork w f).exports = s.exports := rfl
@[simp] theorem State.adjWork_nextExport : (s.adjWork w f).nextExport = s.nextExport := rfl
@[simp] theorem State.adjWork_watch : (s.adjWork w f).watch = s.watch := rfl
@[simp] theorem State.adjWork_listed : (s.adjWork w f).listed = s.listed := rfl
@[simp] theorem State.adjWork_sigs : (s.adjWork w f).sigs = s.sigs := rfl
@[simp] theorem State.adjWork_marks : (s.adjWork w f).marks = s.marks := rfl
@[simp] theorem State.adjWork_mirrors : (s.adjWork w f).mirrors = s.mirrors := rfl
@[simp] theorem State.adjWork_hostOps : (s.adjWork w f).hostOps = s.hostOps := rfl
@[simp] theorem State.adjWork_msgs : (s.adjWork w f).msgs = s.msgs := rfl
@[simp] theorem State.adjWork_aborts : (s.adjWork w f).aborts = s.aborts := rfl
@[simp] theorem State.adjWork_accepted : (s.adjWork w f).accepted = s.accepted := rfl
@[simp] theorem State.adjWork_ran : (s.adjWork w f).ran = s.ran := rfl
@[simp] theorem State.adjWork_once : (s.adjWork w f).once = s.once := rfl
@[simp] theorem State.adjWork_latches : (s.adjWork w f).latches = s.latches := rfl
@[simp] theorem State.adjWork_epoch : (s.adjWork w f).epoch = s.epoch := rfl
@[simp] theorem State.adjWork_cop : (s.adjWork w f).cop = s.cop := rfl
@[simp] theorem State.adjWork_tables : (s.adjWork w f).tables = s.tables := rfl
@[simp] theorem State.adjWork_nextTable : (s.adjWork w f).nextTable = s.nextTable := rfl
@[simp] theorem State.adjWork_marshal : (s.adjWork w f).marshal = s.marshal := rfl
@[simp] theorem State.adjWork_pleach : (s.adjWork w f).pleach = s.pleach := rfl
@[simp] theorem State.adjWork_later : (s.adjWork w f).later = s.later := rfl
@[simp] theorem State.adjWork_svc : (s.adjWork w f).svc = s.svc := rfl
@[simp] theorem State.adjWork_pwr : (s.adjWork w f).pwr = s.pwr := rfl
@[simp] theorem State.adjWork_stop : (s.adjWork w f).stop = s.stop := rfl
@[simp] theorem State.adjWork_flt : (s.adjWork w f).flt = s.flt := rfl
@[simp] theorem State.adjWork_fw : (s.adjWork w f).fw = s.fw := rfl
@[simp] theorem State.adjWork_bw : (s.adjWork w f).bw = s.bw := rfl
@[simp] theorem State.adjWork_arb : (s.adjWork w f).arb = s.arb := rfl
@[simp] theorem State.adjWork_ic : (s.adjWork w f).ic = s.ic := rfl
@[simp] theorem State.adjWork_boot : (s.adjWork w f).boot = s.boot := rfl
@[simp] theorem State.adjWork_shears : (s.adjWork w f).shears = s.shears := rfl
@[simp] theorem State.adjWork_shownWarm : (s.adjWork w f).shownWarm = s.shownWarm := rfl
@[simp] theorem State.adjWork_fenced : (s.adjWork w f).fenced = s.fenced := rfl
@[simp] theorem State.adjWork_dispTable : (s.adjWork w f).dispTable = s.dispTable := rfl
@[simp] theorem State.adjWork_pcnt : (s.adjWork w f).pcnt = s.pcnt := rfl
@[simp] theorem State.adjWork_gcnt : (s.adjWork w f).gcnt = s.gcnt := rfl
@[simp] theorem State.adjWork_epCopy : (s.adjWork w f).epCopy = s.epCopy := rfl
@[simp] theorem State.adjWork_resetFtc : (s.adjWork w f).resetFtc = s.resetFtc := rfl
@[simp] theorem State.adjWork_trace : (s.adjWork w f).trace = s.trace := rfl
@[simp] theorem State.adjWork_tapIr : (s.adjWork w f).tapIr = s.tapIr := rfl
end

section
variable (s : State) (l : Nat) (f : Launch → Launch)
@[simp] theorem State.adjLaunch_pending : (s.adjLaunch l f).pending = s.pending := rfl
@[simp] theorem State.adjLaunch_mem : (s.adjLaunch l f).mem = s.mem := rfl
@[simp] theorem State.adjLaunch_stores : (s.adjLaunch l f).stores = s.stores := rfl
@[simp] theorem State.adjLaunch_cleared : (s.adjLaunch l f).cleared = s.cleared := rfl
@[simp] theorem State.adjLaunch_free : (s.adjLaunch l f).free = s.free := rfl
@[simp] theorem State.adjLaunch_out : (s.adjLaunch l f).out = s.out := rfl
@[simp] theorem State.adjLaunch_readData : (s.adjLaunch l f).readData = s.readData := rfl
@[simp] theorem State.adjLaunch_cfg : (s.adjLaunch l f).cfg = s.cfg := rfl
@[simp] theorem State.adjLaunch_fab : (s.adjLaunch l f).fab = s.fab := rfl
@[simp] theorem State.adjLaunch_cal : (s.adjLaunch l f).cal = s.cal := rfl
@[simp] theorem State.adjLaunch_parts : (s.adjLaunch l f).parts = s.parts := rfl
@[simp] theorem State.adjLaunch_ctxs : (s.adjLaunch l f).ctxs = s.ctxs := rfl
@[simp] theorem State.adjLaunch_loads : (s.adjLaunch l f).loads = s.loads := rfl
@[simp] theorem State.adjLaunch_transl : (s.adjLaunch l f).transl = s.transl := rfl
@[simp] theorem State.adjLaunch_atsOn : (s.adjLaunch l f).atsOn = s.atsOn := rfl
@[simp] theorem State.adjLaunch_objs : (s.adjLaunch l f).objs = s.objs := rfl
@[simp] theorem State.adjLaunch_nextObj : (s.adjLaunch l f).nextObj = s.nextObj := rfl
@[simp] theorem State.adjLaunch_rings : (s.adjLaunch l f).rings = s.rings := rfl
@[simp] theorem State.adjLaunch_works : (s.adjLaunch l f).works = s.works := rfl
@[simp] theorem State.adjLaunch_nextWork : (s.adjLaunch l f).nextWork = s.nextWork := rfl
@[simp] theorem State.adjLaunch_launches : (s.adjLaunch l f).launches = Tbl.adjust s.launches l f := rfl
@[simp] theorem State.adjLaunch_nextLaunch : (s.adjLaunch l f).nextLaunch = s.nextLaunch := rfl
@[simp] theorem State.adjLaunch_graphs : (s.adjLaunch l f).graphs = s.graphs := rfl
@[simp] theorem State.adjLaunch_nextGraph : (s.adjLaunch l f).nextGraph = s.nextGraph := rfl
@[simp] theorem State.adjLaunch_nextBlock : (s.adjLaunch l f).nextBlock = s.nextBlock := rfl
@[simp] theorem State.adjLaunch_imageReads : (s.adjLaunch l f).imageReads = s.imageReads := rfl
@[simp] theorem State.adjLaunch_espWaits : (s.adjLaunch l f).espWaits = s.espWaits := rfl
@[simp] theorem State.adjLaunch_eps : (s.adjLaunch l f).eps = s.eps := rfl
@[simp] theorem State.adjLaunch_tasks : (s.adjLaunch l f).tasks = s.tasks := rfl
@[simp] theorem State.adjLaunch_fences : (s.adjLaunch l f).fences = s.fences := rfl
@[simp] theorem State.adjLaunch_exports : (s.adjLaunch l f).exports = s.exports := rfl
@[simp] theorem State.adjLaunch_nextExport : (s.adjLaunch l f).nextExport = s.nextExport := rfl
@[simp] theorem State.adjLaunch_watch : (s.adjLaunch l f).watch = s.watch := rfl
@[simp] theorem State.adjLaunch_listed : (s.adjLaunch l f).listed = s.listed := rfl
@[simp] theorem State.adjLaunch_sigs : (s.adjLaunch l f).sigs = s.sigs := rfl
@[simp] theorem State.adjLaunch_marks : (s.adjLaunch l f).marks = s.marks := rfl
@[simp] theorem State.adjLaunch_mirrors : (s.adjLaunch l f).mirrors = s.mirrors := rfl
@[simp] theorem State.adjLaunch_hostOps : (s.adjLaunch l f).hostOps = s.hostOps := rfl
@[simp] theorem State.adjLaunch_msgs : (s.adjLaunch l f).msgs = s.msgs := rfl
@[simp] theorem State.adjLaunch_aborts : (s.adjLaunch l f).aborts = s.aborts := rfl
@[simp] theorem State.adjLaunch_accepted : (s.adjLaunch l f).accepted = s.accepted := rfl
@[simp] theorem State.adjLaunch_ran : (s.adjLaunch l f).ran = s.ran := rfl
@[simp] theorem State.adjLaunch_once : (s.adjLaunch l f).once = s.once := rfl
@[simp] theorem State.adjLaunch_latches : (s.adjLaunch l f).latches = s.latches := rfl
@[simp] theorem State.adjLaunch_epoch : (s.adjLaunch l f).epoch = s.epoch := rfl
@[simp] theorem State.adjLaunch_cop : (s.adjLaunch l f).cop = s.cop := rfl
@[simp] theorem State.adjLaunch_tables : (s.adjLaunch l f).tables = s.tables := rfl
@[simp] theorem State.adjLaunch_nextTable : (s.adjLaunch l f).nextTable = s.nextTable := rfl
@[simp] theorem State.adjLaunch_marshal : (s.adjLaunch l f).marshal = s.marshal := rfl
@[simp] theorem State.adjLaunch_pleach : (s.adjLaunch l f).pleach = s.pleach := rfl
@[simp] theorem State.adjLaunch_later : (s.adjLaunch l f).later = s.later := rfl
@[simp] theorem State.adjLaunch_svc : (s.adjLaunch l f).svc = s.svc := rfl
@[simp] theorem State.adjLaunch_pwr : (s.adjLaunch l f).pwr = s.pwr := rfl
@[simp] theorem State.adjLaunch_stop : (s.adjLaunch l f).stop = s.stop := rfl
@[simp] theorem State.adjLaunch_flt : (s.adjLaunch l f).flt = s.flt := rfl
@[simp] theorem State.adjLaunch_fw : (s.adjLaunch l f).fw = s.fw := rfl
@[simp] theorem State.adjLaunch_bw : (s.adjLaunch l f).bw = s.bw := rfl
@[simp] theorem State.adjLaunch_arb : (s.adjLaunch l f).arb = s.arb := rfl
@[simp] theorem State.adjLaunch_ic : (s.adjLaunch l f).ic = s.ic := rfl
@[simp] theorem State.adjLaunch_boot : (s.adjLaunch l f).boot = s.boot := rfl
@[simp] theorem State.adjLaunch_shears : (s.adjLaunch l f).shears = s.shears := rfl
@[simp] theorem State.adjLaunch_shownWarm : (s.adjLaunch l f).shownWarm = s.shownWarm := rfl
@[simp] theorem State.adjLaunch_fenced : (s.adjLaunch l f).fenced = s.fenced := rfl
@[simp] theorem State.adjLaunch_dispTable : (s.adjLaunch l f).dispTable = s.dispTable := rfl
@[simp] theorem State.adjLaunch_pcnt : (s.adjLaunch l f).pcnt = s.pcnt := rfl
@[simp] theorem State.adjLaunch_gcnt : (s.adjLaunch l f).gcnt = s.gcnt := rfl
@[simp] theorem State.adjLaunch_epCopy : (s.adjLaunch l f).epCopy = s.epCopy := rfl
@[simp] theorem State.adjLaunch_resetFtc : (s.adjLaunch l f).resetFtc = s.resetFtc := rfl
@[simp] theorem State.adjLaunch_trace : (s.adjLaunch l f).trace = s.trace := rfl
@[simp] theorem State.adjLaunch_tapIr : (s.adjLaunch l f).tapIr = s.tapIr := rfl
end

section
variable (s : State) (e : Nat) (f : Ep → Ep)
@[simp] theorem State.adjEp_pending : (s.adjEp e f).pending = s.pending := rfl
@[simp] theorem State.adjEp_mem : (s.adjEp e f).mem = s.mem := rfl
@[simp] theorem State.adjEp_stores : (s.adjEp e f).stores = s.stores := rfl
@[simp] theorem State.adjEp_cleared : (s.adjEp e f).cleared = s.cleared := rfl
@[simp] theorem State.adjEp_free : (s.adjEp e f).free = s.free := rfl
@[simp] theorem State.adjEp_out : (s.adjEp e f).out = s.out := rfl
@[simp] theorem State.adjEp_readData : (s.adjEp e f).readData = s.readData := rfl
@[simp] theorem State.adjEp_cfg : (s.adjEp e f).cfg = s.cfg := rfl
@[simp] theorem State.adjEp_fab : (s.adjEp e f).fab = s.fab := rfl
@[simp] theorem State.adjEp_cal : (s.adjEp e f).cal = s.cal := rfl
@[simp] theorem State.adjEp_parts : (s.adjEp e f).parts = s.parts := rfl
@[simp] theorem State.adjEp_ctxs : (s.adjEp e f).ctxs = s.ctxs := rfl
@[simp] theorem State.adjEp_loads : (s.adjEp e f).loads = s.loads := rfl
@[simp] theorem State.adjEp_transl : (s.adjEp e f).transl = s.transl := rfl
@[simp] theorem State.adjEp_atsOn : (s.adjEp e f).atsOn = s.atsOn := rfl
@[simp] theorem State.adjEp_objs : (s.adjEp e f).objs = s.objs := rfl
@[simp] theorem State.adjEp_nextObj : (s.adjEp e f).nextObj = s.nextObj := rfl
@[simp] theorem State.adjEp_rings : (s.adjEp e f).rings = s.rings := rfl
@[simp] theorem State.adjEp_works : (s.adjEp e f).works = s.works := rfl
@[simp] theorem State.adjEp_nextWork : (s.adjEp e f).nextWork = s.nextWork := rfl
@[simp] theorem State.adjEp_launches : (s.adjEp e f).launches = s.launches := rfl
@[simp] theorem State.adjEp_nextLaunch : (s.adjEp e f).nextLaunch = s.nextLaunch := rfl
@[simp] theorem State.adjEp_graphs : (s.adjEp e f).graphs = s.graphs := rfl
@[simp] theorem State.adjEp_nextGraph : (s.adjEp e f).nextGraph = s.nextGraph := rfl
@[simp] theorem State.adjEp_nextBlock : (s.adjEp e f).nextBlock = s.nextBlock := rfl
@[simp] theorem State.adjEp_imageReads : (s.adjEp e f).imageReads = s.imageReads := rfl
@[simp] theorem State.adjEp_espWaits : (s.adjEp e f).espWaits = s.espWaits := rfl
@[simp] theorem State.adjEp_eps : (s.adjEp e f).eps = Tbl.set s.eps e (f (s.ep e)) := rfl
@[simp] theorem State.adjEp_tasks : (s.adjEp e f).tasks = s.tasks := rfl
@[simp] theorem State.adjEp_fences : (s.adjEp e f).fences = s.fences := rfl
@[simp] theorem State.adjEp_exports : (s.adjEp e f).exports = s.exports := rfl
@[simp] theorem State.adjEp_nextExport : (s.adjEp e f).nextExport = s.nextExport := rfl
@[simp] theorem State.adjEp_watch : (s.adjEp e f).watch = s.watch := rfl
@[simp] theorem State.adjEp_listed : (s.adjEp e f).listed = s.listed := rfl
@[simp] theorem State.adjEp_sigs : (s.adjEp e f).sigs = s.sigs := rfl
@[simp] theorem State.adjEp_marks : (s.adjEp e f).marks = s.marks := rfl
@[simp] theorem State.adjEp_mirrors : (s.adjEp e f).mirrors = s.mirrors := rfl
@[simp] theorem State.adjEp_hostOps : (s.adjEp e f).hostOps = s.hostOps := rfl
@[simp] theorem State.adjEp_msgs : (s.adjEp e f).msgs = s.msgs := rfl
@[simp] theorem State.adjEp_aborts : (s.adjEp e f).aborts = s.aborts := rfl
@[simp] theorem State.adjEp_accepted : (s.adjEp e f).accepted = s.accepted := rfl
@[simp] theorem State.adjEp_ran : (s.adjEp e f).ran = s.ran := rfl
@[simp] theorem State.adjEp_once : (s.adjEp e f).once = s.once := rfl
@[simp] theorem State.adjEp_latches : (s.adjEp e f).latches = s.latches := rfl
@[simp] theorem State.adjEp_epoch : (s.adjEp e f).epoch = s.epoch := rfl
@[simp] theorem State.adjEp_cop : (s.adjEp e f).cop = s.cop := rfl
@[simp] theorem State.adjEp_tables : (s.adjEp e f).tables = s.tables := rfl
@[simp] theorem State.adjEp_nextTable : (s.adjEp e f).nextTable = s.nextTable := rfl
@[simp] theorem State.adjEp_marshal : (s.adjEp e f).marshal = s.marshal := rfl
@[simp] theorem State.adjEp_pleach : (s.adjEp e f).pleach = s.pleach := rfl
@[simp] theorem State.adjEp_later : (s.adjEp e f).later = s.later := rfl
@[simp] theorem State.adjEp_svc : (s.adjEp e f).svc = s.svc := rfl
@[simp] theorem State.adjEp_pwr : (s.adjEp e f).pwr = s.pwr := rfl
@[simp] theorem State.adjEp_stop : (s.adjEp e f).stop = s.stop := rfl
@[simp] theorem State.adjEp_flt : (s.adjEp e f).flt = s.flt := rfl
@[simp] theorem State.adjEp_fw : (s.adjEp e f).fw = s.fw := rfl
@[simp] theorem State.adjEp_bw : (s.adjEp e f).bw = s.bw := rfl
@[simp] theorem State.adjEp_arb : (s.adjEp e f).arb = s.arb := rfl
@[simp] theorem State.adjEp_ic : (s.adjEp e f).ic = s.ic := rfl
@[simp] theorem State.adjEp_boot : (s.adjEp e f).boot = s.boot := rfl
@[simp] theorem State.adjEp_shears : (s.adjEp e f).shears = s.shears := rfl
@[simp] theorem State.adjEp_shownWarm : (s.adjEp e f).shownWarm = s.shownWarm := rfl
@[simp] theorem State.adjEp_fenced : (s.adjEp e f).fenced = s.fenced := rfl
@[simp] theorem State.adjEp_dispTable : (s.adjEp e f).dispTable = s.dispTable := rfl
@[simp] theorem State.adjEp_pcnt : (s.adjEp e f).pcnt = s.pcnt := rfl
@[simp] theorem State.adjEp_gcnt : (s.adjEp e f).gcnt = s.gcnt := rfl
@[simp] theorem State.adjEp_epCopy : (s.adjEp e f).epCopy = s.epCopy := rfl
@[simp] theorem State.adjEp_resetFtc : (s.adjEp e f).resetFtc = s.resetFtc := rfl
@[simp] theorem State.adjEp_trace : (s.adjEp e f).trace = s.trace := rfl
@[simp] theorem State.adjEp_tapIr : (s.adjEp e f).tapIr = s.tapIr := rfl
end

section
variable (s : State) (k : Nat) (f : Fence → Fence)
@[simp] theorem State.adjFence_pending : (s.adjFence k f).pending = s.pending := rfl
@[simp] theorem State.adjFence_mem : (s.adjFence k f).mem = s.mem := rfl
@[simp] theorem State.adjFence_stores : (s.adjFence k f).stores = s.stores := rfl
@[simp] theorem State.adjFence_cleared : (s.adjFence k f).cleared = s.cleared := rfl
@[simp] theorem State.adjFence_free : (s.adjFence k f).free = s.free := rfl
@[simp] theorem State.adjFence_out : (s.adjFence k f).out = s.out := rfl
@[simp] theorem State.adjFence_readData : (s.adjFence k f).readData = s.readData := rfl
@[simp] theorem State.adjFence_cfg : (s.adjFence k f).cfg = s.cfg := rfl
@[simp] theorem State.adjFence_fab : (s.adjFence k f).fab = s.fab := rfl
@[simp] theorem State.adjFence_cal : (s.adjFence k f).cal = s.cal := rfl
@[simp] theorem State.adjFence_parts : (s.adjFence k f).parts = s.parts := rfl
@[simp] theorem State.adjFence_ctxs : (s.adjFence k f).ctxs = s.ctxs := rfl
@[simp] theorem State.adjFence_loads : (s.adjFence k f).loads = s.loads := rfl
@[simp] theorem State.adjFence_transl : (s.adjFence k f).transl = s.transl := rfl
@[simp] theorem State.adjFence_atsOn : (s.adjFence k f).atsOn = s.atsOn := rfl
@[simp] theorem State.adjFence_objs : (s.adjFence k f).objs = s.objs := rfl
@[simp] theorem State.adjFence_nextObj : (s.adjFence k f).nextObj = s.nextObj := rfl
@[simp] theorem State.adjFence_rings : (s.adjFence k f).rings = s.rings := rfl
@[simp] theorem State.adjFence_works : (s.adjFence k f).works = s.works := rfl
@[simp] theorem State.adjFence_nextWork : (s.adjFence k f).nextWork = s.nextWork := rfl
@[simp] theorem State.adjFence_launches : (s.adjFence k f).launches = s.launches := rfl
@[simp] theorem State.adjFence_nextLaunch : (s.adjFence k f).nextLaunch = s.nextLaunch := rfl
@[simp] theorem State.adjFence_graphs : (s.adjFence k f).graphs = s.graphs := rfl
@[simp] theorem State.adjFence_nextGraph : (s.adjFence k f).nextGraph = s.nextGraph := rfl
@[simp] theorem State.adjFence_nextBlock : (s.adjFence k f).nextBlock = s.nextBlock := rfl
@[simp] theorem State.adjFence_imageReads : (s.adjFence k f).imageReads = s.imageReads := rfl
@[simp] theorem State.adjFence_espWaits : (s.adjFence k f).espWaits = s.espWaits := rfl
@[simp] theorem State.adjFence_eps : (s.adjFence k f).eps = s.eps := rfl
@[simp] theorem State.adjFence_tasks : (s.adjFence k f).tasks = s.tasks := rfl
@[simp] theorem State.adjFence_fences : (s.adjFence k f).fences = Tbl.adjust s.fences k f := rfl
@[simp] theorem State.adjFence_exports : (s.adjFence k f).exports = s.exports := rfl
@[simp] theorem State.adjFence_nextExport : (s.adjFence k f).nextExport = s.nextExport := rfl
@[simp] theorem State.adjFence_watch : (s.adjFence k f).watch = s.watch := rfl
@[simp] theorem State.adjFence_listed : (s.adjFence k f).listed = s.listed := rfl
@[simp] theorem State.adjFence_sigs : (s.adjFence k f).sigs = s.sigs := rfl
@[simp] theorem State.adjFence_marks : (s.adjFence k f).marks = s.marks := rfl
@[simp] theorem State.adjFence_mirrors : (s.adjFence k f).mirrors = s.mirrors := rfl
@[simp] theorem State.adjFence_hostOps : (s.adjFence k f).hostOps = s.hostOps := rfl
@[simp] theorem State.adjFence_msgs : (s.adjFence k f).msgs = s.msgs := rfl
@[simp] theorem State.adjFence_aborts : (s.adjFence k f).aborts = s.aborts := rfl
@[simp] theorem State.adjFence_accepted : (s.adjFence k f).accepted = s.accepted := rfl
@[simp] theorem State.adjFence_ran : (s.adjFence k f).ran = s.ran := rfl
@[simp] theorem State.adjFence_once : (s.adjFence k f).once = s.once := rfl
@[simp] theorem State.adjFence_latches : (s.adjFence k f).latches = s.latches := rfl
@[simp] theorem State.adjFence_epoch : (s.adjFence k f).epoch = s.epoch := rfl
@[simp] theorem State.adjFence_cop : (s.adjFence k f).cop = s.cop := rfl
@[simp] theorem State.adjFence_tables : (s.adjFence k f).tables = s.tables := rfl
@[simp] theorem State.adjFence_nextTable : (s.adjFence k f).nextTable = s.nextTable := rfl
@[simp] theorem State.adjFence_marshal : (s.adjFence k f).marshal = s.marshal := rfl
@[simp] theorem State.adjFence_pleach : (s.adjFence k f).pleach = s.pleach := rfl
@[simp] theorem State.adjFence_later : (s.adjFence k f).later = s.later := rfl
@[simp] theorem State.adjFence_svc : (s.adjFence k f).svc = s.svc := rfl
@[simp] theorem State.adjFence_pwr : (s.adjFence k f).pwr = s.pwr := rfl
@[simp] theorem State.adjFence_stop : (s.adjFence k f).stop = s.stop := rfl
@[simp] theorem State.adjFence_flt : (s.adjFence k f).flt = s.flt := rfl
@[simp] theorem State.adjFence_fw : (s.adjFence k f).fw = s.fw := rfl
@[simp] theorem State.adjFence_bw : (s.adjFence k f).bw = s.bw := rfl
@[simp] theorem State.adjFence_arb : (s.adjFence k f).arb = s.arb := rfl
@[simp] theorem State.adjFence_ic : (s.adjFence k f).ic = s.ic := rfl
@[simp] theorem State.adjFence_boot : (s.adjFence k f).boot = s.boot := rfl
@[simp] theorem State.adjFence_shears : (s.adjFence k f).shears = s.shears := rfl
@[simp] theorem State.adjFence_shownWarm : (s.adjFence k f).shownWarm = s.shownWarm := rfl
@[simp] theorem State.adjFence_fenced : (s.adjFence k f).fenced = s.fenced := rfl
@[simp] theorem State.adjFence_dispTable : (s.adjFence k f).dispTable = s.dispTable := rfl
@[simp] theorem State.adjFence_pcnt : (s.adjFence k f).pcnt = s.pcnt := rfl
@[simp] theorem State.adjFence_gcnt : (s.adjFence k f).gcnt = s.gcnt := rfl
@[simp] theorem State.adjFence_epCopy : (s.adjFence k f).epCopy = s.epCopy := rfl
@[simp] theorem State.adjFence_resetFtc : (s.adjFence k f).resetFtc = s.resetFtc := rfl
@[simp] theorem State.adjFence_trace : (s.adjFence k f).trace = s.trace := rfl
@[simp] theorem State.adjFence_tapIr : (s.adjFence k f).tapIr = s.tapIr := rfl
end

section
variable (s : State) (u : Nat) (f : Table → Table)
@[simp] theorem State.adjTable_pending : (s.adjTable u f).pending = s.pending := rfl
@[simp] theorem State.adjTable_mem : (s.adjTable u f).mem = s.mem := rfl
@[simp] theorem State.adjTable_stores : (s.adjTable u f).stores = s.stores := rfl
@[simp] theorem State.adjTable_cleared : (s.adjTable u f).cleared = s.cleared := rfl
@[simp] theorem State.adjTable_free : (s.adjTable u f).free = s.free := rfl
@[simp] theorem State.adjTable_out : (s.adjTable u f).out = s.out := rfl
@[simp] theorem State.adjTable_readData : (s.adjTable u f).readData = s.readData := rfl
@[simp] theorem State.adjTable_cfg : (s.adjTable u f).cfg = s.cfg := rfl
@[simp] theorem State.adjTable_fab : (s.adjTable u f).fab = s.fab := rfl
@[simp] theorem State.adjTable_cal : (s.adjTable u f).cal = s.cal := rfl
@[simp] theorem State.adjTable_parts : (s.adjTable u f).parts = s.parts := rfl
@[simp] theorem State.adjTable_ctxs : (s.adjTable u f).ctxs = s.ctxs := rfl
@[simp] theorem State.adjTable_loads : (s.adjTable u f).loads = s.loads := rfl
@[simp] theorem State.adjTable_transl : (s.adjTable u f).transl = s.transl := rfl
@[simp] theorem State.adjTable_atsOn : (s.adjTable u f).atsOn = s.atsOn := rfl
@[simp] theorem State.adjTable_objs : (s.adjTable u f).objs = s.objs := rfl
@[simp] theorem State.adjTable_nextObj : (s.adjTable u f).nextObj = s.nextObj := rfl
@[simp] theorem State.adjTable_rings : (s.adjTable u f).rings = s.rings := rfl
@[simp] theorem State.adjTable_works : (s.adjTable u f).works = s.works := rfl
@[simp] theorem State.adjTable_nextWork : (s.adjTable u f).nextWork = s.nextWork := rfl
@[simp] theorem State.adjTable_launches : (s.adjTable u f).launches = s.launches := rfl
@[simp] theorem State.adjTable_nextLaunch : (s.adjTable u f).nextLaunch = s.nextLaunch := rfl
@[simp] theorem State.adjTable_graphs : (s.adjTable u f).graphs = s.graphs := rfl
@[simp] theorem State.adjTable_nextGraph : (s.adjTable u f).nextGraph = s.nextGraph := rfl
@[simp] theorem State.adjTable_nextBlock : (s.adjTable u f).nextBlock = s.nextBlock := rfl
@[simp] theorem State.adjTable_imageReads : (s.adjTable u f).imageReads = s.imageReads := rfl
@[simp] theorem State.adjTable_espWaits : (s.adjTable u f).espWaits = s.espWaits := rfl
@[simp] theorem State.adjTable_eps : (s.adjTable u f).eps = s.eps := rfl
@[simp] theorem State.adjTable_tasks : (s.adjTable u f).tasks = s.tasks := rfl
@[simp] theorem State.adjTable_fences : (s.adjTable u f).fences = s.fences := rfl
@[simp] theorem State.adjTable_exports : (s.adjTable u f).exports = s.exports := rfl
@[simp] theorem State.adjTable_nextExport : (s.adjTable u f).nextExport = s.nextExport := rfl
@[simp] theorem State.adjTable_watch : (s.adjTable u f).watch = s.watch := rfl
@[simp] theorem State.adjTable_listed : (s.adjTable u f).listed = s.listed := rfl
@[simp] theorem State.adjTable_sigs : (s.adjTable u f).sigs = s.sigs := rfl
@[simp] theorem State.adjTable_marks : (s.adjTable u f).marks = s.marks := rfl
@[simp] theorem State.adjTable_mirrors : (s.adjTable u f).mirrors = s.mirrors := rfl
@[simp] theorem State.adjTable_hostOps : (s.adjTable u f).hostOps = s.hostOps := rfl
@[simp] theorem State.adjTable_msgs : (s.adjTable u f).msgs = s.msgs := rfl
@[simp] theorem State.adjTable_aborts : (s.adjTable u f).aborts = s.aborts := rfl
@[simp] theorem State.adjTable_accepted : (s.adjTable u f).accepted = s.accepted := rfl
@[simp] theorem State.adjTable_ran : (s.adjTable u f).ran = s.ran := rfl
@[simp] theorem State.adjTable_once : (s.adjTable u f).once = s.once := rfl
@[simp] theorem State.adjTable_latches : (s.adjTable u f).latches = s.latches := rfl
@[simp] theorem State.adjTable_epoch : (s.adjTable u f).epoch = s.epoch := rfl
@[simp] theorem State.adjTable_cop : (s.adjTable u f).cop = s.cop := rfl
@[simp] theorem State.adjTable_tables : (s.adjTable u f).tables = Tbl.adjust s.tables u f := rfl
@[simp] theorem State.adjTable_nextTable : (s.adjTable u f).nextTable = s.nextTable := rfl
@[simp] theorem State.adjTable_marshal : (s.adjTable u f).marshal = s.marshal := rfl
@[simp] theorem State.adjTable_pleach : (s.adjTable u f).pleach = s.pleach := rfl
@[simp] theorem State.adjTable_later : (s.adjTable u f).later = s.later := rfl
@[simp] theorem State.adjTable_svc : (s.adjTable u f).svc = s.svc := rfl
@[simp] theorem State.adjTable_pwr : (s.adjTable u f).pwr = s.pwr := rfl
@[simp] theorem State.adjTable_stop : (s.adjTable u f).stop = s.stop := rfl
@[simp] theorem State.adjTable_flt : (s.adjTable u f).flt = s.flt := rfl
@[simp] theorem State.adjTable_fw : (s.adjTable u f).fw = s.fw := rfl
@[simp] theorem State.adjTable_bw : (s.adjTable u f).bw = s.bw := rfl
@[simp] theorem State.adjTable_arb : (s.adjTable u f).arb = s.arb := rfl
@[simp] theorem State.adjTable_ic : (s.adjTable u f).ic = s.ic := rfl
@[simp] theorem State.adjTable_boot : (s.adjTable u f).boot = s.boot := rfl
@[simp] theorem State.adjTable_shears : (s.adjTable u f).shears = s.shears := rfl
@[simp] theorem State.adjTable_shownWarm : (s.adjTable u f).shownWarm = s.shownWarm := rfl
@[simp] theorem State.adjTable_fenced : (s.adjTable u f).fenced = s.fenced := rfl
@[simp] theorem State.adjTable_dispTable : (s.adjTable u f).dispTable = s.dispTable := rfl
@[simp] theorem State.adjTable_pcnt : (s.adjTable u f).pcnt = s.pcnt := rfl
@[simp] theorem State.adjTable_gcnt : (s.adjTable u f).gcnt = s.gcnt := rfl
@[simp] theorem State.adjTable_epCopy : (s.adjTable u f).epCopy = s.epCopy := rfl
@[simp] theorem State.adjTable_resetFtc : (s.adjTable u f).resetFtc = s.resetFtc := rfl
@[simp] theorem State.adjTable_trace : (s.adjTable u f).trace = s.trace := rfl
@[simp] theorem State.adjTable_tapIr : (s.adjTable u f).tapIr = s.tapIr := rfl
end

section
variable (s : State) (f : Fab → Fab)
@[simp] theorem State.adjFab_pending : (s.adjFab f).pending = s.pending := rfl
@[simp] theorem State.adjFab_mem : (s.adjFab f).mem = s.mem := rfl
@[simp] theorem State.adjFab_stores : (s.adjFab f).stores = s.stores := rfl
@[simp] theorem State.adjFab_cleared : (s.adjFab f).cleared = s.cleared := rfl
@[simp] theorem State.adjFab_free : (s.adjFab f).free = s.free := rfl
@[simp] theorem State.adjFab_out : (s.adjFab f).out = s.out := rfl
@[simp] theorem State.adjFab_readData : (s.adjFab f).readData = s.readData := rfl
@[simp] theorem State.adjFab_cfg : (s.adjFab f).cfg = s.cfg := rfl
@[simp] theorem State.adjFab_fab : (s.adjFab f).fab = f s.fab := rfl
@[simp] theorem State.adjFab_cal : (s.adjFab f).cal = s.cal := rfl
@[simp] theorem State.adjFab_parts : (s.adjFab f).parts = s.parts := rfl
@[simp] theorem State.adjFab_ctxs : (s.adjFab f).ctxs = s.ctxs := rfl
@[simp] theorem State.adjFab_loads : (s.adjFab f).loads = s.loads := rfl
@[simp] theorem State.adjFab_transl : (s.adjFab f).transl = s.transl := rfl
@[simp] theorem State.adjFab_atsOn : (s.adjFab f).atsOn = s.atsOn := rfl
@[simp] theorem State.adjFab_objs : (s.adjFab f).objs = s.objs := rfl
@[simp] theorem State.adjFab_nextObj : (s.adjFab f).nextObj = s.nextObj := rfl
@[simp] theorem State.adjFab_rings : (s.adjFab f).rings = s.rings := rfl
@[simp] theorem State.adjFab_works : (s.adjFab f).works = s.works := rfl
@[simp] theorem State.adjFab_nextWork : (s.adjFab f).nextWork = s.nextWork := rfl
@[simp] theorem State.adjFab_launches : (s.adjFab f).launches = s.launches := rfl
@[simp] theorem State.adjFab_nextLaunch : (s.adjFab f).nextLaunch = s.nextLaunch := rfl
@[simp] theorem State.adjFab_graphs : (s.adjFab f).graphs = s.graphs := rfl
@[simp] theorem State.adjFab_nextGraph : (s.adjFab f).nextGraph = s.nextGraph := rfl
@[simp] theorem State.adjFab_nextBlock : (s.adjFab f).nextBlock = s.nextBlock := rfl
@[simp] theorem State.adjFab_imageReads : (s.adjFab f).imageReads = s.imageReads := rfl
@[simp] theorem State.adjFab_espWaits : (s.adjFab f).espWaits = s.espWaits := rfl
@[simp] theorem State.adjFab_eps : (s.adjFab f).eps = s.eps := rfl
@[simp] theorem State.adjFab_tasks : (s.adjFab f).tasks = s.tasks := rfl
@[simp] theorem State.adjFab_fences : (s.adjFab f).fences = s.fences := rfl
@[simp] theorem State.adjFab_exports : (s.adjFab f).exports = s.exports := rfl
@[simp] theorem State.adjFab_nextExport : (s.adjFab f).nextExport = s.nextExport := rfl
@[simp] theorem State.adjFab_watch : (s.adjFab f).watch = s.watch := rfl
@[simp] theorem State.adjFab_listed : (s.adjFab f).listed = s.listed := rfl
@[simp] theorem State.adjFab_sigs : (s.adjFab f).sigs = s.sigs := rfl
@[simp] theorem State.adjFab_marks : (s.adjFab f).marks = s.marks := rfl
@[simp] theorem State.adjFab_mirrors : (s.adjFab f).mirrors = s.mirrors := rfl
@[simp] theorem State.adjFab_hostOps : (s.adjFab f).hostOps = s.hostOps := rfl
@[simp] theorem State.adjFab_msgs : (s.adjFab f).msgs = s.msgs := rfl
@[simp] theorem State.adjFab_aborts : (s.adjFab f).aborts = s.aborts := rfl
@[simp] theorem State.adjFab_accepted : (s.adjFab f).accepted = s.accepted := rfl
@[simp] theorem State.adjFab_ran : (s.adjFab f).ran = s.ran := rfl
@[simp] theorem State.adjFab_once : (s.adjFab f).once = s.once := rfl
@[simp] theorem State.adjFab_latches : (s.adjFab f).latches = s.latches := rfl
@[simp] theorem State.adjFab_epoch : (s.adjFab f).epoch = s.epoch := rfl
@[simp] theorem State.adjFab_cop : (s.adjFab f).cop = s.cop := rfl
@[simp] theorem State.adjFab_tables : (s.adjFab f).tables = s.tables := rfl
@[simp] theorem State.adjFab_nextTable : (s.adjFab f).nextTable = s.nextTable := rfl
@[simp] theorem State.adjFab_marshal : (s.adjFab f).marshal = s.marshal := rfl
@[simp] theorem State.adjFab_pleach : (s.adjFab f).pleach = s.pleach := rfl
@[simp] theorem State.adjFab_later : (s.adjFab f).later = s.later := rfl
@[simp] theorem State.adjFab_svc : (s.adjFab f).svc = s.svc := rfl
@[simp] theorem State.adjFab_pwr : (s.adjFab f).pwr = s.pwr := rfl
@[simp] theorem State.adjFab_stop : (s.adjFab f).stop = s.stop := rfl
@[simp] theorem State.adjFab_flt : (s.adjFab f).flt = s.flt := rfl
@[simp] theorem State.adjFab_fw : (s.adjFab f).fw = s.fw := rfl
@[simp] theorem State.adjFab_bw : (s.adjFab f).bw = s.bw := rfl
@[simp] theorem State.adjFab_arb : (s.adjFab f).arb = s.arb := rfl
@[simp] theorem State.adjFab_ic : (s.adjFab f).ic = s.ic := rfl
@[simp] theorem State.adjFab_boot : (s.adjFab f).boot = s.boot := rfl
@[simp] theorem State.adjFab_shears : (s.adjFab f).shears = s.shears := rfl
@[simp] theorem State.adjFab_shownWarm : (s.adjFab f).shownWarm = s.shownWarm := rfl
@[simp] theorem State.adjFab_fenced : (s.adjFab f).fenced = s.fenced := rfl
@[simp] theorem State.adjFab_dispTable : (s.adjFab f).dispTable = s.dispTable := rfl
@[simp] theorem State.adjFab_pcnt : (s.adjFab f).pcnt = s.pcnt := rfl
@[simp] theorem State.adjFab_gcnt : (s.adjFab f).gcnt = s.gcnt := rfl
@[simp] theorem State.adjFab_epCopy : (s.adjFab f).epCopy = s.epCopy := rfl
@[simp] theorem State.adjFab_resetFtc : (s.adjFab f).resetFtc = s.resetFtc := rfl
@[simp] theorem State.adjFab_trace : (s.adjFab f).trace = s.trace := rfl
@[simp] theorem State.adjFab_tapIr : (s.adjFab f).tapIr = s.tapIr := rfl
end

section
variable (s : State) (f : Cal → Cal)
@[simp] theorem State.adjCal_pending : (s.adjCal f).pending = s.pending := rfl
@[simp] theorem State.adjCal_mem : (s.adjCal f).mem = s.mem := rfl
@[simp] theorem State.adjCal_stores : (s.adjCal f).stores = s.stores := rfl
@[simp] theorem State.adjCal_cleared : (s.adjCal f).cleared = s.cleared := rfl
@[simp] theorem State.adjCal_free : (s.adjCal f).free = s.free := rfl
@[simp] theorem State.adjCal_out : (s.adjCal f).out = s.out := rfl
@[simp] theorem State.adjCal_readData : (s.adjCal f).readData = s.readData := rfl
@[simp] theorem State.adjCal_cfg : (s.adjCal f).cfg = s.cfg := rfl
@[simp] theorem State.adjCal_fab : (s.adjCal f).fab = s.fab := rfl
@[simp] theorem State.adjCal_cal : (s.adjCal f).cal = f s.cal := rfl
@[simp] theorem State.adjCal_parts : (s.adjCal f).parts = s.parts := rfl
@[simp] theorem State.adjCal_ctxs : (s.adjCal f).ctxs = s.ctxs := rfl
@[simp] theorem State.adjCal_loads : (s.adjCal f).loads = s.loads := rfl
@[simp] theorem State.adjCal_transl : (s.adjCal f).transl = s.transl := rfl
@[simp] theorem State.adjCal_atsOn : (s.adjCal f).atsOn = s.atsOn := rfl
@[simp] theorem State.adjCal_objs : (s.adjCal f).objs = s.objs := rfl
@[simp] theorem State.adjCal_nextObj : (s.adjCal f).nextObj = s.nextObj := rfl
@[simp] theorem State.adjCal_rings : (s.adjCal f).rings = s.rings := rfl
@[simp] theorem State.adjCal_works : (s.adjCal f).works = s.works := rfl
@[simp] theorem State.adjCal_nextWork : (s.adjCal f).nextWork = s.nextWork := rfl
@[simp] theorem State.adjCal_launches : (s.adjCal f).launches = s.launches := rfl
@[simp] theorem State.adjCal_nextLaunch : (s.adjCal f).nextLaunch = s.nextLaunch := rfl
@[simp] theorem State.adjCal_graphs : (s.adjCal f).graphs = s.graphs := rfl
@[simp] theorem State.adjCal_nextGraph : (s.adjCal f).nextGraph = s.nextGraph := rfl
@[simp] theorem State.adjCal_nextBlock : (s.adjCal f).nextBlock = s.nextBlock := rfl
@[simp] theorem State.adjCal_imageReads : (s.adjCal f).imageReads = s.imageReads := rfl
@[simp] theorem State.adjCal_espWaits : (s.adjCal f).espWaits = s.espWaits := rfl
@[simp] theorem State.adjCal_eps : (s.adjCal f).eps = s.eps := rfl
@[simp] theorem State.adjCal_tasks : (s.adjCal f).tasks = s.tasks := rfl
@[simp] theorem State.adjCal_fences : (s.adjCal f).fences = s.fences := rfl
@[simp] theorem State.adjCal_exports : (s.adjCal f).exports = s.exports := rfl
@[simp] theorem State.adjCal_nextExport : (s.adjCal f).nextExport = s.nextExport := rfl
@[simp] theorem State.adjCal_watch : (s.adjCal f).watch = s.watch := rfl
@[simp] theorem State.adjCal_listed : (s.adjCal f).listed = s.listed := rfl
@[simp] theorem State.adjCal_sigs : (s.adjCal f).sigs = s.sigs := rfl
@[simp] theorem State.adjCal_marks : (s.adjCal f).marks = s.marks := rfl
@[simp] theorem State.adjCal_mirrors : (s.adjCal f).mirrors = s.mirrors := rfl
@[simp] theorem State.adjCal_hostOps : (s.adjCal f).hostOps = s.hostOps := rfl
@[simp] theorem State.adjCal_msgs : (s.adjCal f).msgs = s.msgs := rfl
@[simp] theorem State.adjCal_aborts : (s.adjCal f).aborts = s.aborts := rfl
@[simp] theorem State.adjCal_accepted : (s.adjCal f).accepted = s.accepted := rfl
@[simp] theorem State.adjCal_ran : (s.adjCal f).ran = s.ran := rfl
@[simp] theorem State.adjCal_once : (s.adjCal f).once = s.once := rfl
@[simp] theorem State.adjCal_latches : (s.adjCal f).latches = s.latches := rfl
@[simp] theorem State.adjCal_epoch : (s.adjCal f).epoch = s.epoch := rfl
@[simp] theorem State.adjCal_cop : (s.adjCal f).cop = s.cop := rfl
@[simp] theorem State.adjCal_tables : (s.adjCal f).tables = s.tables := rfl
@[simp] theorem State.adjCal_nextTable : (s.adjCal f).nextTable = s.nextTable := rfl
@[simp] theorem State.adjCal_marshal : (s.adjCal f).marshal = s.marshal := rfl
@[simp] theorem State.adjCal_pleach : (s.adjCal f).pleach = s.pleach := rfl
@[simp] theorem State.adjCal_later : (s.adjCal f).later = s.later := rfl
@[simp] theorem State.adjCal_svc : (s.adjCal f).svc = s.svc := rfl
@[simp] theorem State.adjCal_pwr : (s.adjCal f).pwr = s.pwr := rfl
@[simp] theorem State.adjCal_stop : (s.adjCal f).stop = s.stop := rfl
@[simp] theorem State.adjCal_flt : (s.adjCal f).flt = s.flt := rfl
@[simp] theorem State.adjCal_fw : (s.adjCal f).fw = s.fw := rfl
@[simp] theorem State.adjCal_bw : (s.adjCal f).bw = s.bw := rfl
@[simp] theorem State.adjCal_arb : (s.adjCal f).arb = s.arb := rfl
@[simp] theorem State.adjCal_ic : (s.adjCal f).ic = s.ic := rfl
@[simp] theorem State.adjCal_boot : (s.adjCal f).boot = s.boot := rfl
@[simp] theorem State.adjCal_shears : (s.adjCal f).shears = s.shears := rfl
@[simp] theorem State.adjCal_shownWarm : (s.adjCal f).shownWarm = s.shownWarm := rfl
@[simp] theorem State.adjCal_fenced : (s.adjCal f).fenced = s.fenced := rfl
@[simp] theorem State.adjCal_dispTable : (s.adjCal f).dispTable = s.dispTable := rfl
@[simp] theorem State.adjCal_pcnt : (s.adjCal f).pcnt = s.pcnt := rfl
@[simp] theorem State.adjCal_gcnt : (s.adjCal f).gcnt = s.gcnt := rfl
@[simp] theorem State.adjCal_epCopy : (s.adjCal f).epCopy = s.epCopy := rfl
@[simp] theorem State.adjCal_resetFtc : (s.adjCal f).resetFtc = s.resetFtc := rfl
@[simp] theorem State.adjCal_trace : (s.adjCal f).trace = s.trace := rfl
@[simp] theorem State.adjCal_tapIr : (s.adjCal f).tapIr = s.tapIr := rfl
end

section
variable (s : State) (f : Stop → Stop)
@[simp] theorem State.adjStop_pending : (s.adjStop f).pending = s.pending := rfl
@[simp] theorem State.adjStop_mem : (s.adjStop f).mem = s.mem := rfl
@[simp] theorem State.adjStop_stores : (s.adjStop f).stores = s.stores := rfl
@[simp] theorem State.adjStop_cleared : (s.adjStop f).cleared = s.cleared := rfl
@[simp] theorem State.adjStop_free : (s.adjStop f).free = s.free := rfl
@[simp] theorem State.adjStop_out : (s.adjStop f).out = s.out := rfl
@[simp] theorem State.adjStop_readData : (s.adjStop f).readData = s.readData := rfl
@[simp] theorem State.adjStop_cfg : (s.adjStop f).cfg = s.cfg := rfl
@[simp] theorem State.adjStop_fab : (s.adjStop f).fab = s.fab := rfl
@[simp] theorem State.adjStop_cal : (s.adjStop f).cal = s.cal := rfl
@[simp] theorem State.adjStop_parts : (s.adjStop f).parts = s.parts := rfl
@[simp] theorem State.adjStop_ctxs : (s.adjStop f).ctxs = s.ctxs := rfl
@[simp] theorem State.adjStop_loads : (s.adjStop f).loads = s.loads := rfl
@[simp] theorem State.adjStop_transl : (s.adjStop f).transl = s.transl := rfl
@[simp] theorem State.adjStop_atsOn : (s.adjStop f).atsOn = s.atsOn := rfl
@[simp] theorem State.adjStop_objs : (s.adjStop f).objs = s.objs := rfl
@[simp] theorem State.adjStop_nextObj : (s.adjStop f).nextObj = s.nextObj := rfl
@[simp] theorem State.adjStop_rings : (s.adjStop f).rings = s.rings := rfl
@[simp] theorem State.adjStop_works : (s.adjStop f).works = s.works := rfl
@[simp] theorem State.adjStop_nextWork : (s.adjStop f).nextWork = s.nextWork := rfl
@[simp] theorem State.adjStop_launches : (s.adjStop f).launches = s.launches := rfl
@[simp] theorem State.adjStop_nextLaunch : (s.adjStop f).nextLaunch = s.nextLaunch := rfl
@[simp] theorem State.adjStop_graphs : (s.adjStop f).graphs = s.graphs := rfl
@[simp] theorem State.adjStop_nextGraph : (s.adjStop f).nextGraph = s.nextGraph := rfl
@[simp] theorem State.adjStop_nextBlock : (s.adjStop f).nextBlock = s.nextBlock := rfl
@[simp] theorem State.adjStop_imageReads : (s.adjStop f).imageReads = s.imageReads := rfl
@[simp] theorem State.adjStop_espWaits : (s.adjStop f).espWaits = s.espWaits := rfl
@[simp] theorem State.adjStop_eps : (s.adjStop f).eps = s.eps := rfl
@[simp] theorem State.adjStop_tasks : (s.adjStop f).tasks = s.tasks := rfl
@[simp] theorem State.adjStop_fences : (s.adjStop f).fences = s.fences := rfl
@[simp] theorem State.adjStop_exports : (s.adjStop f).exports = s.exports := rfl
@[simp] theorem State.adjStop_nextExport : (s.adjStop f).nextExport = s.nextExport := rfl
@[simp] theorem State.adjStop_watch : (s.adjStop f).watch = s.watch := rfl
@[simp] theorem State.adjStop_listed : (s.adjStop f).listed = s.listed := rfl
@[simp] theorem State.adjStop_sigs : (s.adjStop f).sigs = s.sigs := rfl
@[simp] theorem State.adjStop_marks : (s.adjStop f).marks = s.marks := rfl
@[simp] theorem State.adjStop_mirrors : (s.adjStop f).mirrors = s.mirrors := rfl
@[simp] theorem State.adjStop_hostOps : (s.adjStop f).hostOps = s.hostOps := rfl
@[simp] theorem State.adjStop_msgs : (s.adjStop f).msgs = s.msgs := rfl
@[simp] theorem State.adjStop_aborts : (s.adjStop f).aborts = s.aborts := rfl
@[simp] theorem State.adjStop_accepted : (s.adjStop f).accepted = s.accepted := rfl
@[simp] theorem State.adjStop_ran : (s.adjStop f).ran = s.ran := rfl
@[simp] theorem State.adjStop_once : (s.adjStop f).once = s.once := rfl
@[simp] theorem State.adjStop_latches : (s.adjStop f).latches = s.latches := rfl
@[simp] theorem State.adjStop_epoch : (s.adjStop f).epoch = s.epoch := rfl
@[simp] theorem State.adjStop_cop : (s.adjStop f).cop = s.cop := rfl
@[simp] theorem State.adjStop_tables : (s.adjStop f).tables = s.tables := rfl
@[simp] theorem State.adjStop_nextTable : (s.adjStop f).nextTable = s.nextTable := rfl
@[simp] theorem State.adjStop_marshal : (s.adjStop f).marshal = s.marshal := rfl
@[simp] theorem State.adjStop_pleach : (s.adjStop f).pleach = s.pleach := rfl
@[simp] theorem State.adjStop_later : (s.adjStop f).later = s.later := rfl
@[simp] theorem State.adjStop_svc : (s.adjStop f).svc = s.svc := rfl
@[simp] theorem State.adjStop_pwr : (s.adjStop f).pwr = s.pwr := rfl
@[simp] theorem State.adjStop_stop : (s.adjStop f).stop = f s.stop := rfl
@[simp] theorem State.adjStop_flt : (s.adjStop f).flt = s.flt := rfl
@[simp] theorem State.adjStop_fw : (s.adjStop f).fw = s.fw := rfl
@[simp] theorem State.adjStop_bw : (s.adjStop f).bw = s.bw := rfl
@[simp] theorem State.adjStop_arb : (s.adjStop f).arb = s.arb := rfl
@[simp] theorem State.adjStop_ic : (s.adjStop f).ic = s.ic := rfl
@[simp] theorem State.adjStop_boot : (s.adjStop f).boot = s.boot := rfl
@[simp] theorem State.adjStop_shears : (s.adjStop f).shears = s.shears := rfl
@[simp] theorem State.adjStop_shownWarm : (s.adjStop f).shownWarm = s.shownWarm := rfl
@[simp] theorem State.adjStop_fenced : (s.adjStop f).fenced = s.fenced := rfl
@[simp] theorem State.adjStop_dispTable : (s.adjStop f).dispTable = s.dispTable := rfl
@[simp] theorem State.adjStop_pcnt : (s.adjStop f).pcnt = s.pcnt := rfl
@[simp] theorem State.adjStop_gcnt : (s.adjStop f).gcnt = s.gcnt := rfl
@[simp] theorem State.adjStop_epCopy : (s.adjStop f).epCopy = s.epCopy := rfl
@[simp] theorem State.adjStop_resetFtc : (s.adjStop f).resetFtc = s.resetFtc := rfl
@[simp] theorem State.adjStop_trace : (s.adjStop f).trace = s.trace := rfl
@[simp] theorem State.adjStop_tapIr : (s.adjStop f).tapIr = s.tapIr := rfl
end

section
variable (s : State) (f : Faults → Faults)
@[simp] theorem State.adjFlt_pending : (s.adjFlt f).pending = s.pending := rfl
@[simp] theorem State.adjFlt_mem : (s.adjFlt f).mem = s.mem := rfl
@[simp] theorem State.adjFlt_stores : (s.adjFlt f).stores = s.stores := rfl
@[simp] theorem State.adjFlt_cleared : (s.adjFlt f).cleared = s.cleared := rfl
@[simp] theorem State.adjFlt_free : (s.adjFlt f).free = s.free := rfl
@[simp] theorem State.adjFlt_out : (s.adjFlt f).out = s.out := rfl
@[simp] theorem State.adjFlt_readData : (s.adjFlt f).readData = s.readData := rfl
@[simp] theorem State.adjFlt_cfg : (s.adjFlt f).cfg = s.cfg := rfl
@[simp] theorem State.adjFlt_fab : (s.adjFlt f).fab = s.fab := rfl
@[simp] theorem State.adjFlt_cal : (s.adjFlt f).cal = s.cal := rfl
@[simp] theorem State.adjFlt_parts : (s.adjFlt f).parts = s.parts := rfl
@[simp] theorem State.adjFlt_ctxs : (s.adjFlt f).ctxs = s.ctxs := rfl
@[simp] theorem State.adjFlt_loads : (s.adjFlt f).loads = s.loads := rfl
@[simp] theorem State.adjFlt_transl : (s.adjFlt f).transl = s.transl := rfl
@[simp] theorem State.adjFlt_atsOn : (s.adjFlt f).atsOn = s.atsOn := rfl
@[simp] theorem State.adjFlt_objs : (s.adjFlt f).objs = s.objs := rfl
@[simp] theorem State.adjFlt_nextObj : (s.adjFlt f).nextObj = s.nextObj := rfl
@[simp] theorem State.adjFlt_rings : (s.adjFlt f).rings = s.rings := rfl
@[simp] theorem State.adjFlt_works : (s.adjFlt f).works = s.works := rfl
@[simp] theorem State.adjFlt_nextWork : (s.adjFlt f).nextWork = s.nextWork := rfl
@[simp] theorem State.adjFlt_launches : (s.adjFlt f).launches = s.launches := rfl
@[simp] theorem State.adjFlt_nextLaunch : (s.adjFlt f).nextLaunch = s.nextLaunch := rfl
@[simp] theorem State.adjFlt_graphs : (s.adjFlt f).graphs = s.graphs := rfl
@[simp] theorem State.adjFlt_nextGraph : (s.adjFlt f).nextGraph = s.nextGraph := rfl
@[simp] theorem State.adjFlt_nextBlock : (s.adjFlt f).nextBlock = s.nextBlock := rfl
@[simp] theorem State.adjFlt_imageReads : (s.adjFlt f).imageReads = s.imageReads := rfl
@[simp] theorem State.adjFlt_espWaits : (s.adjFlt f).espWaits = s.espWaits := rfl
@[simp] theorem State.adjFlt_eps : (s.adjFlt f).eps = s.eps := rfl
@[simp] theorem State.adjFlt_tasks : (s.adjFlt f).tasks = s.tasks := rfl
@[simp] theorem State.adjFlt_fences : (s.adjFlt f).fences = s.fences := rfl
@[simp] theorem State.adjFlt_exports : (s.adjFlt f).exports = s.exports := rfl
@[simp] theorem State.adjFlt_nextExport : (s.adjFlt f).nextExport = s.nextExport := rfl
@[simp] theorem State.adjFlt_watch : (s.adjFlt f).watch = s.watch := rfl
@[simp] theorem State.adjFlt_listed : (s.adjFlt f).listed = s.listed := rfl
@[simp] theorem State.adjFlt_sigs : (s.adjFlt f).sigs = s.sigs := rfl
@[simp] theorem State.adjFlt_marks : (s.adjFlt f).marks = s.marks := rfl
@[simp] theorem State.adjFlt_mirrors : (s.adjFlt f).mirrors = s.mirrors := rfl
@[simp] theorem State.adjFlt_hostOps : (s.adjFlt f).hostOps = s.hostOps := rfl
@[simp] theorem State.adjFlt_msgs : (s.adjFlt f).msgs = s.msgs := rfl
@[simp] theorem State.adjFlt_aborts : (s.adjFlt f).aborts = s.aborts := rfl
@[simp] theorem State.adjFlt_accepted : (s.adjFlt f).accepted = s.accepted := rfl
@[simp] theorem State.adjFlt_ran : (s.adjFlt f).ran = s.ran := rfl
@[simp] theorem State.adjFlt_once : (s.adjFlt f).once = s.once := rfl
@[simp] theorem State.adjFlt_latches : (s.adjFlt f).latches = s.latches := rfl
@[simp] theorem State.adjFlt_epoch : (s.adjFlt f).epoch = s.epoch := rfl
@[simp] theorem State.adjFlt_cop : (s.adjFlt f).cop = s.cop := rfl
@[simp] theorem State.adjFlt_tables : (s.adjFlt f).tables = s.tables := rfl
@[simp] theorem State.adjFlt_nextTable : (s.adjFlt f).nextTable = s.nextTable := rfl
@[simp] theorem State.adjFlt_marshal : (s.adjFlt f).marshal = s.marshal := rfl
@[simp] theorem State.adjFlt_pleach : (s.adjFlt f).pleach = s.pleach := rfl
@[simp] theorem State.adjFlt_later : (s.adjFlt f).later = s.later := rfl
@[simp] theorem State.adjFlt_svc : (s.adjFlt f).svc = s.svc := rfl
@[simp] theorem State.adjFlt_pwr : (s.adjFlt f).pwr = s.pwr := rfl
@[simp] theorem State.adjFlt_stop : (s.adjFlt f).stop = s.stop := rfl
@[simp] theorem State.adjFlt_flt : (s.adjFlt f).flt = f s.flt := rfl
@[simp] theorem State.adjFlt_fw : (s.adjFlt f).fw = s.fw := rfl
@[simp] theorem State.adjFlt_bw : (s.adjFlt f).bw = s.bw := rfl
@[simp] theorem State.adjFlt_arb : (s.adjFlt f).arb = s.arb := rfl
@[simp] theorem State.adjFlt_ic : (s.adjFlt f).ic = s.ic := rfl
@[simp] theorem State.adjFlt_boot : (s.adjFlt f).boot = s.boot := rfl
@[simp] theorem State.adjFlt_shears : (s.adjFlt f).shears = s.shears := rfl
@[simp] theorem State.adjFlt_shownWarm : (s.adjFlt f).shownWarm = s.shownWarm := rfl
@[simp] theorem State.adjFlt_fenced : (s.adjFlt f).fenced = s.fenced := rfl
@[simp] theorem State.adjFlt_dispTable : (s.adjFlt f).dispTable = s.dispTable := rfl
@[simp] theorem State.adjFlt_pcnt : (s.adjFlt f).pcnt = s.pcnt := rfl
@[simp] theorem State.adjFlt_gcnt : (s.adjFlt f).gcnt = s.gcnt := rfl
@[simp] theorem State.adjFlt_epCopy : (s.adjFlt f).epCopy = s.epCopy := rfl
@[simp] theorem State.adjFlt_resetFtc : (s.adjFlt f).resetFtc = s.resetFtc := rfl
@[simp] theorem State.adjFlt_trace : (s.adjFlt f).trace = s.trace := rfl
@[simp] theorem State.adjFlt_tapIr : (s.adjFlt f).tapIr = s.tapIr := rfl
end

section
variable (s : State) (f : Fw → Fw)
@[simp] theorem State.adjFw_pending : (s.adjFw f).pending = s.pending := rfl
@[simp] theorem State.adjFw_mem : (s.adjFw f).mem = s.mem := rfl
@[simp] theorem State.adjFw_stores : (s.adjFw f).stores = s.stores := rfl
@[simp] theorem State.adjFw_cleared : (s.adjFw f).cleared = s.cleared := rfl
@[simp] theorem State.adjFw_free : (s.adjFw f).free = s.free := rfl
@[simp] theorem State.adjFw_out : (s.adjFw f).out = s.out := rfl
@[simp] theorem State.adjFw_readData : (s.adjFw f).readData = s.readData := rfl
@[simp] theorem State.adjFw_cfg : (s.adjFw f).cfg = s.cfg := rfl
@[simp] theorem State.adjFw_fab : (s.adjFw f).fab = s.fab := rfl
@[simp] theorem State.adjFw_cal : (s.adjFw f).cal = s.cal := rfl
@[simp] theorem State.adjFw_parts : (s.adjFw f).parts = s.parts := rfl
@[simp] theorem State.adjFw_ctxs : (s.adjFw f).ctxs = s.ctxs := rfl
@[simp] theorem State.adjFw_loads : (s.adjFw f).loads = s.loads := rfl
@[simp] theorem State.adjFw_transl : (s.adjFw f).transl = s.transl := rfl
@[simp] theorem State.adjFw_atsOn : (s.adjFw f).atsOn = s.atsOn := rfl
@[simp] theorem State.adjFw_objs : (s.adjFw f).objs = s.objs := rfl
@[simp] theorem State.adjFw_nextObj : (s.adjFw f).nextObj = s.nextObj := rfl
@[simp] theorem State.adjFw_rings : (s.adjFw f).rings = s.rings := rfl
@[simp] theorem State.adjFw_works : (s.adjFw f).works = s.works := rfl
@[simp] theorem State.adjFw_nextWork : (s.adjFw f).nextWork = s.nextWork := rfl
@[simp] theorem State.adjFw_launches : (s.adjFw f).launches = s.launches := rfl
@[simp] theorem State.adjFw_nextLaunch : (s.adjFw f).nextLaunch = s.nextLaunch := rfl
@[simp] theorem State.adjFw_graphs : (s.adjFw f).graphs = s.graphs := rfl
@[simp] theorem State.adjFw_nextGraph : (s.adjFw f).nextGraph = s.nextGraph := rfl
@[simp] theorem State.adjFw_nextBlock : (s.adjFw f).nextBlock = s.nextBlock := rfl
@[simp] theorem State.adjFw_imageReads : (s.adjFw f).imageReads = s.imageReads := rfl
@[simp] theorem State.adjFw_espWaits : (s.adjFw f).espWaits = s.espWaits := rfl
@[simp] theorem State.adjFw_eps : (s.adjFw f).eps = s.eps := rfl
@[simp] theorem State.adjFw_tasks : (s.adjFw f).tasks = s.tasks := rfl
@[simp] theorem State.adjFw_fences : (s.adjFw f).fences = s.fences := rfl
@[simp] theorem State.adjFw_exports : (s.adjFw f).exports = s.exports := rfl
@[simp] theorem State.adjFw_nextExport : (s.adjFw f).nextExport = s.nextExport := rfl
@[simp] theorem State.adjFw_watch : (s.adjFw f).watch = s.watch := rfl
@[simp] theorem State.adjFw_listed : (s.adjFw f).listed = s.listed := rfl
@[simp] theorem State.adjFw_sigs : (s.adjFw f).sigs = s.sigs := rfl
@[simp] theorem State.adjFw_marks : (s.adjFw f).marks = s.marks := rfl
@[simp] theorem State.adjFw_mirrors : (s.adjFw f).mirrors = s.mirrors := rfl
@[simp] theorem State.adjFw_hostOps : (s.adjFw f).hostOps = s.hostOps := rfl
@[simp] theorem State.adjFw_msgs : (s.adjFw f).msgs = s.msgs := rfl
@[simp] theorem State.adjFw_aborts : (s.adjFw f).aborts = s.aborts := rfl
@[simp] theorem State.adjFw_accepted : (s.adjFw f).accepted = s.accepted := rfl
@[simp] theorem State.adjFw_ran : (s.adjFw f).ran = s.ran := rfl
@[simp] theorem State.adjFw_once : (s.adjFw f).once = s.once := rfl
@[simp] theorem State.adjFw_latches : (s.adjFw f).latches = s.latches := rfl
@[simp] theorem State.adjFw_epoch : (s.adjFw f).epoch = s.epoch := rfl
@[simp] theorem State.adjFw_cop : (s.adjFw f).cop = s.cop := rfl
@[simp] theorem State.adjFw_tables : (s.adjFw f).tables = s.tables := rfl
@[simp] theorem State.adjFw_nextTable : (s.adjFw f).nextTable = s.nextTable := rfl
@[simp] theorem State.adjFw_marshal : (s.adjFw f).marshal = s.marshal := rfl
@[simp] theorem State.adjFw_pleach : (s.adjFw f).pleach = s.pleach := rfl
@[simp] theorem State.adjFw_later : (s.adjFw f).later = s.later := rfl
@[simp] theorem State.adjFw_svc : (s.adjFw f).svc = s.svc := rfl
@[simp] theorem State.adjFw_pwr : (s.adjFw f).pwr = s.pwr := rfl
@[simp] theorem State.adjFw_stop : (s.adjFw f).stop = s.stop := rfl
@[simp] theorem State.adjFw_flt : (s.adjFw f).flt = s.flt := rfl
@[simp] theorem State.adjFw_fw : (s.adjFw f).fw = f s.fw := rfl
@[simp] theorem State.adjFw_bw : (s.adjFw f).bw = s.bw := rfl
@[simp] theorem State.adjFw_arb : (s.adjFw f).arb = s.arb := rfl
@[simp] theorem State.adjFw_ic : (s.adjFw f).ic = s.ic := rfl
@[simp] theorem State.adjFw_boot : (s.adjFw f).boot = s.boot := rfl
@[simp] theorem State.adjFw_shears : (s.adjFw f).shears = s.shears := rfl
@[simp] theorem State.adjFw_shownWarm : (s.adjFw f).shownWarm = s.shownWarm := rfl
@[simp] theorem State.adjFw_fenced : (s.adjFw f).fenced = s.fenced := rfl
@[simp] theorem State.adjFw_dispTable : (s.adjFw f).dispTable = s.dispTable := rfl
@[simp] theorem State.adjFw_pcnt : (s.adjFw f).pcnt = s.pcnt := rfl
@[simp] theorem State.adjFw_gcnt : (s.adjFw f).gcnt = s.gcnt := rfl
@[simp] theorem State.adjFw_epCopy : (s.adjFw f).epCopy = s.epCopy := rfl
@[simp] theorem State.adjFw_resetFtc : (s.adjFw f).resetFtc = s.resetFtc := rfl
@[simp] theorem State.adjFw_trace : (s.adjFw f).trace = s.trace := rfl
@[simp] theorem State.adjFw_tapIr : (s.adjFw f).tapIr = s.tapIr := rfl
end

section
variable (s : State) (f : Boxwood → Boxwood)
@[simp] theorem State.adjBw_pending : (s.adjBw f).pending = s.pending := rfl
@[simp] theorem State.adjBw_mem : (s.adjBw f).mem = s.mem := rfl
@[simp] theorem State.adjBw_stores : (s.adjBw f).stores = s.stores := rfl
@[simp] theorem State.adjBw_cleared : (s.adjBw f).cleared = s.cleared := rfl
@[simp] theorem State.adjBw_free : (s.adjBw f).free = s.free := rfl
@[simp] theorem State.adjBw_out : (s.adjBw f).out = s.out := rfl
@[simp] theorem State.adjBw_readData : (s.adjBw f).readData = s.readData := rfl
@[simp] theorem State.adjBw_cfg : (s.adjBw f).cfg = s.cfg := rfl
@[simp] theorem State.adjBw_fab : (s.adjBw f).fab = s.fab := rfl
@[simp] theorem State.adjBw_cal : (s.adjBw f).cal = s.cal := rfl
@[simp] theorem State.adjBw_parts : (s.adjBw f).parts = s.parts := rfl
@[simp] theorem State.adjBw_ctxs : (s.adjBw f).ctxs = s.ctxs := rfl
@[simp] theorem State.adjBw_loads : (s.adjBw f).loads = s.loads := rfl
@[simp] theorem State.adjBw_transl : (s.adjBw f).transl = s.transl := rfl
@[simp] theorem State.adjBw_atsOn : (s.adjBw f).atsOn = s.atsOn := rfl
@[simp] theorem State.adjBw_objs : (s.adjBw f).objs = s.objs := rfl
@[simp] theorem State.adjBw_nextObj : (s.adjBw f).nextObj = s.nextObj := rfl
@[simp] theorem State.adjBw_rings : (s.adjBw f).rings = s.rings := rfl
@[simp] theorem State.adjBw_works : (s.adjBw f).works = s.works := rfl
@[simp] theorem State.adjBw_nextWork : (s.adjBw f).nextWork = s.nextWork := rfl
@[simp] theorem State.adjBw_launches : (s.adjBw f).launches = s.launches := rfl
@[simp] theorem State.adjBw_nextLaunch : (s.adjBw f).nextLaunch = s.nextLaunch := rfl
@[simp] theorem State.adjBw_graphs : (s.adjBw f).graphs = s.graphs := rfl
@[simp] theorem State.adjBw_nextGraph : (s.adjBw f).nextGraph = s.nextGraph := rfl
@[simp] theorem State.adjBw_nextBlock : (s.adjBw f).nextBlock = s.nextBlock := rfl
@[simp] theorem State.adjBw_imageReads : (s.adjBw f).imageReads = s.imageReads := rfl
@[simp] theorem State.adjBw_espWaits : (s.adjBw f).espWaits = s.espWaits := rfl
@[simp] theorem State.adjBw_eps : (s.adjBw f).eps = s.eps := rfl
@[simp] theorem State.adjBw_tasks : (s.adjBw f).tasks = s.tasks := rfl
@[simp] theorem State.adjBw_fences : (s.adjBw f).fences = s.fences := rfl
@[simp] theorem State.adjBw_exports : (s.adjBw f).exports = s.exports := rfl
@[simp] theorem State.adjBw_nextExport : (s.adjBw f).nextExport = s.nextExport := rfl
@[simp] theorem State.adjBw_watch : (s.adjBw f).watch = s.watch := rfl
@[simp] theorem State.adjBw_listed : (s.adjBw f).listed = s.listed := rfl
@[simp] theorem State.adjBw_sigs : (s.adjBw f).sigs = s.sigs := rfl
@[simp] theorem State.adjBw_marks : (s.adjBw f).marks = s.marks := rfl
@[simp] theorem State.adjBw_mirrors : (s.adjBw f).mirrors = s.mirrors := rfl
@[simp] theorem State.adjBw_hostOps : (s.adjBw f).hostOps = s.hostOps := rfl
@[simp] theorem State.adjBw_msgs : (s.adjBw f).msgs = s.msgs := rfl
@[simp] theorem State.adjBw_aborts : (s.adjBw f).aborts = s.aborts := rfl
@[simp] theorem State.adjBw_accepted : (s.adjBw f).accepted = s.accepted := rfl
@[simp] theorem State.adjBw_ran : (s.adjBw f).ran = s.ran := rfl
@[simp] theorem State.adjBw_once : (s.adjBw f).once = s.once := rfl
@[simp] theorem State.adjBw_latches : (s.adjBw f).latches = s.latches := rfl
@[simp] theorem State.adjBw_epoch : (s.adjBw f).epoch = s.epoch := rfl
@[simp] theorem State.adjBw_cop : (s.adjBw f).cop = s.cop := rfl
@[simp] theorem State.adjBw_tables : (s.adjBw f).tables = s.tables := rfl
@[simp] theorem State.adjBw_nextTable : (s.adjBw f).nextTable = s.nextTable := rfl
@[simp] theorem State.adjBw_marshal : (s.adjBw f).marshal = s.marshal := rfl
@[simp] theorem State.adjBw_pleach : (s.adjBw f).pleach = s.pleach := rfl
@[simp] theorem State.adjBw_later : (s.adjBw f).later = s.later := rfl
@[simp] theorem State.adjBw_svc : (s.adjBw f).svc = s.svc := rfl
@[simp] theorem State.adjBw_pwr : (s.adjBw f).pwr = s.pwr := rfl
@[simp] theorem State.adjBw_stop : (s.adjBw f).stop = s.stop := rfl
@[simp] theorem State.adjBw_flt : (s.adjBw f).flt = s.flt := rfl
@[simp] theorem State.adjBw_fw : (s.adjBw f).fw = s.fw := rfl
@[simp] theorem State.adjBw_bw : (s.adjBw f).bw = f s.bw := rfl
@[simp] theorem State.adjBw_arb : (s.adjBw f).arb = s.arb := rfl
@[simp] theorem State.adjBw_ic : (s.adjBw f).ic = s.ic := rfl
@[simp] theorem State.adjBw_boot : (s.adjBw f).boot = s.boot := rfl
@[simp] theorem State.adjBw_shears : (s.adjBw f).shears = s.shears := rfl
@[simp] theorem State.adjBw_shownWarm : (s.adjBw f).shownWarm = s.shownWarm := rfl
@[simp] theorem State.adjBw_fenced : (s.adjBw f).fenced = s.fenced := rfl
@[simp] theorem State.adjBw_dispTable : (s.adjBw f).dispTable = s.dispTable := rfl
@[simp] theorem State.adjBw_pcnt : (s.adjBw f).pcnt = s.pcnt := rfl
@[simp] theorem State.adjBw_gcnt : (s.adjBw f).gcnt = s.gcnt := rfl
@[simp] theorem State.adjBw_epCopy : (s.adjBw f).epCopy = s.epCopy := rfl
@[simp] theorem State.adjBw_resetFtc : (s.adjBw f).resetFtc = s.resetFtc := rfl
@[simp] theorem State.adjBw_trace : (s.adjBw f).trace = s.trace := rfl
@[simp] theorem State.adjBw_tapIr : (s.adjBw f).tapIr = s.tapIr := rfl
end

section
variable (s : State) (f : Svc → Svc)
@[simp] theorem State.adjSvc_pending : (s.adjSvc f).pending = s.pending := rfl
@[simp] theorem State.adjSvc_mem : (s.adjSvc f).mem = s.mem := rfl
@[simp] theorem State.adjSvc_stores : (s.adjSvc f).stores = s.stores := rfl
@[simp] theorem State.adjSvc_cleared : (s.adjSvc f).cleared = s.cleared := rfl
@[simp] theorem State.adjSvc_free : (s.adjSvc f).free = s.free := rfl
@[simp] theorem State.adjSvc_out : (s.adjSvc f).out = s.out := rfl
@[simp] theorem State.adjSvc_readData : (s.adjSvc f).readData = s.readData := rfl
@[simp] theorem State.adjSvc_cfg : (s.adjSvc f).cfg = s.cfg := rfl
@[simp] theorem State.adjSvc_fab : (s.adjSvc f).fab = s.fab := rfl
@[simp] theorem State.adjSvc_cal : (s.adjSvc f).cal = s.cal := rfl
@[simp] theorem State.adjSvc_parts : (s.adjSvc f).parts = s.parts := rfl
@[simp] theorem State.adjSvc_ctxs : (s.adjSvc f).ctxs = s.ctxs := rfl
@[simp] theorem State.adjSvc_loads : (s.adjSvc f).loads = s.loads := rfl
@[simp] theorem State.adjSvc_transl : (s.adjSvc f).transl = s.transl := rfl
@[simp] theorem State.adjSvc_atsOn : (s.adjSvc f).atsOn = s.atsOn := rfl
@[simp] theorem State.adjSvc_objs : (s.adjSvc f).objs = s.objs := rfl
@[simp] theorem State.adjSvc_nextObj : (s.adjSvc f).nextObj = s.nextObj := rfl
@[simp] theorem State.adjSvc_rings : (s.adjSvc f).rings = s.rings := rfl
@[simp] theorem State.adjSvc_works : (s.adjSvc f).works = s.works := rfl
@[simp] theorem State.adjSvc_nextWork : (s.adjSvc f).nextWork = s.nextWork := rfl
@[simp] theorem State.adjSvc_launches : (s.adjSvc f).launches = s.launches := rfl
@[simp] theorem State.adjSvc_nextLaunch : (s.adjSvc f).nextLaunch = s.nextLaunch := rfl
@[simp] theorem State.adjSvc_graphs : (s.adjSvc f).graphs = s.graphs := rfl
@[simp] theorem State.adjSvc_nextGraph : (s.adjSvc f).nextGraph = s.nextGraph := rfl
@[simp] theorem State.adjSvc_nextBlock : (s.adjSvc f).nextBlock = s.nextBlock := rfl
@[simp] theorem State.adjSvc_imageReads : (s.adjSvc f).imageReads = s.imageReads := rfl
@[simp] theorem State.adjSvc_espWaits : (s.adjSvc f).espWaits = s.espWaits := rfl
@[simp] theorem State.adjSvc_eps : (s.adjSvc f).eps = s.eps := rfl
@[simp] theorem State.adjSvc_tasks : (s.adjSvc f).tasks = s.tasks := rfl
@[simp] theorem State.adjSvc_fences : (s.adjSvc f).fences = s.fences := rfl
@[simp] theorem State.adjSvc_exports : (s.adjSvc f).exports = s.exports := rfl
@[simp] theorem State.adjSvc_nextExport : (s.adjSvc f).nextExport = s.nextExport := rfl
@[simp] theorem State.adjSvc_watch : (s.adjSvc f).watch = s.watch := rfl
@[simp] theorem State.adjSvc_listed : (s.adjSvc f).listed = s.listed := rfl
@[simp] theorem State.adjSvc_sigs : (s.adjSvc f).sigs = s.sigs := rfl
@[simp] theorem State.adjSvc_marks : (s.adjSvc f).marks = s.marks := rfl
@[simp] theorem State.adjSvc_mirrors : (s.adjSvc f).mirrors = s.mirrors := rfl
@[simp] theorem State.adjSvc_hostOps : (s.adjSvc f).hostOps = s.hostOps := rfl
@[simp] theorem State.adjSvc_msgs : (s.adjSvc f).msgs = s.msgs := rfl
@[simp] theorem State.adjSvc_aborts : (s.adjSvc f).aborts = s.aborts := rfl
@[simp] theorem State.adjSvc_accepted : (s.adjSvc f).accepted = s.accepted := rfl
@[simp] theorem State.adjSvc_ran : (s.adjSvc f).ran = s.ran := rfl
@[simp] theorem State.adjSvc_once : (s.adjSvc f).once = s.once := rfl
@[simp] theorem State.adjSvc_latches : (s.adjSvc f).latches = s.latches := rfl
@[simp] theorem State.adjSvc_epoch : (s.adjSvc f).epoch = s.epoch := rfl
@[simp] theorem State.adjSvc_cop : (s.adjSvc f).cop = s.cop := rfl
@[simp] theorem State.adjSvc_tables : (s.adjSvc f).tables = s.tables := rfl
@[simp] theorem State.adjSvc_nextTable : (s.adjSvc f).nextTable = s.nextTable := rfl
@[simp] theorem State.adjSvc_marshal : (s.adjSvc f).marshal = s.marshal := rfl
@[simp] theorem State.adjSvc_pleach : (s.adjSvc f).pleach = s.pleach := rfl
@[simp] theorem State.adjSvc_later : (s.adjSvc f).later = s.later := rfl
@[simp] theorem State.adjSvc_svc : (s.adjSvc f).svc = f s.svc := rfl
@[simp] theorem State.adjSvc_pwr : (s.adjSvc f).pwr = s.pwr := rfl
@[simp] theorem State.adjSvc_stop : (s.adjSvc f).stop = s.stop := rfl
@[simp] theorem State.adjSvc_flt : (s.adjSvc f).flt = s.flt := rfl
@[simp] theorem State.adjSvc_fw : (s.adjSvc f).fw = s.fw := rfl
@[simp] theorem State.adjSvc_bw : (s.adjSvc f).bw = s.bw := rfl
@[simp] theorem State.adjSvc_arb : (s.adjSvc f).arb = s.arb := rfl
@[simp] theorem State.adjSvc_ic : (s.adjSvc f).ic = s.ic := rfl
@[simp] theorem State.adjSvc_boot : (s.adjSvc f).boot = s.boot := rfl
@[simp] theorem State.adjSvc_shears : (s.adjSvc f).shears = s.shears := rfl
@[simp] theorem State.adjSvc_shownWarm : (s.adjSvc f).shownWarm = s.shownWarm := rfl
@[simp] theorem State.adjSvc_fenced : (s.adjSvc f).fenced = s.fenced := rfl
@[simp] theorem State.adjSvc_dispTable : (s.adjSvc f).dispTable = s.dispTable := rfl
@[simp] theorem State.adjSvc_pcnt : (s.adjSvc f).pcnt = s.pcnt := rfl
@[simp] theorem State.adjSvc_gcnt : (s.adjSvc f).gcnt = s.gcnt := rfl
@[simp] theorem State.adjSvc_epCopy : (s.adjSvc f).epCopy = s.epCopy := rfl
@[simp] theorem State.adjSvc_resetFtc : (s.adjSvc f).resetFtc = s.resetFtc := rfl
@[simp] theorem State.adjSvc_trace : (s.adjSvc f).trace = s.trace := rfl
@[simp] theorem State.adjSvc_tapIr : (s.adjSvc f).tapIr = s.tapIr := rfl
end

section
variable (s : State) (f : Coppice → Coppice)
@[simp] theorem State.adjCop_pending : (s.adjCop f).pending = s.pending := rfl
@[simp] theorem State.adjCop_mem : (s.adjCop f).mem = s.mem := rfl
@[simp] theorem State.adjCop_stores : (s.adjCop f).stores = s.stores := rfl
@[simp] theorem State.adjCop_cleared : (s.adjCop f).cleared = s.cleared := rfl
@[simp] theorem State.adjCop_free : (s.adjCop f).free = s.free := rfl
@[simp] theorem State.adjCop_out : (s.adjCop f).out = s.out := rfl
@[simp] theorem State.adjCop_readData : (s.adjCop f).readData = s.readData := rfl
@[simp] theorem State.adjCop_cfg : (s.adjCop f).cfg = s.cfg := rfl
@[simp] theorem State.adjCop_fab : (s.adjCop f).fab = s.fab := rfl
@[simp] theorem State.adjCop_cal : (s.adjCop f).cal = s.cal := rfl
@[simp] theorem State.adjCop_parts : (s.adjCop f).parts = s.parts := rfl
@[simp] theorem State.adjCop_ctxs : (s.adjCop f).ctxs = s.ctxs := rfl
@[simp] theorem State.adjCop_loads : (s.adjCop f).loads = s.loads := rfl
@[simp] theorem State.adjCop_transl : (s.adjCop f).transl = s.transl := rfl
@[simp] theorem State.adjCop_atsOn : (s.adjCop f).atsOn = s.atsOn := rfl
@[simp] theorem State.adjCop_objs : (s.adjCop f).objs = s.objs := rfl
@[simp] theorem State.adjCop_nextObj : (s.adjCop f).nextObj = s.nextObj := rfl
@[simp] theorem State.adjCop_rings : (s.adjCop f).rings = s.rings := rfl
@[simp] theorem State.adjCop_works : (s.adjCop f).works = s.works := rfl
@[simp] theorem State.adjCop_nextWork : (s.adjCop f).nextWork = s.nextWork := rfl
@[simp] theorem State.adjCop_launches : (s.adjCop f).launches = s.launches := rfl
@[simp] theorem State.adjCop_nextLaunch : (s.adjCop f).nextLaunch = s.nextLaunch := rfl
@[simp] theorem State.adjCop_graphs : (s.adjCop f).graphs = s.graphs := rfl
@[simp] theorem State.adjCop_nextGraph : (s.adjCop f).nextGraph = s.nextGraph := rfl
@[simp] theorem State.adjCop_nextBlock : (s.adjCop f).nextBlock = s.nextBlock := rfl
@[simp] theorem State.adjCop_imageReads : (s.adjCop f).imageReads = s.imageReads := rfl
@[simp] theorem State.adjCop_espWaits : (s.adjCop f).espWaits = s.espWaits := rfl
@[simp] theorem State.adjCop_eps : (s.adjCop f).eps = s.eps := rfl
@[simp] theorem State.adjCop_tasks : (s.adjCop f).tasks = s.tasks := rfl
@[simp] theorem State.adjCop_fences : (s.adjCop f).fences = s.fences := rfl
@[simp] theorem State.adjCop_exports : (s.adjCop f).exports = s.exports := rfl
@[simp] theorem State.adjCop_nextExport : (s.adjCop f).nextExport = s.nextExport := rfl
@[simp] theorem State.adjCop_watch : (s.adjCop f).watch = s.watch := rfl
@[simp] theorem State.adjCop_listed : (s.adjCop f).listed = s.listed := rfl
@[simp] theorem State.adjCop_sigs : (s.adjCop f).sigs = s.sigs := rfl
@[simp] theorem State.adjCop_marks : (s.adjCop f).marks = s.marks := rfl
@[simp] theorem State.adjCop_mirrors : (s.adjCop f).mirrors = s.mirrors := rfl
@[simp] theorem State.adjCop_hostOps : (s.adjCop f).hostOps = s.hostOps := rfl
@[simp] theorem State.adjCop_msgs : (s.adjCop f).msgs = s.msgs := rfl
@[simp] theorem State.adjCop_aborts : (s.adjCop f).aborts = s.aborts := rfl
@[simp] theorem State.adjCop_accepted : (s.adjCop f).accepted = s.accepted := rfl
@[simp] theorem State.adjCop_ran : (s.adjCop f).ran = s.ran := rfl
@[simp] theorem State.adjCop_once : (s.adjCop f).once = s.once := rfl
@[simp] theorem State.adjCop_latches : (s.adjCop f).latches = s.latches := rfl
@[simp] theorem State.adjCop_epoch : (s.adjCop f).epoch = s.epoch := rfl
@[simp] theorem State.adjCop_cop : (s.adjCop f).cop = f s.cop := rfl
@[simp] theorem State.adjCop_tables : (s.adjCop f).tables = s.tables := rfl
@[simp] theorem State.adjCop_nextTable : (s.adjCop f).nextTable = s.nextTable := rfl
@[simp] theorem State.adjCop_marshal : (s.adjCop f).marshal = s.marshal := rfl
@[simp] theorem State.adjCop_pleach : (s.adjCop f).pleach = s.pleach := rfl
@[simp] theorem State.adjCop_later : (s.adjCop f).later = s.later := rfl
@[simp] theorem State.adjCop_svc : (s.adjCop f).svc = s.svc := rfl
@[simp] theorem State.adjCop_pwr : (s.adjCop f).pwr = s.pwr := rfl
@[simp] theorem State.adjCop_stop : (s.adjCop f).stop = s.stop := rfl
@[simp] theorem State.adjCop_flt : (s.adjCop f).flt = s.flt := rfl
@[simp] theorem State.adjCop_fw : (s.adjCop f).fw = s.fw := rfl
@[simp] theorem State.adjCop_bw : (s.adjCop f).bw = s.bw := rfl
@[simp] theorem State.adjCop_arb : (s.adjCop f).arb = s.arb := rfl
@[simp] theorem State.adjCop_ic : (s.adjCop f).ic = s.ic := rfl
@[simp] theorem State.adjCop_boot : (s.adjCop f).boot = s.boot := rfl
@[simp] theorem State.adjCop_shears : (s.adjCop f).shears = s.shears := rfl
@[simp] theorem State.adjCop_shownWarm : (s.adjCop f).shownWarm = s.shownWarm := rfl
@[simp] theorem State.adjCop_fenced : (s.adjCop f).fenced = s.fenced := rfl
@[simp] theorem State.adjCop_dispTable : (s.adjCop f).dispTable = s.dispTable := rfl
@[simp] theorem State.adjCop_pcnt : (s.adjCop f).pcnt = s.pcnt := rfl
@[simp] theorem State.adjCop_gcnt : (s.adjCop f).gcnt = s.gcnt := rfl
@[simp] theorem State.adjCop_epCopy : (s.adjCop f).epCopy = s.epCopy := rfl
@[simp] theorem State.adjCop_resetFtc : (s.adjCop f).resetFtc = s.resetFtc := rfl
@[simp] theorem State.adjCop_trace : (s.adjCop f).trace = s.trace := rfl
@[simp] theorem State.adjCop_tapIr : (s.adjCop f).tapIr = s.tapIr := rfl
end

section
variable (s : State) (f : Marshal → Marshal)
@[simp] theorem State.adjMarshal_pending : (s.adjMarshal f).pending = s.pending := rfl
@[simp] theorem State.adjMarshal_mem : (s.adjMarshal f).mem = s.mem := rfl
@[simp] theorem State.adjMarshal_stores : (s.adjMarshal f).stores = s.stores := rfl
@[simp] theorem State.adjMarshal_cleared : (s.adjMarshal f).cleared = s.cleared := rfl
@[simp] theorem State.adjMarshal_free : (s.adjMarshal f).free = s.free := rfl
@[simp] theorem State.adjMarshal_out : (s.adjMarshal f).out = s.out := rfl
@[simp] theorem State.adjMarshal_readData : (s.adjMarshal f).readData = s.readData := rfl
@[simp] theorem State.adjMarshal_cfg : (s.adjMarshal f).cfg = s.cfg := rfl
@[simp] theorem State.adjMarshal_fab : (s.adjMarshal f).fab = s.fab := rfl
@[simp] theorem State.adjMarshal_cal : (s.adjMarshal f).cal = s.cal := rfl
@[simp] theorem State.adjMarshal_parts : (s.adjMarshal f).parts = s.parts := rfl
@[simp] theorem State.adjMarshal_ctxs : (s.adjMarshal f).ctxs = s.ctxs := rfl
@[simp] theorem State.adjMarshal_loads : (s.adjMarshal f).loads = s.loads := rfl
@[simp] theorem State.adjMarshal_transl : (s.adjMarshal f).transl = s.transl := rfl
@[simp] theorem State.adjMarshal_atsOn : (s.adjMarshal f).atsOn = s.atsOn := rfl
@[simp] theorem State.adjMarshal_objs : (s.adjMarshal f).objs = s.objs := rfl
@[simp] theorem State.adjMarshal_nextObj : (s.adjMarshal f).nextObj = s.nextObj := rfl
@[simp] theorem State.adjMarshal_rings : (s.adjMarshal f).rings = s.rings := rfl
@[simp] theorem State.adjMarshal_works : (s.adjMarshal f).works = s.works := rfl
@[simp] theorem State.adjMarshal_nextWork : (s.adjMarshal f).nextWork = s.nextWork := rfl
@[simp] theorem State.adjMarshal_launches : (s.adjMarshal f).launches = s.launches := rfl
@[simp] theorem State.adjMarshal_nextLaunch : (s.adjMarshal f).nextLaunch = s.nextLaunch := rfl
@[simp] theorem State.adjMarshal_graphs : (s.adjMarshal f).graphs = s.graphs := rfl
@[simp] theorem State.adjMarshal_nextGraph : (s.adjMarshal f).nextGraph = s.nextGraph := rfl
@[simp] theorem State.adjMarshal_nextBlock : (s.adjMarshal f).nextBlock = s.nextBlock := rfl
@[simp] theorem State.adjMarshal_imageReads : (s.adjMarshal f).imageReads = s.imageReads := rfl
@[simp] theorem State.adjMarshal_espWaits : (s.adjMarshal f).espWaits = s.espWaits := rfl
@[simp] theorem State.adjMarshal_eps : (s.adjMarshal f).eps = s.eps := rfl
@[simp] theorem State.adjMarshal_tasks : (s.adjMarshal f).tasks = s.tasks := rfl
@[simp] theorem State.adjMarshal_fences : (s.adjMarshal f).fences = s.fences := rfl
@[simp] theorem State.adjMarshal_exports : (s.adjMarshal f).exports = s.exports := rfl
@[simp] theorem State.adjMarshal_nextExport : (s.adjMarshal f).nextExport = s.nextExport := rfl
@[simp] theorem State.adjMarshal_watch : (s.adjMarshal f).watch = s.watch := rfl
@[simp] theorem State.adjMarshal_listed : (s.adjMarshal f).listed = s.listed := rfl
@[simp] theorem State.adjMarshal_sigs : (s.adjMarshal f).sigs = s.sigs := rfl
@[simp] theorem State.adjMarshal_marks : (s.adjMarshal f).marks = s.marks := rfl
@[simp] theorem State.adjMarshal_mirrors : (s.adjMarshal f).mirrors = s.mirrors := rfl
@[simp] theorem State.adjMarshal_hostOps : (s.adjMarshal f).hostOps = s.hostOps := rfl
@[simp] theorem State.adjMarshal_msgs : (s.adjMarshal f).msgs = s.msgs := rfl
@[simp] theorem State.adjMarshal_aborts : (s.adjMarshal f).aborts = s.aborts := rfl
@[simp] theorem State.adjMarshal_accepted : (s.adjMarshal f).accepted = s.accepted := rfl
@[simp] theorem State.adjMarshal_ran : (s.adjMarshal f).ran = s.ran := rfl
@[simp] theorem State.adjMarshal_once : (s.adjMarshal f).once = s.once := rfl
@[simp] theorem State.adjMarshal_latches : (s.adjMarshal f).latches = s.latches := rfl
@[simp] theorem State.adjMarshal_epoch : (s.adjMarshal f).epoch = s.epoch := rfl
@[simp] theorem State.adjMarshal_cop : (s.adjMarshal f).cop = s.cop := rfl
@[simp] theorem State.adjMarshal_tables : (s.adjMarshal f).tables = s.tables := rfl
@[simp] theorem State.adjMarshal_nextTable : (s.adjMarshal f).nextTable = s.nextTable := rfl
@[simp] theorem State.adjMarshal_marshal : (s.adjMarshal f).marshal = f s.marshal := rfl
@[simp] theorem State.adjMarshal_pleach : (s.adjMarshal f).pleach = s.pleach := rfl
@[simp] theorem State.adjMarshal_later : (s.adjMarshal f).later = s.later := rfl
@[simp] theorem State.adjMarshal_svc : (s.adjMarshal f).svc = s.svc := rfl
@[simp] theorem State.adjMarshal_pwr : (s.adjMarshal f).pwr = s.pwr := rfl
@[simp] theorem State.adjMarshal_stop : (s.adjMarshal f).stop = s.stop := rfl
@[simp] theorem State.adjMarshal_flt : (s.adjMarshal f).flt = s.flt := rfl
@[simp] theorem State.adjMarshal_fw : (s.adjMarshal f).fw = s.fw := rfl
@[simp] theorem State.adjMarshal_bw : (s.adjMarshal f).bw = s.bw := rfl
@[simp] theorem State.adjMarshal_arb : (s.adjMarshal f).arb = s.arb := rfl
@[simp] theorem State.adjMarshal_ic : (s.adjMarshal f).ic = s.ic := rfl
@[simp] theorem State.adjMarshal_boot : (s.adjMarshal f).boot = s.boot := rfl
@[simp] theorem State.adjMarshal_shears : (s.adjMarshal f).shears = s.shears := rfl
@[simp] theorem State.adjMarshal_shownWarm : (s.adjMarshal f).shownWarm = s.shownWarm := rfl
@[simp] theorem State.adjMarshal_fenced : (s.adjMarshal f).fenced = s.fenced := rfl
@[simp] theorem State.adjMarshal_dispTable : (s.adjMarshal f).dispTable = s.dispTable := rfl
@[simp] theorem State.adjMarshal_pcnt : (s.adjMarshal f).pcnt = s.pcnt := rfl
@[simp] theorem State.adjMarshal_gcnt : (s.adjMarshal f).gcnt = s.gcnt := rfl
@[simp] theorem State.adjMarshal_epCopy : (s.adjMarshal f).epCopy = s.epCopy := rfl
@[simp] theorem State.adjMarshal_resetFtc : (s.adjMarshal f).resetFtc = s.resetFtc := rfl
@[simp] theorem State.adjMarshal_trace : (s.adjMarshal f).trace = s.trace := rfl
@[simp] theorem State.adjMarshal_tapIr : (s.adjMarshal f).tapIr = s.tapIr := rfl
end

section
variable (s : State) (f : Pleach → Pleach)
@[simp] theorem State.adjPleach_pending : (s.adjPleach f).pending = s.pending := rfl
@[simp] theorem State.adjPleach_mem : (s.adjPleach f).mem = s.mem := rfl
@[simp] theorem State.adjPleach_stores : (s.adjPleach f).stores = s.stores := rfl
@[simp] theorem State.adjPleach_cleared : (s.adjPleach f).cleared = s.cleared := rfl
@[simp] theorem State.adjPleach_free : (s.adjPleach f).free = s.free := rfl
@[simp] theorem State.adjPleach_out : (s.adjPleach f).out = s.out := rfl
@[simp] theorem State.adjPleach_readData : (s.adjPleach f).readData = s.readData := rfl
@[simp] theorem State.adjPleach_cfg : (s.adjPleach f).cfg = s.cfg := rfl
@[simp] theorem State.adjPleach_fab : (s.adjPleach f).fab = s.fab := rfl
@[simp] theorem State.adjPleach_cal : (s.adjPleach f).cal = s.cal := rfl
@[simp] theorem State.adjPleach_parts : (s.adjPleach f).parts = s.parts := rfl
@[simp] theorem State.adjPleach_ctxs : (s.adjPleach f).ctxs = s.ctxs := rfl
@[simp] theorem State.adjPleach_loads : (s.adjPleach f).loads = s.loads := rfl
@[simp] theorem State.adjPleach_transl : (s.adjPleach f).transl = s.transl := rfl
@[simp] theorem State.adjPleach_atsOn : (s.adjPleach f).atsOn = s.atsOn := rfl
@[simp] theorem State.adjPleach_objs : (s.adjPleach f).objs = s.objs := rfl
@[simp] theorem State.adjPleach_nextObj : (s.adjPleach f).nextObj = s.nextObj := rfl
@[simp] theorem State.adjPleach_rings : (s.adjPleach f).rings = s.rings := rfl
@[simp] theorem State.adjPleach_works : (s.adjPleach f).works = s.works := rfl
@[simp] theorem State.adjPleach_nextWork : (s.adjPleach f).nextWork = s.nextWork := rfl
@[simp] theorem State.adjPleach_launches : (s.adjPleach f).launches = s.launches := rfl
@[simp] theorem State.adjPleach_nextLaunch : (s.adjPleach f).nextLaunch = s.nextLaunch := rfl
@[simp] theorem State.adjPleach_graphs : (s.adjPleach f).graphs = s.graphs := rfl
@[simp] theorem State.adjPleach_nextGraph : (s.adjPleach f).nextGraph = s.nextGraph := rfl
@[simp] theorem State.adjPleach_nextBlock : (s.adjPleach f).nextBlock = s.nextBlock := rfl
@[simp] theorem State.adjPleach_imageReads : (s.adjPleach f).imageReads = s.imageReads := rfl
@[simp] theorem State.adjPleach_espWaits : (s.adjPleach f).espWaits = s.espWaits := rfl
@[simp] theorem State.adjPleach_eps : (s.adjPleach f).eps = s.eps := rfl
@[simp] theorem State.adjPleach_tasks : (s.adjPleach f).tasks = s.tasks := rfl
@[simp] theorem State.adjPleach_fences : (s.adjPleach f).fences = s.fences := rfl
@[simp] theorem State.adjPleach_exports : (s.adjPleach f).exports = s.exports := rfl
@[simp] theorem State.adjPleach_nextExport : (s.adjPleach f).nextExport = s.nextExport := rfl
@[simp] theorem State.adjPleach_watch : (s.adjPleach f).watch = s.watch := rfl
@[simp] theorem State.adjPleach_listed : (s.adjPleach f).listed = s.listed := rfl
@[simp] theorem State.adjPleach_sigs : (s.adjPleach f).sigs = s.sigs := rfl
@[simp] theorem State.adjPleach_marks : (s.adjPleach f).marks = s.marks := rfl
@[simp] theorem State.adjPleach_mirrors : (s.adjPleach f).mirrors = s.mirrors := rfl
@[simp] theorem State.adjPleach_hostOps : (s.adjPleach f).hostOps = s.hostOps := rfl
@[simp] theorem State.adjPleach_msgs : (s.adjPleach f).msgs = s.msgs := rfl
@[simp] theorem State.adjPleach_aborts : (s.adjPleach f).aborts = s.aborts := rfl
@[simp] theorem State.adjPleach_accepted : (s.adjPleach f).accepted = s.accepted := rfl
@[simp] theorem State.adjPleach_ran : (s.adjPleach f).ran = s.ran := rfl
@[simp] theorem State.adjPleach_once : (s.adjPleach f).once = s.once := rfl
@[simp] theorem State.adjPleach_latches : (s.adjPleach f).latches = s.latches := rfl
@[simp] theorem State.adjPleach_epoch : (s.adjPleach f).epoch = s.epoch := rfl
@[simp] theorem State.adjPleach_cop : (s.adjPleach f).cop = s.cop := rfl
@[simp] theorem State.adjPleach_tables : (s.adjPleach f).tables = s.tables := rfl
@[simp] theorem State.adjPleach_nextTable : (s.adjPleach f).nextTable = s.nextTable := rfl
@[simp] theorem State.adjPleach_marshal : (s.adjPleach f).marshal = s.marshal := rfl
@[simp] theorem State.adjPleach_pleach : (s.adjPleach f).pleach = f s.pleach := rfl
@[simp] theorem State.adjPleach_later : (s.adjPleach f).later = s.later := rfl
@[simp] theorem State.adjPleach_svc : (s.adjPleach f).svc = s.svc := rfl
@[simp] theorem State.adjPleach_pwr : (s.adjPleach f).pwr = s.pwr := rfl
@[simp] theorem State.adjPleach_stop : (s.adjPleach f).stop = s.stop := rfl
@[simp] theorem State.adjPleach_flt : (s.adjPleach f).flt = s.flt := rfl
@[simp] theorem State.adjPleach_fw : (s.adjPleach f).fw = s.fw := rfl
@[simp] theorem State.adjPleach_bw : (s.adjPleach f).bw = s.bw := rfl
@[simp] theorem State.adjPleach_arb : (s.adjPleach f).arb = s.arb := rfl
@[simp] theorem State.adjPleach_ic : (s.adjPleach f).ic = s.ic := rfl
@[simp] theorem State.adjPleach_boot : (s.adjPleach f).boot = s.boot := rfl
@[simp] theorem State.adjPleach_shears : (s.adjPleach f).shears = s.shears := rfl
@[simp] theorem State.adjPleach_shownWarm : (s.adjPleach f).shownWarm = s.shownWarm := rfl
@[simp] theorem State.adjPleach_fenced : (s.adjPleach f).fenced = s.fenced := rfl
@[simp] theorem State.adjPleach_dispTable : (s.adjPleach f).dispTable = s.dispTable := rfl
@[simp] theorem State.adjPleach_pcnt : (s.adjPleach f).pcnt = s.pcnt := rfl
@[simp] theorem State.adjPleach_gcnt : (s.adjPleach f).gcnt = s.gcnt := rfl
@[simp] theorem State.adjPleach_epCopy : (s.adjPleach f).epCopy = s.epCopy := rfl
@[simp] theorem State.adjPleach_resetFtc : (s.adjPleach f).resetFtc = s.resetFtc := rfl
@[simp] theorem State.adjPleach_trace : (s.adjPleach f).trace = s.trace := rfl
@[simp] theorem State.adjPleach_tapIr : (s.adjPleach f).tapIr = s.tapIr := rfl
end

section
variable (s : State) (f : Power → Power)
@[simp] theorem State.adjPwr_pending : (s.adjPwr f).pending = s.pending := rfl
@[simp] theorem State.adjPwr_mem : (s.adjPwr f).mem = s.mem := rfl
@[simp] theorem State.adjPwr_stores : (s.adjPwr f).stores = s.stores := rfl
@[simp] theorem State.adjPwr_cleared : (s.adjPwr f).cleared = s.cleared := rfl
@[simp] theorem State.adjPwr_free : (s.adjPwr f).free = s.free := rfl
@[simp] theorem State.adjPwr_out : (s.adjPwr f).out = s.out := rfl
@[simp] theorem State.adjPwr_readData : (s.adjPwr f).readData = s.readData := rfl
@[simp] theorem State.adjPwr_cfg : (s.adjPwr f).cfg = s.cfg := rfl
@[simp] theorem State.adjPwr_fab : (s.adjPwr f).fab = s.fab := rfl
@[simp] theorem State.adjPwr_cal : (s.adjPwr f).cal = s.cal := rfl
@[simp] theorem State.adjPwr_parts : (s.adjPwr f).parts = s.parts := rfl
@[simp] theorem State.adjPwr_ctxs : (s.adjPwr f).ctxs = s.ctxs := rfl
@[simp] theorem State.adjPwr_loads : (s.adjPwr f).loads = s.loads := rfl
@[simp] theorem State.adjPwr_transl : (s.adjPwr f).transl = s.transl := rfl
@[simp] theorem State.adjPwr_atsOn : (s.adjPwr f).atsOn = s.atsOn := rfl
@[simp] theorem State.adjPwr_objs : (s.adjPwr f).objs = s.objs := rfl
@[simp] theorem State.adjPwr_nextObj : (s.adjPwr f).nextObj = s.nextObj := rfl
@[simp] theorem State.adjPwr_rings : (s.adjPwr f).rings = s.rings := rfl
@[simp] theorem State.adjPwr_works : (s.adjPwr f).works = s.works := rfl
@[simp] theorem State.adjPwr_nextWork : (s.adjPwr f).nextWork = s.nextWork := rfl
@[simp] theorem State.adjPwr_launches : (s.adjPwr f).launches = s.launches := rfl
@[simp] theorem State.adjPwr_nextLaunch : (s.adjPwr f).nextLaunch = s.nextLaunch := rfl
@[simp] theorem State.adjPwr_graphs : (s.adjPwr f).graphs = s.graphs := rfl
@[simp] theorem State.adjPwr_nextGraph : (s.adjPwr f).nextGraph = s.nextGraph := rfl
@[simp] theorem State.adjPwr_nextBlock : (s.adjPwr f).nextBlock = s.nextBlock := rfl
@[simp] theorem State.adjPwr_imageReads : (s.adjPwr f).imageReads = s.imageReads := rfl
@[simp] theorem State.adjPwr_espWaits : (s.adjPwr f).espWaits = s.espWaits := rfl
@[simp] theorem State.adjPwr_eps : (s.adjPwr f).eps = s.eps := rfl
@[simp] theorem State.adjPwr_tasks : (s.adjPwr f).tasks = s.tasks := rfl
@[simp] theorem State.adjPwr_fences : (s.adjPwr f).fences = s.fences := rfl
@[simp] theorem State.adjPwr_exports : (s.adjPwr f).exports = s.exports := rfl
@[simp] theorem State.adjPwr_nextExport : (s.adjPwr f).nextExport = s.nextExport := rfl
@[simp] theorem State.adjPwr_watch : (s.adjPwr f).watch = s.watch := rfl
@[simp] theorem State.adjPwr_listed : (s.adjPwr f).listed = s.listed := rfl
@[simp] theorem State.adjPwr_sigs : (s.adjPwr f).sigs = s.sigs := rfl
@[simp] theorem State.adjPwr_marks : (s.adjPwr f).marks = s.marks := rfl
@[simp] theorem State.adjPwr_mirrors : (s.adjPwr f).mirrors = s.mirrors := rfl
@[simp] theorem State.adjPwr_hostOps : (s.adjPwr f).hostOps = s.hostOps := rfl
@[simp] theorem State.adjPwr_msgs : (s.adjPwr f).msgs = s.msgs := rfl
@[simp] theorem State.adjPwr_aborts : (s.adjPwr f).aborts = s.aborts := rfl
@[simp] theorem State.adjPwr_accepted : (s.adjPwr f).accepted = s.accepted := rfl
@[simp] theorem State.adjPwr_ran : (s.adjPwr f).ran = s.ran := rfl
@[simp] theorem State.adjPwr_once : (s.adjPwr f).once = s.once := rfl
@[simp] theorem State.adjPwr_latches : (s.adjPwr f).latches = s.latches := rfl
@[simp] theorem State.adjPwr_epoch : (s.adjPwr f).epoch = s.epoch := rfl
@[simp] theorem State.adjPwr_cop : (s.adjPwr f).cop = s.cop := rfl
@[simp] theorem State.adjPwr_tables : (s.adjPwr f).tables = s.tables := rfl
@[simp] theorem State.adjPwr_nextTable : (s.adjPwr f).nextTable = s.nextTable := rfl
@[simp] theorem State.adjPwr_marshal : (s.adjPwr f).marshal = s.marshal := rfl
@[simp] theorem State.adjPwr_pleach : (s.adjPwr f).pleach = s.pleach := rfl
@[simp] theorem State.adjPwr_later : (s.adjPwr f).later = s.later := rfl
@[simp] theorem State.adjPwr_svc : (s.adjPwr f).svc = s.svc := rfl
@[simp] theorem State.adjPwr_pwr : (s.adjPwr f).pwr = f s.pwr := rfl
@[simp] theorem State.adjPwr_stop : (s.adjPwr f).stop = s.stop := rfl
@[simp] theorem State.adjPwr_flt : (s.adjPwr f).flt = s.flt := rfl
@[simp] theorem State.adjPwr_fw : (s.adjPwr f).fw = s.fw := rfl
@[simp] theorem State.adjPwr_bw : (s.adjPwr f).bw = s.bw := rfl
@[simp] theorem State.adjPwr_arb : (s.adjPwr f).arb = s.arb := rfl
@[simp] theorem State.adjPwr_ic : (s.adjPwr f).ic = s.ic := rfl
@[simp] theorem State.adjPwr_boot : (s.adjPwr f).boot = s.boot := rfl
@[simp] theorem State.adjPwr_shears : (s.adjPwr f).shears = s.shears := rfl
@[simp] theorem State.adjPwr_shownWarm : (s.adjPwr f).shownWarm = s.shownWarm := rfl
@[simp] theorem State.adjPwr_fenced : (s.adjPwr f).fenced = s.fenced := rfl
@[simp] theorem State.adjPwr_dispTable : (s.adjPwr f).dispTable = s.dispTable := rfl
@[simp] theorem State.adjPwr_pcnt : (s.adjPwr f).pcnt = s.pcnt := rfl
@[simp] theorem State.adjPwr_gcnt : (s.adjPwr f).gcnt = s.gcnt := rfl
@[simp] theorem State.adjPwr_epCopy : (s.adjPwr f).epCopy = s.epCopy := rfl
@[simp] theorem State.adjPwr_resetFtc : (s.adjPwr f).resetFtc = s.resetFtc := rfl
@[simp] theorem State.adjPwr_trace : (s.adjPwr f).trace = s.trace := rfl
@[simp] theorem State.adjPwr_tapIr : (s.adjPwr f).tapIr = s.tapIr := rfl
end

section
variable (s : State) (f : TraceUnit → TraceUnit)
@[simp] theorem State.adjTrace_pending : (s.adjTrace f).pending = s.pending := rfl
@[simp] theorem State.adjTrace_mem : (s.adjTrace f).mem = s.mem := rfl
@[simp] theorem State.adjTrace_stores : (s.adjTrace f).stores = s.stores := rfl
@[simp] theorem State.adjTrace_cleared : (s.adjTrace f).cleared = s.cleared := rfl
@[simp] theorem State.adjTrace_free : (s.adjTrace f).free = s.free := rfl
@[simp] theorem State.adjTrace_out : (s.adjTrace f).out = s.out := rfl
@[simp] theorem State.adjTrace_readData : (s.adjTrace f).readData = s.readData := rfl
@[simp] theorem State.adjTrace_cfg : (s.adjTrace f).cfg = s.cfg := rfl
@[simp] theorem State.adjTrace_fab : (s.adjTrace f).fab = s.fab := rfl
@[simp] theorem State.adjTrace_cal : (s.adjTrace f).cal = s.cal := rfl
@[simp] theorem State.adjTrace_parts : (s.adjTrace f).parts = s.parts := rfl
@[simp] theorem State.adjTrace_ctxs : (s.adjTrace f).ctxs = s.ctxs := rfl
@[simp] theorem State.adjTrace_loads : (s.adjTrace f).loads = s.loads := rfl
@[simp] theorem State.adjTrace_transl : (s.adjTrace f).transl = s.transl := rfl
@[simp] theorem State.adjTrace_atsOn : (s.adjTrace f).atsOn = s.atsOn := rfl
@[simp] theorem State.adjTrace_objs : (s.adjTrace f).objs = s.objs := rfl
@[simp] theorem State.adjTrace_nextObj : (s.adjTrace f).nextObj = s.nextObj := rfl
@[simp] theorem State.adjTrace_rings : (s.adjTrace f).rings = s.rings := rfl
@[simp] theorem State.adjTrace_works : (s.adjTrace f).works = s.works := rfl
@[simp] theorem State.adjTrace_nextWork : (s.adjTrace f).nextWork = s.nextWork := rfl
@[simp] theorem State.adjTrace_launches : (s.adjTrace f).launches = s.launches := rfl
@[simp] theorem State.adjTrace_nextLaunch : (s.adjTrace f).nextLaunch = s.nextLaunch := rfl
@[simp] theorem State.adjTrace_graphs : (s.adjTrace f).graphs = s.graphs := rfl
@[simp] theorem State.adjTrace_nextGraph : (s.adjTrace f).nextGraph = s.nextGraph := rfl
@[simp] theorem State.adjTrace_nextBlock : (s.adjTrace f).nextBlock = s.nextBlock := rfl
@[simp] theorem State.adjTrace_imageReads : (s.adjTrace f).imageReads = s.imageReads := rfl
@[simp] theorem State.adjTrace_espWaits : (s.adjTrace f).espWaits = s.espWaits := rfl
@[simp] theorem State.adjTrace_eps : (s.adjTrace f).eps = s.eps := rfl
@[simp] theorem State.adjTrace_tasks : (s.adjTrace f).tasks = s.tasks := rfl
@[simp] theorem State.adjTrace_fences : (s.adjTrace f).fences = s.fences := rfl
@[simp] theorem State.adjTrace_exports : (s.adjTrace f).exports = s.exports := rfl
@[simp] theorem State.adjTrace_nextExport : (s.adjTrace f).nextExport = s.nextExport := rfl
@[simp] theorem State.adjTrace_watch : (s.adjTrace f).watch = s.watch := rfl
@[simp] theorem State.adjTrace_listed : (s.adjTrace f).listed = s.listed := rfl
@[simp] theorem State.adjTrace_sigs : (s.adjTrace f).sigs = s.sigs := rfl
@[simp] theorem State.adjTrace_marks : (s.adjTrace f).marks = s.marks := rfl
@[simp] theorem State.adjTrace_mirrors : (s.adjTrace f).mirrors = s.mirrors := rfl
@[simp] theorem State.adjTrace_hostOps : (s.adjTrace f).hostOps = s.hostOps := rfl
@[simp] theorem State.adjTrace_msgs : (s.adjTrace f).msgs = s.msgs := rfl
@[simp] theorem State.adjTrace_aborts : (s.adjTrace f).aborts = s.aborts := rfl
@[simp] theorem State.adjTrace_accepted : (s.adjTrace f).accepted = s.accepted := rfl
@[simp] theorem State.adjTrace_ran : (s.adjTrace f).ran = s.ran := rfl
@[simp] theorem State.adjTrace_once : (s.adjTrace f).once = s.once := rfl
@[simp] theorem State.adjTrace_latches : (s.adjTrace f).latches = s.latches := rfl
@[simp] theorem State.adjTrace_epoch : (s.adjTrace f).epoch = s.epoch := rfl
@[simp] theorem State.adjTrace_cop : (s.adjTrace f).cop = s.cop := rfl
@[simp] theorem State.adjTrace_tables : (s.adjTrace f).tables = s.tables := rfl
@[simp] theorem State.adjTrace_nextTable : (s.adjTrace f).nextTable = s.nextTable := rfl
@[simp] theorem State.adjTrace_marshal : (s.adjTrace f).marshal = s.marshal := rfl
@[simp] theorem State.adjTrace_pleach : (s.adjTrace f).pleach = s.pleach := rfl
@[simp] theorem State.adjTrace_later : (s.adjTrace f).later = s.later := rfl
@[simp] theorem State.adjTrace_svc : (s.adjTrace f).svc = s.svc := rfl
@[simp] theorem State.adjTrace_pwr : (s.adjTrace f).pwr = s.pwr := rfl
@[simp] theorem State.adjTrace_stop : (s.adjTrace f).stop = s.stop := rfl
@[simp] theorem State.adjTrace_flt : (s.adjTrace f).flt = s.flt := rfl
@[simp] theorem State.adjTrace_fw : (s.adjTrace f).fw = s.fw := rfl
@[simp] theorem State.adjTrace_bw : (s.adjTrace f).bw = s.bw := rfl
@[simp] theorem State.adjTrace_arb : (s.adjTrace f).arb = s.arb := rfl
@[simp] theorem State.adjTrace_ic : (s.adjTrace f).ic = s.ic := rfl
@[simp] theorem State.adjTrace_boot : (s.adjTrace f).boot = s.boot := rfl
@[simp] theorem State.adjTrace_shears : (s.adjTrace f).shears = s.shears := rfl
@[simp] theorem State.adjTrace_shownWarm : (s.adjTrace f).shownWarm = s.shownWarm := rfl
@[simp] theorem State.adjTrace_fenced : (s.adjTrace f).fenced = s.fenced := rfl
@[simp] theorem State.adjTrace_dispTable : (s.adjTrace f).dispTable = s.dispTable := rfl
@[simp] theorem State.adjTrace_pcnt : (s.adjTrace f).pcnt = s.pcnt := rfl
@[simp] theorem State.adjTrace_gcnt : (s.adjTrace f).gcnt = s.gcnt := rfl
@[simp] theorem State.adjTrace_epCopy : (s.adjTrace f).epCopy = s.epCopy := rfl
@[simp] theorem State.adjTrace_resetFtc : (s.adjTrace f).resetFtc = s.resetFtc := rfl
@[simp] theorem State.adjTrace_trace : (s.adjTrace f).trace = f s.trace := rfl
@[simp] theorem State.adjTrace_tapIr : (s.adjTrace f).tapIr = s.tapIr := rfl
end

section
variable (s : State) (f : Boot → Boot)
@[simp] theorem State.adjBoot_pending : (s.adjBoot f).pending = s.pending := rfl
@[simp] theorem State.adjBoot_mem : (s.adjBoot f).mem = s.mem := rfl
@[simp] theorem State.adjBoot_stores : (s.adjBoot f).stores = s.stores := rfl
@[simp] theorem State.adjBoot_cleared : (s.adjBoot f).cleared = s.cleared := rfl
@[simp] theorem State.adjBoot_free : (s.adjBoot f).free = s.free := rfl
@[simp] theorem State.adjBoot_out : (s.adjBoot f).out = s.out := rfl
@[simp] theorem State.adjBoot_readData : (s.adjBoot f).readData = s.readData := rfl
@[simp] theorem State.adjBoot_cfg : (s.adjBoot f).cfg = s.cfg := rfl
@[simp] theorem State.adjBoot_fab : (s.adjBoot f).fab = s.fab := rfl
@[simp] theorem State.adjBoot_cal : (s.adjBoot f).cal = s.cal := rfl
@[simp] theorem State.adjBoot_parts : (s.adjBoot f).parts = s.parts := rfl
@[simp] theorem State.adjBoot_ctxs : (s.adjBoot f).ctxs = s.ctxs := rfl
@[simp] theorem State.adjBoot_loads : (s.adjBoot f).loads = s.loads := rfl
@[simp] theorem State.adjBoot_transl : (s.adjBoot f).transl = s.transl := rfl
@[simp] theorem State.adjBoot_atsOn : (s.adjBoot f).atsOn = s.atsOn := rfl
@[simp] theorem State.adjBoot_objs : (s.adjBoot f).objs = s.objs := rfl
@[simp] theorem State.adjBoot_nextObj : (s.adjBoot f).nextObj = s.nextObj := rfl
@[simp] theorem State.adjBoot_rings : (s.adjBoot f).rings = s.rings := rfl
@[simp] theorem State.adjBoot_works : (s.adjBoot f).works = s.works := rfl
@[simp] theorem State.adjBoot_nextWork : (s.adjBoot f).nextWork = s.nextWork := rfl
@[simp] theorem State.adjBoot_launches : (s.adjBoot f).launches = s.launches := rfl
@[simp] theorem State.adjBoot_nextLaunch : (s.adjBoot f).nextLaunch = s.nextLaunch := rfl
@[simp] theorem State.adjBoot_graphs : (s.adjBoot f).graphs = s.graphs := rfl
@[simp] theorem State.adjBoot_nextGraph : (s.adjBoot f).nextGraph = s.nextGraph := rfl
@[simp] theorem State.adjBoot_nextBlock : (s.adjBoot f).nextBlock = s.nextBlock := rfl
@[simp] theorem State.adjBoot_imageReads : (s.adjBoot f).imageReads = s.imageReads := rfl
@[simp] theorem State.adjBoot_espWaits : (s.adjBoot f).espWaits = s.espWaits := rfl
@[simp] theorem State.adjBoot_eps : (s.adjBoot f).eps = s.eps := rfl
@[simp] theorem State.adjBoot_tasks : (s.adjBoot f).tasks = s.tasks := rfl
@[simp] theorem State.adjBoot_fences : (s.adjBoot f).fences = s.fences := rfl
@[simp] theorem State.adjBoot_exports : (s.adjBoot f).exports = s.exports := rfl
@[simp] theorem State.adjBoot_nextExport : (s.adjBoot f).nextExport = s.nextExport := rfl
@[simp] theorem State.adjBoot_watch : (s.adjBoot f).watch = s.watch := rfl
@[simp] theorem State.adjBoot_listed : (s.adjBoot f).listed = s.listed := rfl
@[simp] theorem State.adjBoot_sigs : (s.adjBoot f).sigs = s.sigs := rfl
@[simp] theorem State.adjBoot_marks : (s.adjBoot f).marks = s.marks := rfl
@[simp] theorem State.adjBoot_mirrors : (s.adjBoot f).mirrors = s.mirrors := rfl
@[simp] theorem State.adjBoot_hostOps : (s.adjBoot f).hostOps = s.hostOps := rfl
@[simp] theorem State.adjBoot_msgs : (s.adjBoot f).msgs = s.msgs := rfl
@[simp] theorem State.adjBoot_aborts : (s.adjBoot f).aborts = s.aborts := rfl
@[simp] theorem State.adjBoot_accepted : (s.adjBoot f).accepted = s.accepted := rfl
@[simp] theorem State.adjBoot_ran : (s.adjBoot f).ran = s.ran := rfl
@[simp] theorem State.adjBoot_once : (s.adjBoot f).once = s.once := rfl
@[simp] theorem State.adjBoot_latches : (s.adjBoot f).latches = s.latches := rfl
@[simp] theorem State.adjBoot_epoch : (s.adjBoot f).epoch = s.epoch := rfl
@[simp] theorem State.adjBoot_cop : (s.adjBoot f).cop = s.cop := rfl
@[simp] theorem State.adjBoot_tables : (s.adjBoot f).tables = s.tables := rfl
@[simp] theorem State.adjBoot_nextTable : (s.adjBoot f).nextTable = s.nextTable := rfl
@[simp] theorem State.adjBoot_marshal : (s.adjBoot f).marshal = s.marshal := rfl
@[simp] theorem State.adjBoot_pleach : (s.adjBoot f).pleach = s.pleach := rfl
@[simp] theorem State.adjBoot_later : (s.adjBoot f).later = s.later := rfl
@[simp] theorem State.adjBoot_svc : (s.adjBoot f).svc = s.svc := rfl
@[simp] theorem State.adjBoot_pwr : (s.adjBoot f).pwr = s.pwr := rfl
@[simp] theorem State.adjBoot_stop : (s.adjBoot f).stop = s.stop := rfl
@[simp] theorem State.adjBoot_flt : (s.adjBoot f).flt = s.flt := rfl
@[simp] theorem State.adjBoot_fw : (s.adjBoot f).fw = s.fw := rfl
@[simp] theorem State.adjBoot_bw : (s.adjBoot f).bw = s.bw := rfl
@[simp] theorem State.adjBoot_arb : (s.adjBoot f).arb = s.arb := rfl
@[simp] theorem State.adjBoot_ic : (s.adjBoot f).ic = s.ic := rfl
@[simp] theorem State.adjBoot_boot : (s.adjBoot f).boot = f s.boot := rfl
@[simp] theorem State.adjBoot_shears : (s.adjBoot f).shears = s.shears := rfl
@[simp] theorem State.adjBoot_shownWarm : (s.adjBoot f).shownWarm = s.shownWarm := rfl
@[simp] theorem State.adjBoot_fenced : (s.adjBoot f).fenced = s.fenced := rfl
@[simp] theorem State.adjBoot_dispTable : (s.adjBoot f).dispTable = s.dispTable := rfl
@[simp] theorem State.adjBoot_pcnt : (s.adjBoot f).pcnt = s.pcnt := rfl
@[simp] theorem State.adjBoot_gcnt : (s.adjBoot f).gcnt = s.gcnt := rfl
@[simp] theorem State.adjBoot_epCopy : (s.adjBoot f).epCopy = s.epCopy := rfl
@[simp] theorem State.adjBoot_resetFtc : (s.adjBoot f).resetFtc = s.resetFtc := rfl
@[simp] theorem State.adjBoot_trace : (s.adjBoot f).trace = s.trace := rfl
@[simp] theorem State.adjBoot_tapIr : (s.adjBoot f).tapIr = s.tapIr := rfl
end

section
variable (s : State) (whom : AbortTo) (st : Status) (d : Nat) (u : Bool)
@[simp] theorem State.decideAbort_pending : (s.decideAbort whom st d u).pending = s.pending := rfl
@[simp] theorem State.decideAbort_mem : (s.decideAbort whom st d u).mem = s.mem := rfl
@[simp] theorem State.decideAbort_stores : (s.decideAbort whom st d u).stores = s.stores := rfl
@[simp] theorem State.decideAbort_cleared : (s.decideAbort whom st d u).cleared = s.cleared := rfl
@[simp] theorem State.decideAbort_free : (s.decideAbort whom st d u).free = s.free := rfl
@[simp] theorem State.decideAbort_out : (s.decideAbort whom st d u).out = s.out := rfl
@[simp] theorem State.decideAbort_readData : (s.decideAbort whom st d u).readData = s.readData := rfl
@[simp] theorem State.decideAbort_cfg : (s.decideAbort whom st d u).cfg = s.cfg := rfl
@[simp] theorem State.decideAbort_fab : (s.decideAbort whom st d u).fab = s.fab := rfl
@[simp] theorem State.decideAbort_cal : (s.decideAbort whom st d u).cal = s.cal := rfl
@[simp] theorem State.decideAbort_parts : (s.decideAbort whom st d u).parts = s.parts := rfl
@[simp] theorem State.decideAbort_ctxs : (s.decideAbort whom st d u).ctxs = s.ctxs := rfl
@[simp] theorem State.decideAbort_loads : (s.decideAbort whom st d u).loads = s.loads := rfl
@[simp] theorem State.decideAbort_transl : (s.decideAbort whom st d u).transl = s.transl := rfl
@[simp] theorem State.decideAbort_atsOn : (s.decideAbort whom st d u).atsOn = s.atsOn := rfl
@[simp] theorem State.decideAbort_objs : (s.decideAbort whom st d u).objs = s.objs := rfl
@[simp] theorem State.decideAbort_nextObj : (s.decideAbort whom st d u).nextObj = s.nextObj := rfl
@[simp] theorem State.decideAbort_rings : (s.decideAbort whom st d u).rings = s.rings := rfl
@[simp] theorem State.decideAbort_works : (s.decideAbort whom st d u).works = s.works := rfl
@[simp] theorem State.decideAbort_nextWork : (s.decideAbort whom st d u).nextWork = s.nextWork := rfl
@[simp] theorem State.decideAbort_launches : (s.decideAbort whom st d u).launches = s.launches := rfl
@[simp] theorem State.decideAbort_nextLaunch : (s.decideAbort whom st d u).nextLaunch = s.nextLaunch := rfl
@[simp] theorem State.decideAbort_graphs : (s.decideAbort whom st d u).graphs = s.graphs := rfl
@[simp] theorem State.decideAbort_nextGraph : (s.decideAbort whom st d u).nextGraph = s.nextGraph := rfl
@[simp] theorem State.decideAbort_nextBlock : (s.decideAbort whom st d u).nextBlock = s.nextBlock := rfl
@[simp] theorem State.decideAbort_imageReads : (s.decideAbort whom st d u).imageReads = s.imageReads := rfl
@[simp] theorem State.decideAbort_espWaits : (s.decideAbort whom st d u).espWaits = s.espWaits := rfl
@[simp] theorem State.decideAbort_eps : (s.decideAbort whom st d u).eps = s.eps := rfl
@[simp] theorem State.decideAbort_tasks : (s.decideAbort whom st d u).tasks = s.tasks := rfl
@[simp] theorem State.decideAbort_fences : (s.decideAbort whom st d u).fences = s.fences := rfl
@[simp] theorem State.decideAbort_exports : (s.decideAbort whom st d u).exports = s.exports := rfl
@[simp] theorem State.decideAbort_nextExport : (s.decideAbort whom st d u).nextExport = s.nextExport := rfl
@[simp] theorem State.decideAbort_watch : (s.decideAbort whom st d u).watch = s.watch := rfl
@[simp] theorem State.decideAbort_listed : (s.decideAbort whom st d u).listed = s.listed := rfl
@[simp] theorem State.decideAbort_sigs : (s.decideAbort whom st d u).sigs = s.sigs := rfl
@[simp] theorem State.decideAbort_marks : (s.decideAbort whom st d u).marks = s.marks := rfl
@[simp] theorem State.decideAbort_mirrors : (s.decideAbort whom st d u).mirrors = s.mirrors := rfl
@[simp] theorem State.decideAbort_hostOps : (s.decideAbort whom st d u).hostOps = s.hostOps := rfl
@[simp] theorem State.decideAbort_msgs : (s.decideAbort whom st d u).msgs = s.msgs := rfl
@[simp] theorem State.decideAbort_aborts : (s.decideAbort whom st d u).aborts = s.aborts ++ [{ whom := whom, st := st, detail := d, urgent := u }] := rfl
@[simp] theorem State.decideAbort_accepted : (s.decideAbort whom st d u).accepted = s.accepted := rfl
@[simp] theorem State.decideAbort_ran : (s.decideAbort whom st d u).ran = s.ran := rfl
@[simp] theorem State.decideAbort_once : (s.decideAbort whom st d u).once = s.once := rfl
@[simp] theorem State.decideAbort_latches : (s.decideAbort whom st d u).latches = s.latches := rfl
@[simp] theorem State.decideAbort_epoch : (s.decideAbort whom st d u).epoch = s.epoch := rfl
@[simp] theorem State.decideAbort_cop : (s.decideAbort whom st d u).cop = s.cop := rfl
@[simp] theorem State.decideAbort_tables : (s.decideAbort whom st d u).tables = s.tables := rfl
@[simp] theorem State.decideAbort_nextTable : (s.decideAbort whom st d u).nextTable = s.nextTable := rfl
@[simp] theorem State.decideAbort_marshal : (s.decideAbort whom st d u).marshal = s.marshal := rfl
@[simp] theorem State.decideAbort_pleach : (s.decideAbort whom st d u).pleach = s.pleach := rfl
@[simp] theorem State.decideAbort_later : (s.decideAbort whom st d u).later = s.later := rfl
@[simp] theorem State.decideAbort_svc : (s.decideAbort whom st d u).svc = s.svc := rfl
@[simp] theorem State.decideAbort_pwr : (s.decideAbort whom st d u).pwr = s.pwr := rfl
@[simp] theorem State.decideAbort_stop : (s.decideAbort whom st d u).stop = s.stop := rfl
@[simp] theorem State.decideAbort_flt : (s.decideAbort whom st d u).flt = s.flt := rfl
@[simp] theorem State.decideAbort_fw : (s.decideAbort whom st d u).fw = s.fw := rfl
@[simp] theorem State.decideAbort_bw : (s.decideAbort whom st d u).bw = s.bw := rfl
@[simp] theorem State.decideAbort_arb : (s.decideAbort whom st d u).arb = s.arb := rfl
@[simp] theorem State.decideAbort_ic : (s.decideAbort whom st d u).ic = s.ic := rfl
@[simp] theorem State.decideAbort_boot : (s.decideAbort whom st d u).boot = s.boot := rfl
@[simp] theorem State.decideAbort_shears : (s.decideAbort whom st d u).shears = s.shears := rfl
@[simp] theorem State.decideAbort_shownWarm : (s.decideAbort whom st d u).shownWarm = s.shownWarm := rfl
@[simp] theorem State.decideAbort_fenced : (s.decideAbort whom st d u).fenced = s.fenced := rfl
@[simp] theorem State.decideAbort_dispTable : (s.decideAbort whom st d u).dispTable = s.dispTable := rfl
@[simp] theorem State.decideAbort_pcnt : (s.decideAbort whom st d u).pcnt = s.pcnt := rfl
@[simp] theorem State.decideAbort_gcnt : (s.decideAbort whom st d u).gcnt = s.gcnt := rfl
@[simp] theorem State.decideAbort_epCopy : (s.decideAbort whom st d u).epCopy = s.epCopy := rfl
@[simp] theorem State.decideAbort_resetFtc : (s.decideAbort whom st d u).resetFtc = s.resetFtc := rfl
@[simp] theorem State.decideAbort_trace : (s.decideAbort whom st d u).trace = s.trace := rfl
@[simp] theorem State.decideAbort_tapIr : (s.decideAbort whom st d u).tapIr = s.tapIr := rfl
end

end Sys2Proof.Machine
end

