-- ==== Sys2Proof/Laws/Tbl.lean ====
section
/-! SUPPORT. What the sparse tables answer after a change. -/
namespace Sys2Proof

variable {α : Type}

@[simp] theorem Tbl.get?_nil (n : Nat) : Tbl.get? ([] : Tbl α) n = none := rfl

@[simp] theorem Tbl.get?_set_same (t : Tbl α) (n : Nat) (v : α) : Tbl.get? (Tbl.set t n v) n = some v := by
  induction t with
  | nil => simp [Tbl.set, Tbl.get?]
  | cons e t ih =>
    obtain ⟨k, u⟩ := e
    simp only [Tbl.set]
    split
    · simp [Tbl.get?]
    · split
      · simp [Tbl.get?]
      · simp [Tbl.get?, *]

theorem Tbl.get?_set_other (t : Tbl α) {n m : Nat} (v : α) (h : n ≠ m) : Tbl.get? (Tbl.set t n v) m = Tbl.get? t m := by
  induction t with
  | nil => simp [Tbl.set, Tbl.get?, h]
  | cons e t ih =>
    obtain ⟨k, u⟩ := e
    simp only [Tbl.set]
    split
    · simp [Tbl.get?, h]
    · split
      · subst_vars; simp [Tbl.get?, h]
      · simp [Tbl.get?, ih]

theorem Tbl.get?_adjust (t : Tbl α) (n m : Nat) (f : α → α) :
    Tbl.get? (Tbl.adjust t n f) m = if m = n then (Tbl.get? t m).map f else Tbl.get? t m := by
  induction t with
  | nil => simp [Tbl.adjust, Tbl.get?]
  | cons e t ih =>
    obtain ⟨k, u⟩ := e
    simp only [Tbl.adjust] at ih
    by_cases hk : k = n
    · subst hk
      by_cases hm : k = m
      · subst hm; simp [Tbl.adjust, Tbl.get?]
      · simp only [Tbl.adjust, List.map_cons, if_pos, Tbl.get?, hm, if_false, ih]
    · by_cases hm : k = m
      · subst hm; simp [Tbl.adjust, Tbl.get?, hk]
      · simp only [Tbl.adjust, List.map_cons, hk, if_false, Tbl.get?, hm, ih]

@[simp] theorem Tbl.get?_adjust_same (t : Tbl α) (n : Nat) (f : α → α) :
    Tbl.get? (Tbl.adjust t n f) n = (Tbl.get? t n).map f := by
  simp [Tbl.get?_adjust]

theorem Tbl.get?_adjust_other (t : Tbl α) {n m : Nat} (f : α → α) (h : m ≠ n) :
    Tbl.get? (Tbl.adjust t n f) m = Tbl.get? t m := by
  simp [Tbl.get?_adjust, h]

@[simp] theorem Tbl.get?_erase_same (t : Tbl α) (n : Nat) : Tbl.get? (Tbl.erase t n) n = none := by
  induction t with
  | nil => rfl
  | cons e t ih =>
    obtain ⟨k, u⟩ := e
    simp only [Tbl.erase] at ih
    by_cases hk : k = n
    · simp [Tbl.erase, hk, ih]
    · simp [Tbl.erase, hk, Tbl.get?, ih]

theorem Tbl.get?_erase_other (t : Tbl α) {n m : Nat} (h : m ≠ n) : Tbl.get? (Tbl.erase t n) m = Tbl.get? t m := by
  induction t with
  | nil => rfl
  | cons e t ih =>
    obtain ⟨k, u⟩ := e
    simp only [Tbl.erase] at ih
    by_cases hk : k = n
    · subst hk; simp [Tbl.erase, Tbl.get?, ih, Ne.symm h]
    · simp [Tbl.erase, hk, Tbl.get?, ih]

theorem Tbl.get?_mapV (t : Tbl α) (f : Nat → α → α) (n : Nat) : Tbl.get? (Tbl.mapV t f) n = (Tbl.get? t n).map (f n) := by
  induction t with
  | nil => rfl
  | cons e t ih =>
    obtain ⟨k, u⟩ := e
    simp only [Tbl.mapV] at ih
    by_cases hk : k = n
    · subst hk; simp [Tbl.mapV, Tbl.get?]
    · simp [Tbl.mapV, Tbl.get?, hk, ih]

@[simp] theorem Tbl.getD_set_same (t : Tbl α) (n : Nat) (v d : α) : Tbl.getD (Tbl.set t n v) n d = v := by
  simp [Tbl.getD]

theorem Tbl.getD_set_other (t : Tbl α) {n m : Nat} (v d : α) (h : n ≠ m) :
    Tbl.getD (Tbl.set t n v) m d = Tbl.getD t m d := by
  simp [Tbl.getD, Tbl.get?_set_other t v h]

end Sys2Proof
end

