-- ==== Sys2Proof/Laws/Lookup.lean ====
section
/-! SUPPORT. What the parts of the state by number are after a change of one of them. -/
namespace Sys2Proof.Machine

@[simp] theorem State.ring?_adjRing_same (s : State) (k : Nat) (f : Ring → Ring) : (s.adjRing k f).ring? k = (s.ring? k).map f :=
  Tbl.get?_adjust_same s.rings k f

theorem State.ring?_adjRing_other (s : State) {k m : Nat} (f : Ring → Ring) (h : m ≠ k) : (s.adjRing k f).ring? m = s.ring? m :=
  Tbl.get?_adjust_other s.rings f h

@[simp] theorem State.ring?_adjCtx (s : State) (k m : Nat) (f : Ctx → Ctx) : (s.adjCtx k f).ring? m = s.ring? m := rfl
@[simp] theorem State.ring?_adjWork (s : State) (k m : Nat) (f : Work → Work) : (s.adjWork k f).ring? m = s.ring? m := rfl
@[simp] theorem State.ring?_adjLaunch (s : State) (k m : Nat) (f : Launch → Launch) : (s.adjLaunch k f).ring? m = s.ring? m := rfl
@[simp] theorem State.ring?_adjFence (s : State) (k m : Nat) (f : Fence → Fence) : (s.adjFence k f).ring? m = s.ring? m := rfl
@[simp] theorem State.ring?_adjTable (s : State) (k m : Nat) (f : Table → Table) : (s.adjTable k f).ring? m = s.ring? m := rfl

@[simp] theorem State.ctx?_adjCtx_same (s : State) (k : Nat) (f : Ctx → Ctx) : (s.adjCtx k f).ctx? k = (s.ctx? k).map f :=
  Tbl.get?_adjust_same s.ctxs k f

theorem State.ctx?_adjCtx_other (s : State) {k m : Nat} (f : Ctx → Ctx) (h : m ≠ k) : (s.adjCtx k f).ctx? m = s.ctx? m :=
  Tbl.get?_adjust_other s.ctxs f h

@[simp] theorem State.ctx?_adjRing (s : State) (k m : Nat) (f : Ring → Ring) : (s.adjRing k f).ctx? m = s.ctx? m := rfl
@[simp] theorem State.ctx?_adjWork (s : State) (k m : Nat) (f : Work → Work) : (s.adjWork k f).ctx? m = s.ctx? m := rfl
@[simp] theorem State.ctx?_adjLaunch (s : State) (k m : Nat) (f : Launch → Launch) : (s.adjLaunch k f).ctx? m = s.ctx? m := rfl
@[simp] theorem State.ctx?_adjFence (s : State) (k m : Nat) (f : Fence → Fence) : (s.adjFence k f).ctx? m = s.ctx? m := rfl
@[simp] theorem State.ctx?_adjTable (s : State) (k m : Nat) (f : Table → Table) : (s.adjTable k f).ctx? m = s.ctx? m := rfl

@[simp] theorem State.work?_adjWork_same (s : State) (k : Nat) (f : Work → Work) : (s.adjWork k f).work? k = (s.work? k).map f :=
  Tbl.get?_adjust_same s.works k f

theorem State.work?_adjWork_other (s : State) {k m : Nat} (f : Work → Work) (h : m ≠ k) : (s.adjWork k f).work? m = s.work? m :=
  Tbl.get?_adjust_other s.works f h

@[simp] theorem State.work?_adjRing (s : State) (k m : Nat) (f : Ring → Ring) : (s.adjRing k f).work? m = s.work? m := rfl
@[simp] theorem State.work?_adjCtx (s : State) (k m : Nat) (f : Ctx → Ctx) : (s.adjCtx k f).work? m = s.work? m := rfl
@[simp] theorem State.work?_adjLaunch (s : State) (k m : Nat) (f : Launch → Launch) : (s.adjLaunch k f).work? m = s.work? m := rfl
@[simp] theorem State.work?_adjFence (s : State) (k m : Nat) (f : Fence → Fence) : (s.adjFence k f).work? m = s.work? m := rfl
@[simp] theorem State.work?_adjTable (s : State) (k m : Nat) (f : Table → Table) : (s.adjTable k f).work? m = s.work? m := rfl

@[simp] theorem State.launch?_adjLaunch_same (s : State) (k : Nat) (f : Launch → Launch) : (s.adjLaunch k f).launch? k = (s.launch? k).map f :=
  Tbl.get?_adjust_same s.launches k f

theorem State.launch?_adjLaunch_other (s : State) {k m : Nat} (f : Launch → Launch) (h : m ≠ k) : (s.adjLaunch k f).launch? m = s.launch? m :=
  Tbl.get?_adjust_other s.launches f h

@[simp] theorem State.launch?_adjRing (s : State) (k m : Nat) (f : Ring → Ring) : (s.adjRing k f).launch? m = s.launch? m := rfl
@[simp] theorem State.launch?_adjCtx (s : State) (k m : Nat) (f : Ctx → Ctx) : (s.adjCtx k f).launch? m = s.launch? m := rfl
@[simp] theorem State.launch?_adjWork (s : State) (k m : Nat) (f : Work → Work) : (s.adjWork k f).launch? m = s.launch? m := rfl
@[simp] theorem State.launch?_adjFence (s : State) (k m : Nat) (f : Fence → Fence) : (s.adjFence k f).launch? m = s.launch? m := rfl
@[simp] theorem State.launch?_adjTable (s : State) (k m : Nat) (f : Table → Table) : (s.adjTable k f).launch? m = s.launch? m := rfl

@[simp] theorem State.fence?_adjFence_same (s : State) (k : Nat) (f : Fence → Fence) : (s.adjFence k f).fence? k = (s.fence? k).map f :=
  Tbl.get?_adjust_same s.fences k f

theorem State.fence?_adjFence_other (s : State) {k m : Nat} (f : Fence → Fence) (h : m ≠ k) : (s.adjFence k f).fence? m = s.fence? m :=
  Tbl.get?_adjust_other s.fences f h

@[simp] theorem State.fence?_adjRing (s : State) (k m : Nat) (f : Ring → Ring) : (s.adjRing k f).fence? m = s.fence? m := rfl
@[simp] theorem State.fence?_adjCtx (s : State) (k m : Nat) (f : Ctx → Ctx) : (s.adjCtx k f).fence? m = s.fence? m := rfl
@[simp] theorem State.fence?_adjWork (s : State) (k m : Nat) (f : Work → Work) : (s.adjWork k f).fence? m = s.fence? m := rfl
@[simp] theorem State.fence?_adjLaunch (s : State) (k m : Nat) (f : Launch → Launch) : (s.adjLaunch k f).fence? m = s.fence? m := rfl
@[simp] theorem State.fence?_adjTable (s : State) (k m : Nat) (f : Table → Table) : (s.adjTable k f).fence? m = s.fence? m := rfl

@[simp] theorem State.table?_adjTable_same (s : State) (k : Nat) (f : Table → Table) : (s.adjTable k f).table? k = (s.table? k).map f :=
  Tbl.get?_adjust_same s.tables k f

theorem State.table?_adjTable_other (s : State) {k m : Nat} (f : Table → Table) (h : m ≠ k) : (s.adjTable k f).table? m = s.table? m :=
  Tbl.get?_adjust_other s.tables f h

@[simp] theorem State.table?_adjRing (s : State) (k m : Nat) (f : Ring → Ring) : (s.adjRing k f).table? m = s.table? m := rfl
@[simp] theorem State.table?_adjCtx (s : State) (k m : Nat) (f : Ctx → Ctx) : (s.adjCtx k f).table? m = s.table? m := rfl
@[simp] theorem State.table?_adjWork (s : State) (k m : Nat) (f : Work → Work) : (s.adjWork k f).table? m = s.table? m := rfl
@[simp] theorem State.table?_adjLaunch (s : State) (k m : Nat) (f : Launch → Launch) : (s.adjLaunch k f).table? m = s.table? m := rfl
@[simp] theorem State.table?_adjFence (s : State) (k m : Nat) (f : Fence → Fence) : (s.adjFence k f).table? m = s.table? m := rfl

@[simp] theorem State.part_adjPart_same (s : State) (k : Nat) (f : Part → Part) : (s.adjPart k f).part k = f (s.part k) :=
  Tbl.getD_set_same s.parts k _ _

theorem State.part_adjPart_other (s : State) {k m : Nat} (f : Part → Part) (h : k ≠ m) : (s.adjPart k f).part m = s.part m :=
  Tbl.getD_set_other s.parts _ _ h

@[simp] theorem State.ep_adjEp_same (s : State) (k : Nat) (f : Ep → Ep) : (s.adjEp k f).ep k = f (s.ep k) :=
  Tbl.getD_set_same s.eps k _ _

theorem State.ep_adjEp_other (s : State) {k m : Nat} (f : Ep → Ep) (h : k ≠ m) : (s.adjEp k f).ep m = s.ep m :=
  Tbl.getD_set_other s.eps _ _ h

end Sys2Proof.Machine
end

