-- ==== Sys2Proof/Laws/Memory.lean ====
section
/-! SUPPORT. Device memory: what a byte reads as after a store or a clear, and that every operation keeps the canonical
form. -/
namespace Sys2Proof.Machine

theorem Mem.wfFrom_cons (lo : Option Nat) (a : Nat) (v : Byte) (m : List Host.Cell) :
    Mem.wfFrom lo ((a, v) :: m) = true ↔ (∀ l ∈ lo, l < a) ∧ v ≠ Mem.unlisted ∧ Mem.wfFrom (some a) m = true := by
  cases lo <;> simp [Mem.wfFrom, and_assoc]

theorem Mem.wfFrom_weaken {lo lo' : Option Nat} {m : List Host.Cell} (h : Mem.wfFrom lo m = true)
    (hl : ∀ l' ∈ lo', ∃ l ∈ lo, l' ≤ l) : Mem.wfFrom lo' m = true := by
  cases m with
  | nil => rfl
  | cons c m =>
    obtain ⟨a, v⟩ := c
    rw [Mem.wfFrom_cons] at h ⊢
    refine ⟨fun l' hl' => ?_, h.2⟩
    obtain ⟨l, h1, h2⟩ := hl l' hl'
    exact Nat.lt_of_le_of_lt h2 (h.1 l h1)

theorem Mem.wfFrom_put {lo : Option Nat} {m : List Host.Cell} (a : Nat) (v : Byte) (h : Mem.wfFrom lo m = true)
    (hl : ∀ l ∈ lo, l < a) : Mem.wfFrom lo (Mem.put m a v) = true := by
  induction m generalizing lo with
  | nil =>
    simp only [Mem.put]
    split
    · rfl
    · rename_i hv; exact (Mem.wfFrom_cons ..).2 ⟨hl, hv, rfl⟩
  | cons c m ih =>
    obtain ⟨b, u⟩ := c
    have h' := (Mem.wfFrom_cons ..).1 h
    simp only [Mem.put]
    split
    · split
      · exact h
      · rename_i hab hv
        refine (Mem.wfFrom_cons ..).2 ⟨hl, hv, (Mem.wfFrom_cons ..).2 ⟨?_, h'.2⟩⟩
        intro l hl'; cases hl'; exact hab
    · rename_i hab
      split
      · rename_i hb; subst hb
        split
        · refine Mem.wfFrom_weaken h'.2.2 fun l hl' => ⟨_, rfl, Nat.le_of_lt (hl l hl')⟩
        · rename_i hv; exact (Mem.wfFrom_cons ..).2 ⟨hl, hv, h'.2.2⟩
      · rename_i hb
        refine (Mem.wfFrom_cons ..).2 ⟨h'.1, h'.2.1, ih h'.2.2 fun l hl' => ?_⟩
        cases hl'; omega

theorem Mem.wf_put {m : List Host.Cell} (a : Nat) (v : Byte) (h : Mem.wf m = true) : Mem.wf (Mem.put m a v) = true :=
  Mem.wfFrom_put a v h (by simp)

theorem Mem.wf_putAll (new : List Host.Cell) {m : List Host.Cell} (h : Mem.wf m = true) : Mem.wf (Mem.putAll new m) = true := by
  induction new with
  | nil => exact h
  | cons c new ih => exact Mem.wf_put c.1 c.2 ih

theorem Mem.wfFrom_filter {lo : Option Nat} {m : List Host.Cell} (p : Host.Cell → Bool) (h : Mem.wfFrom lo m = true) :
    Mem.wfFrom lo (m.filter p) = true := by
  induction m generalizing lo with
  | nil => rfl
  | cons c m ih =>
    obtain ⟨b, u⟩ := c
    have h' := (Mem.wfFrom_cons ..).1 h
    simp only [List.filter_cons]
    split
    · exact (Mem.wfFrom_cons ..).2 ⟨h'.1, h'.2.1, ih h'.2.2⟩
    · exact Mem.wfFrom_weaken (ih h'.2.2) fun l hl => ⟨_, rfl, Nat.le_of_lt (h'.1 l hl)⟩

theorem Mem.wf_clear (rs : List (Nat × Nat)) {m : List Host.Cell} (h : Mem.wf m = true) : Mem.wf (Mem.clear rs m) = true :=
  Mem.wfFrom_filter _ h

/-- Below and at the bound of the form nothing is listed. -/
theorem Mem.get_low {m : List Host.Cell} {l a : Nat} (h : Mem.wfFrom (some l) m = true) (ha : a ≤ l) :
    Mem.get m a = Mem.unlisted := by
  induction m generalizing l with
  | nil => rfl
  | cons c m ih =>
    obtain ⟨b, u⟩ := c
    obtain ⟨h1, -, h3⟩ := (Mem.wfFrom_cons ..).1 h
    have : l < b := h1 l rfl
    have hb : ¬ b = a := by omega
    simp only [Mem.get, hb, if_false]
    exact ih h3 (by omega)

theorem Mem.get_put_other (m : List Host.Cell) {a b : Nat} (v : Byte) (h : a ≠ b) :
    Mem.get (Mem.put m a v) b = Mem.get m b := by
  induction m with
  | nil => simp only [Mem.put]; split <;> simp [Mem.get, h]
  | cons c m ih =>
    obtain ⟨d, u⟩ := c
    simp only [Mem.put]
    split
    · split <;> simp [Mem.get, h]
    · split
      · rename_i hd; subst hd; split <;> simp [Mem.get, h]
      · simp [Mem.get, ih]

theorem Mem.get_put_same {lo : Option Nat} {m : List Host.Cell} (a : Nat) (v : Byte) (h : Mem.wfFrom lo m = true) :
    Mem.get (Mem.put m a v) a = v := by
  induction m generalizing lo with
  | nil =>
    simp only [Mem.put]
    split
    · rename_i hv; exact hv.symm
    · simp [Mem.get]
  | cons c m ih =>
    obtain ⟨d, u⟩ := c
    obtain ⟨-, h2, h3⟩ := (Mem.wfFrom_cons ..).1 h
    simp only [Mem.put]
    split
    · rename_i had
      split
      · rename_i hv
        have : ¬ d = a := by omega
        simp only [Mem.get, this, if_false]
        rw [hv]; exact Mem.get_low h3 (by omega)
      · simp [Mem.get]
    · split
      · rename_i hd; subst hd
        split
        · rename_i hv; rw [hv]; exact Mem.get_low h3 (Nat.le_refl _)
        · simp [Mem.get]
      · rename_i hd
        simp only [Mem.get, hd, if_false]
        exact ih h3

/-- A byte after a run of stores: the newest store to it, or what was there. -/
theorem Mem.get_putAll (new : List Host.Cell) {m : List Host.Cell} (h : Mem.wf m = true) (a : Nat) :
    Mem.get (Mem.putAll new m) a = (newest new a).getD (Mem.get m a) := by
  induction new with
  | nil => rfl
  | cons c new ih =>
    obtain ⟨b, v⟩ := c
    by_cases hb : b = a
    · subst hb
      simp only [newest, if_pos, Option.getD_some]
      exact Mem.get_put_same (lo := none) b v (Mem.wf_putAll new h)
    · simp only [newest, hb, if_false, ← ih]
      exact Mem.get_put_other _ v hb

/-- A byte after ranges are cleared. -/
theorem Mem.get_clear (rs : List (Nat × Nat)) (m : List Host.Cell) (a : Nat) :
    Mem.get (Mem.clear rs m) a = if inRanges rs a then Mem.unlisted else Mem.get m a := by
  induction m with
  | nil => simp [Mem.clear, Mem.get]
  | cons c m ih =>
    obtain ⟨b, u⟩ := c
    simp only [Mem.clear, List.filter_cons] at ih ⊢
    by_cases hb : b = a
    · subst hb
      by_cases hr : inRanges rs b = true
      · simp only [hr, Bool.not_true, if_true, Mem.get] at ih ⊢; simp [ih]
      · simp only [Bool.not_eq_true] at hr; simp [hr, Mem.get]
    · split
      · simp only [Mem.get, hb, if_false, ih]
      · simp only [Mem.get, hb, if_false, ih]

/-! ### The stores of a running command -/

@[simp] theorem State.readByte_store_same (s : State) (a : Nat) (v : Byte) : (s.store a v).readByte a = v := by
  simp [State.readByte, State.store, newest]

theorem State.readByte_store_other (s : State) {a b : Nat} (v : Byte) (h : a ≠ b) :
    (s.store a v).readByte b = s.readByte b := by
  simp only [State.readByte, State.store, newest, h, if_false]
  rfl

end Sys2Proof.Machine
end

