-- ==== Sys2Proof/Laws/Run.lean ====
section
/-! SUPPORT. What the running of a command does around its effect: stores land in memory, the queue stays as it was. -/
namespace Sys2Proof.Machine

/-- Between commands nothing is open, so the effect begins at the state itself. -/
theorem State.run_eq {s : State} (h : s.settled) (f : State → State) :
    s.run f = { f s with mem := Mem.putAll (f s).stores (Mem.clear (f s).cleared s.mem), stores := [], cleared := [],
                         pending := s.pending } := by
  obtain ⟨-, h1, h2⟩ := h
  have : ({ s with stores := [], cleared := [] } : State) = s := by cases s; simp_all
  simp only [State.run, this]

@[simp] theorem Mem.clear_none (m : List Host.Cell) : Mem.clear [] m = m := by simp [Mem.clear, inRanges]

@[simp] theorem Mem.putAll_none (m : List Host.Cell) : Mem.putAll [] m = m := rfl

/-- An effect that opens no store and leaves memory and the queue alone is the whole change. -/
theorem State.run_quiet {s : State} (h : s.settled) {f : State → State} (h1 : (f s).stores = []) (h2 : (f s).cleared = [])
    (h3 : (f s).mem = s.mem) (h4 : (f s).pending = s.pending) : s.run f = f s := by
  rw [State.run_eq h, h1, h2, Mem.clear_none, Mem.putAll_none, ← h3, ← h4]
  generalize f s = t at *
  cases t; simp_all

/-- With module power a command has its effect. -/
theorem State.after_eq {s : State} (hp : s.boot.unpowered = false) (f : State → State) : s.after f = .next (s.run f) := by
  simp only [State.after, State.run, hp, Bool.false_eq_true, if_false]

/-- Without module power a command has none. -/
theorem State.after_unpowered {s : State} (h : s.settled) (hp : s.boot.unpowered = true) (f : State → State) :
    s.after f = .next s := by
  simp only [State.after]
  rw [State.run_quiet h] <;> simp [hp, h.2.1, h.2.2]

theorem State.after_quiet {s : State} (h : s.settled) (hp : s.boot.unpowered = false) {f : State → State}
    (h1 : (f s).stores = []) (h2 : (f s).cleared = []) (h3 : (f s).mem = s.mem) (h4 : (f s).pending = s.pending) :
    s.after f = .next (f s) := by
  rw [State.after_eq hp, State.run_quiet h h1 h2 h3 h4]

/-- The same for a state that is live. -/
theorem State.after_live {s t : State} (h : s.live) {f : State → State} (ht : f s = t) (h1 : t.stores = s.stores)
    (h2 : t.cleared = s.cleared) (h3 : t.mem = s.mem) (h4 : t.pending = s.pending) : s.after f = .next t := by
  subst ht
  exact State.after_quiet h.1 h.2 (h1.trans h.1.2.1) (h2.trans h.1.2.2) h3 h4

/-- What a live command reaches is its effect's state, with its stores landed. -/
theorem State.after_goes {s : State} (h : s.live) {f : State → State} {P : State → Prop}
    (hP : P { f s with mem := Mem.putAll (f s).stores (Mem.clear (f s).cleared s.mem), stores := [], cleared := [],
                       pending := s.pending }) : GoesTo (s.after f) P :=
  ⟨_, State.after_eq h.2 f, by rw [State.run_eq h.1]; exact hP⟩

@[simp] theorem State.run_pending (s : State) (f : State → State) : (s.run f).pending = s.pending := rfl
@[simp] theorem State.run_stores (s : State) (f : State → State) : (s.run f).stores = [] := rfl
@[simp] theorem State.run_cleared (s : State) (f : State → State) : (s.run f).cleared = [] := rfl

/-- Whatever a command does, memory keeps its canonical form. -/
theorem State.run_settled (s : State) (f : State → State) (h : Mem.wf s.mem = true) : (s.run f).settled :=
  ⟨Mem.wf_putAll _ (Mem.wf_clear _ h), rfl, rfl⟩

/-- When the stores of a command land, every byte reads as it read while the command ran. -/
theorem State.readByte_landed {m : List Host.Cell} (h : Mem.wf m = true) (st : List Host.Cell) (cl : List (Nat × Nat)) (a : Nat) :
    Mem.get (Mem.putAll st (Mem.clear cl m)) a =
      match newest st a with
      | some v => v
      | none => if inRanges cl a then Mem.unlisted else Mem.get m a := by
  rw [Mem.get_putAll _ (Mem.wf_clear _ h), Mem.get_clear]
  cases newest st a <;> rfl

/-- After a live command a byte reads as its effect left it. -/
theorem State.readByte_run {s : State} (h : s.settled) {f : State → State} (hm : (f s).mem = s.mem) (a : Nat) :
    (s.run f).readByte a = (f s).readByte a := by
  rw [State.run_eq h]
  simp only [State.readByte, newest, inRanges, List.any_nil, Bool.false_eq_true, if_false]
  rw [State.readByte_landed h.1, hm]
  rfl

end Sys2Proof.Machine
end

