-- ==== Sys2Proof/Laws/Starts.lean ====
section
/-! SUPPORT. What the acceptance of a command does: the sequencer, the ring or node it comes from, and the new started
command. -/
namespace Sys2Proof.Machine

theorem State.trace1_eq (s : State) (m : TraceMsg) : s.trace1 m = { s with trace := (s.trace1 m).trace } := by
  simp only [State.trace1]; split
  · split <;> rfl
  · rfl

/-- A trace event changes the trace unit alone, and takes a free number. -/
theorem State.event_eq (s : State) (src ev : Nat) (p : Option Nat) (a b c : Nat) :
    ∃ tr, s.event src ev p a b c = { s with free := s.free + 1, trace := tr } := by
  simp only [State.event, State.takeFree]
  rw [State.trace1_eq]
  exact ⟨_, rfl⟩

/-- A free sequencer is found, where one is free. -/
theorem State.takeSeqr_eq (s : State) (h : s.freeSeqrs ≠ []) :
    ∃ q, s.takeSeqr none = (some q, { s with free := s.free + 1, accepted := q :: s.accepted }) := by
  simp only [State.takeSeqr, State.takeOne, State.takeFree]
  have hl : 0 < s.freeSeqrs.length := List.length_pos_iff.2 h
  rw [List.getElem?_eq_getElem (Nat.mod_lt _ hl)]
  exact ⟨_, rfl⟩

theorem State.freeSeqrs_of_turn {s : State} {r : List Nat} (h : s.turn r = true) : s.freeSeqrs ≠ [] := by
  intro h0
  simp [State.turn, h0] at h

/-- Issuing a fetch sends a read to the host or presents one at the memory port. -/
theorem State.issueFetch_eq (s : State) (k : Nat) : ∃ o a, s.issueFetch k = { s with out := o, arb := a } := by
  simp only [State.issueFetch]
  split
  · exact ⟨s.out, s.arb, rfl⟩
  · split
    · exact ⟨s.out, s.arb, rfl⟩
    · split
      · exact ⟨_, s.arb, rfl⟩
      · exact ⟨s.out, _, rfl⟩

/-- The acceptance of a ready entry in its turn; the ring's next fetch may be issued. -/
theorem State.takeEntry_eq {s : State} {p r : Nat} {x : Ring} {st : Staged} (hs : s.stop.stopped = false)
    (hr : s.ring? (pkey p r) = some x) (hst : x.staged = some st) (hready : s.entryReady (pkey p r) x = true)
    (hturn : s.turn x.rank = true) :
    ∃ q tr o a, s.takeEntry p r none = some (s.nextWork,
      { s with out := o, arb := a
               rings := Tbl.adjust s.rings (pkey p r) fun r => r.accept (lenOf st.words),
               works := Tbl.set s.works s.nextWork { x.entryWork p r s.tick st with
                 report := if isQuery (opcodeOf st.words) then s.queryReport p st.words else [] }, nextWork := s.nextWork + 1,
               free := s.free + 2, trace := tr, accepted := q :: s.accepted }) := by
  obtain ⟨q, hq⟩ := s.takeSeqr_eq (State.freeSeqrs_of_turn hturn)
  simp only [State.takeEntry, hr, hst, hs, hready, hturn, hq, Bool.not_true, Bool.or_self, Bool.false_eq_true, if_false]
  obtain ⟨o, a, hf⟩ := State.issueFetch_eq (State.adjRing { s with free := s.free + 1, accepted := q :: s.accepted } (pkey p r)
    fun r => r.accept (lenOf st.words)) (pkey p r)
  rw [hf]
  obtain ⟨tr, ht⟩ := State.event_eq _ (768 + q) 0x03 (some p) (x.no + 2 ^ 16 * opcodeOf st.words + 2 ^ 24 * classOf st.words)
    ((x.lastSeq + 1) % 2 ^ 32) ((x.lastSeq + 1) / 2 ^ 32)
  exact ⟨q, tr, o, a, by rw [ht]; rfl⟩

/-- The acceptance of a ready node in its turn. -/
theorem State.takeNode_eq {s : State} {l i en t : Nat} {y : Launch} {d : DescSt} {pin : Kern}
    (hs : s.stop.stopped = false) (hl : s.launch? l = some y) (hn : y.nodes.getD i .outside = .waiting en (some t) d pin)
    (hready : s.nodeMay y i = true) (hturn : s.turn [t, 0, y.cls, y.order, i] = true) :
    ∃ q, s.takeNode l i none = some (s.nextWork,
      { s with works := Tbl.set s.works s.nextWork (s.nodeWork y l i d pin), nextWork := s.nextWork + 1,
               launches := Tbl.adjust s.launches l fun x => { x with nodes := x.nodes.set i (.running s.nextWork) },
               free := s.free + 1, accepted := q :: s.accepted }, d) := by
  obtain ⟨q, hq⟩ := s.takeSeqr_eq (State.freeSeqrs_of_turn hturn)
  simp only [State.takeNode, hl, hn, hs, hready, hturn, hq, Bool.not_true, Bool.or_self, Bool.false_eq_true, if_false,
    State.addWork]
  exact ⟨q, rfl⟩

/-- Noting what a sequencer runs changes that note alone. -/
theorem State.noteRun_eq (s : State) (w : Nat) : ∃ l, s.noteRun w = { s with ran := l } := by
  simp only [State.noteRun]
  split
  · exact ⟨_, rfl⟩
  · exact ⟨s.ran, rfl⟩

@[simp] theorem State.work?_noteRun (s : State) (w v : Nat) : (s.noteRun w).work? v = s.work? v := by
  obtain ⟨l, h⟩ := s.noteRun_eq w; rw [h]; rfl

theorem Tbl.adjust_id {α : Type} (t : Tbl α) (n : Nat) : Tbl.adjust t n (fun x => x) = t := by
  induction t with
  | nil => rfl
  | cons e t ih =>
    simp only [Tbl.adjust, List.map_cons] at ih ⊢
    rw [ih]; split <;> rfl

/-- A parked command that holds a sequencer, or whose turn it is, goes on with it: only the sequencers and the note of its wait
change before. -/
theorem State.withSeqr_goes {s : State} {w : Nat} {x : Work} (hx : s.work? w = some x)
    (h : s.onSeqr w = true ∨ s.turn (s.backRank x) = true) :
    ∃ (n : Nat) (a : List Nat) (r : List (Nat × Nat × Nat × Nat)) (g : Work → Work), (∀ y, ∃ v, g y = { y with seqFrom := v }) ∧
      ∀ act, s.withSeqr w act = act { s with free := n, accepted := a, ran := r, works := Tbl.adjust s.works w g } := by
  by_cases ho : s.onSeqr w = true
  · refine ⟨s.free, s.accepted, s.ran, fun y => y, fun y => ⟨y.seqFrom, rfl⟩, fun act => ?_⟩
    rw [Tbl.adjust_id]
    simp only [State.withSeqr, ho, if_true]
  · have ht := h.resolve_left ho
    obtain ⟨q, hq⟩ := s.takeSeqr_eq (State.freeSeqrs_of_turn ht)
    obtain ⟨l, hl⟩ := State.noteRun_eq (State.adjWork { s with free := s.free + 1, accepted := q :: s.accepted } w
      fun x => { x with seqFrom := none }) w
    refine ⟨s.free + 1, q :: s.accepted, l, fun y => { y with seqFrom := none }, fun y => ⟨none, rfl⟩, fun act => ?_⟩
    simp only [State.withSeqr, ho, Bool.false_eq_true, if_false, hx, ht, if_true, hq]
    rw [hl]; rfl

/-- One whose turn it is not waits as a candidate from this boundary on. -/
theorem State.withSeqr_waits {s : State} {w : Nat} {x : Work} (hx : s.work? w = some x) (ho : s.onSeqr w = false)
    (ht : s.turn (s.backRank x) = false) (act : State → State) :
    s.withSeqr w act = s.adjWork w fun x => { x with seqFrom := some (x.seqFrom.getD s.tick) } := by
  simp only [State.withSeqr, ho, Bool.false_eq_true, if_false, hx, ht]

@[simp] theorem State.work?_phase (s : State) (w : Nat) (ph : Phase) :
    (s.phase w ph).work? w = (s.work? w).map fun x => { x with phase := ph } := s.work?_adjWork_same w _

@[simp] theorem State.work?_decideEnd (s : State) (w : Nat) (r : Res) :
    (s.decideEnd w r).work? w = (s.work? w).map fun x => { x with phase := .decided r (s.tick + 1) } := s.work?_adjWork_same w _

@[simp] theorem State.work?_pinEpoch (s : State) (w : Nat) :
    (s.pinEpoch w).work? w = (s.work? w).map (Work.pinEpoch s.epoch) := s.work?_adjWork_same w _

/-- Using a place in host memory changes the cached translations alone. -/
theorem State.useLoc_eq (ck : Nat) (s : State) (l : Loc) : ∃ tr, State.useLoc ck s l = { s with transl := tr } := by
  cases l with
  | dev o a => exact ⟨s.transl, rfl⟩
  | host a =>
    simp only [State.useLoc, State.useHost]
    split
    · exact ⟨_, rfl⟩
    · exact ⟨s.transl, rfl⟩

theorem State.useLocs_eq (ck : Nat) (ls : List Loc) (s : State) : ∃ tr, foldS ls (State.useLoc ck) s = { s with transl := tr } := by
  induction ls generalizing s with
  | nil => exact ⟨s.transl, rfl⟩
  | cons l ls ih =>
    obtain ⟨tr, h⟩ := State.useLoc_eq ck s l
    obtain ⟨tr', h'⟩ := ih (State.useLoc ck s l)
    refine ⟨tr', ?_⟩
    simp only [foldS, List.foldl_cons] at h' ⊢
    rw [h', h]

/-- Holding places changes the command and the cached translations. -/
theorem State.hold_eq (s : State) (w : Nat) (ls : List Loc) : ∃ tr, s.hold w ls =
    { s with transl := tr, works := Tbl.adjust s.works w fun x => { x with locs := ls, pins := x.pins ++ locNums ls } } := by
  obtain ⟨tr, h⟩ := State.useLocs_eq (s.ckOf w) ls s
  refine ⟨tr, ?_⟩
  simp only [State.hold]
  rw [h]; rfl

@[simp] theorem State.work?_hold (s : State) (w : Nat) (ls : List Loc) :
    (s.hold w ls).work? w = (s.work? w).map fun x => { x with locs := ls, pins := x.pins ++ locNums ls } := by
  obtain ⟨tr, h⟩ := s.hold_eq w ls
  rw [h]; simp only [State.work?, Tbl.get?_adjust_same]

@[simp] theorem State.tick_hold (s : State) (w : Nat) (ls : List Loc) : (s.hold w ls).tick = s.tick := by
  obtain ⟨tr, h⟩ := s.hold_eq w ls
  rw [h]; rfl

/-- The routine of an accepted command that passes its checks begins its work. -/
theorem State.runRoutine_passes {s : State} {w : Nat} {x : Work} {d : DescSt} (hx : s.work? w = some x) (h : s.passes x) :
    s.runRoutine w d = s.begin_ w x d := by
  obtain ⟨h, hw⟩ := h
  simp only [State.runRoutine, hx]
  cases he : s.entryChk x with
  | some r => rw [he] at h; cases h
  | none =>
    cases ho : s.ownChk x with
    | some r => rw [he, ho] at h; cases h
    | none =>
      cases ha : isAdmin (opcodeOf x.cmd) with
      | false => rfl
      | true => simp [hw ha]

/-- That of one that fails a check decides its end. -/
theorem State.runRoutine_fails {s : State} {w : Nat} {x : Work} {d : DescSt} {r : Res} (hx : s.work? w = some x)
    (hw : isAdmin (opcodeOf x.cmd) = true → s.adminWaits x.part = false) (h : firstOf [s.entryChk x, s.ownChk x] = some r) :
    s.runRoutine w d = s.decideEnd w r := by
  simp only [State.runRoutine, hx]
  cases he : s.entryChk x with
  | some q => rw [he] at h; cases h; rfl
  | none =>
    cases ho : s.ownChk x with
    | none => rw [he, ho] at h; cases h
    | some q =>
      rw [he, ho] at h; cases h
      cases ha : isAdmin (opcodeOf x.cmd) with
      | false => rfl
      | true => simp [hw ha]

/-- A start runs the routine of the command that it accepts. -/
theorem State.startAt_accepts {s s1 : State} {at_ : Site} {op w : Nat} {e : Cmd} {x : Work} {d : DescSt}
    (h : s.accepts at_ op e w s1 x d) : s.startAt at_ op e = s1.runRoutine w d := by
  obtain ⟨h1, -, -⟩ := h
  cases at_ with
  | ring p r =>
    obtain ⟨⟨k, st, hr, hst, hw⟩, s0, h0, rfl, rfl⟩ := h1
    simp only [State.startAt, hr, hst, hw, if_true, State.startEntry, h0, State.runOrPark]
  | node l i =>
    obtain ⟨⟨y, hy, hb⟩, s0, h0, rfl⟩ := h1
    simp only [State.startAt, hy, hb, if_true, State.releaseNode, h0, State.runOrPark]

theorem State.startAt_passes {s s1 : State} {at_ : Site} {op w : Nat} {e : Cmd} {x : Work} {d : DescSt}
    (h : s.accepts at_ op e w s1 x d) (hp : s1.passes x) : s.startAt at_ op e = s1.begin_ w x d := by
  rw [State.startAt_accepts h, State.runRoutine_passes h.2.1 hp]

/-- Acceptance changes only what starts use. -/
theorem State.takeEntry_around {s s0 : State} {p r w : Nat} (h : s.takeEntry p r none = some (w, s0)) :
    s0.aroundStart = s.aroundStart := by
  simp only [State.takeEntry] at h
  split at h
  · cases h
  · split at h
    · cases h
    · split at h
      · cases h
      · split at h
        · cases h
        · rename_i q s1 hq
          have h1 : ∃ n l, s1 = { s with free := n, accepted := l } := by
            simp only [State.takeSeqr, State.takeOne, State.takeFree] at hq
            split at hq <;> cases hq; exact ⟨_, _, rfl⟩
          obtain ⟨n, l, rfl⟩ := h1
          cases h
          obtain ⟨tr, ht⟩ := State.event_eq _ _ _ _ _ _ _
          rw [ht]
          obtain ⟨o, a, hf⟩ := State.issueFetch_eq (State.adjRing { s with free := n, accepted := l } (pkey p r)
            fun r => r.accept (lenOf _)) (pkey p r)
          rw [hf]; rfl

theorem State.takeNode_around {s s0 : State} {l i w : Nat} {d : DescSt} (h : s.takeNode l i none = some (w, s0, d)) :
    s0.aroundStart = s.aroundStart := by
  simp only [State.takeNode] at h
  split at h
  · cases h
  · split at h
    · split at h
      · cases h
      · split at h
        · cases h
        · rename_i q s1 hq
          have h1 : ∃ n l, s1 = { s with free := n, accepted := l } := by
            simp only [State.takeSeqr, State.takeOne, State.takeFree] at hq
            split at hq <;> cases hq; exact ⟨_, _, rfl⟩
          obtain ⟨n, l, rfl⟩ := h1
          cases h; rfl
    · cases h

theorem State.noteRun_around (s : State) (w : Nat) : (s.noteRun w).aroundStart = s.aroundStart := by
  obtain ⟨l, h⟩ := s.noteRun_eq w; rw [h]; rfl

theorem State.accepts_around {s s1 : State} {at_ : Site} {op w : Nat} {e : Cmd} {x : Work} {d : DescSt}
    (h : s.accepts at_ op e w s1 x d) : s1.aroundStart = s.aroundStart := by
  obtain ⟨h1, -, -⟩ := h
  cases at_ with
  | ring p r =>
    obtain ⟨-, s0, h0, rfl, -⟩ := h1
    rw [State.noteRun_around]; exact State.takeEntry_around h0
  | node l i =>
    obtain ⟨-, s0, h0, rfl⟩ := h1
    rw [State.noteRun_around]; exact State.takeNode_around h0

end Sys2Proof.Machine
end

