-- ==== Sys2Proof/Tests/Slice0.lean ====
section
/-! SUPPORT. Tests. A small machine after boot, with one partition that has one of everything. For every statement with hypotheses a
theorem witness_<statement> shows a state and operands that meet them, clause by clause, at the ends of their ranges; smoke_<check>
shows an ill-formed command for each check; test_<what> is one small step whose result is worked out from the rule it names. -/
namespace Sys2Proof.Tests
set_option Elab.async false
open Sys2Proof Sys2Proof.Machine

/-! ### A small machine -/

/-- A command: opcode, LEN and fields by byte. -/
def mk (op len : Nat) (fs : List (Nat × Nat)) : Cmd :=
  (List.range (2 * len)).map fun i =>
    BitVec.ofNat 64 (sumNat (((0, op + 256 * len) :: fs).map fun f => if f.1 / 8 = i then f.2 * 2 ^ (8 * (f.1 % 8)) else 0))

/-- A partition with room for everything. -/
def part0 : Part :=
  { Part.reset with
    enable := true, vf := true, up := true, reserved := true, pages0 := [(0, 100)]
    quota := { rings := 100, contexts := 100, resMin := 4, nodes := 100, fences := 100, graphs := 10, storeKib := 1000,
               requests := 4096, hotrowMib := 1, tables := 10, mem0 := 100, mem1 := 0 } }

/-- A context with one handle. -/
def ctxWith (no pasid : Nat) : Ctx := { Ctx.fresh no pasid true with handles := [(0, { gen := 0, obj := some 0, retired := false })] }

/-- An active ring with an entry staged. -/
def ringWith (no ctx slot : Nat) (e : Cmd) : Ring :=
  { Ring.fresh no ctx with
    state := .active, sizeLog2 := 8, slot := some slot, sliceLeft := 4, slice := 8, pi := 1, sampled := 1
    staged := some { idx := 0, words := e, since := 0 } }

/-- An own fence. -/
def fence0 : Fence :=
  { no := 0, kind := .own, value := 5, failed := false, signal := true, synced := false, draining := false, low := 0, sat := 0,
    last := 0, changed := false }

/-- A READY graph of one NOP node. -/
def graph0 : Graph :=
  { part := 0, num := some 3, state := .ready, loadStatus := 0, loadDetail := 0, slots := 1, tag := 0, npred := [0], succ := [[]],
    cur := 1, gens := [{ no := 1, bodies := [mk 0 1 []], blocks := [] }], kib := 1, launchesDone := 0, bodyBase := 0,
    shownNodes := 1, shownWindow := 1 }

/-- An expert layer of two experts. -/
def layer0 : Layer :=
  { nexp := 2, bias := [0, 0], frozen := false, snapshot := false, rate := 0x3A83126F, limit := 0x3F800000, key := 9, gen := 1,
    offered := [0, 0], spilled := [0, 0], lastOffered := [0, 0], ran := false, routes := 0, spills := 0, residual := 0,
    periods := 0, born := 0 }

/-- A persistent task with an empty queue. -/
def task0 : Task :=
  { ctx := pkey 0 1, eps := [0], queue := 0, queueOff := 0, queueHost := false, idle := [0], kernel := 0, itemBytes := 16, depth := 16, itemNs := 100, segUs := 10,
    tail := 0, items := [], failed := none, ending := none }

/-- A READY table of two rows. -/
def table0 : Table :=
  { part := 0, num := some 1, state := .ready, rowBytes := 32, format := 0, rows := 2, shards := 1, chip0 := 0, shard := 0, tier := 0,
    cache := 0, shadow := 2, key := 0, slots := 0, map := 0, loadSrc := none, loadFence := none, loadStatus := 0, loadDetail := 0,
    openRows := [], openFailed := false, committed := none, stages := [], stageStatus := 0, stageDetail := 0, stageElem := 0,
    lastEpoch := 0 }

/-- The machine after boot. -/
def up : State :=
  { State.reset with
    boot := { State.reset.boot with phase := .up }, cfg := { State.reset.cfg with segMaxUs := 10, sliceTicks := 8, stackCount := 4 } }

/-- The machine with one partition, an entry staged in ring `r`. -/
def world (r : Nat) (e : Cmd) : State :=
  { up with
    parts := [(0, part0)]
    ctxs := [(pkey 0 0, ctxWith 0 7), (pkey 0 1, ctxWith 1 8), (pkey 0 2, Ctx.fresh 2 9 false)]
    rings := [(pkey 0 r, ringWith r (pkey 0 (min r 1)) 0 e), (pkey 0 2, Ring.fresh 2 (pkey 0 1))]
    objs := [(0, { part := 0, tier := 0, size := 2 ^ 20, pages := [0] })], nextObj := 1
    fences := [(pkey 0 1, fence0)], graphs := [(0, graph0)], nextGraph := 1
    pleach := { State.reset.pleach with layers := [(pkey 0 4, layer0)] }
    tasks := [(pkey 0 2, task0)], tables := [(0, table0)], nextTable := 1 }

/-- A staged entry is accepted and passes its checks, whatever the free values are. -/
theorem accepted (S : State) (p r op : Nat) (e : Cmd) (x : Ring) (P : State → Work → Prop) (h0 : S.live)
    (h1 : S.stop.stopped = false) (h2 : S.ring? (pkey p r) = some x) (h3 : x.staged = some { idx := 0, words := withOpcode op e, since := 0 })
    (h4 : S.entryReady (pkey p r) x = true) (h5 : S.turn x.rank = true) (h6 : opcodeOf (withOpcode op e) = op)
    (h7 : ∀ (fr : Nat) (tr : TraceUnit) (ac : List Nat) (rn : List (Nat × Nat × Nat × Nat)) (o : List Out) (ar : Arb)
      (rep : List Byte),
      let y := { x.entryWork p r S.tick { idx := 0, words := withOpcode op e, since := 0 } with report := rep }
      let t := { S with
        out := o, arb := ar
        rings := Tbl.adjust S.rings (pkey p r) fun k => k.accept (lenOf (withOpcode op e))
        works := Tbl.set S.works S.nextWork y, nextWork := S.nextWork + 1, free := fr, trace := tr, accepted := ac, ran := rn }
      (isQuery op = false → rep = []) → t.passes y ∧ P t y) :
    S.live ∧ ∃ w s1 y, S.accepts (.ring p r) op e w s1 y .notNeeded ∧ s1.passes y ∧ P s1 y := by
  refine ⟨h0, ?_⟩
  obtain ⟨q, tr, o, ar, h⟩ := State.takeEntry_eq h1 h2 h3 h4 h5
  obtain ⟨rn, hr⟩ := State.noteRun_eq { S with
    out := o, arb := ar
    rings := Tbl.adjust S.rings (pkey p r) fun k => k.accept (lenOf (withOpcode op e))
    works := Tbl.set S.works S.nextWork { x.entryWork p r S.tick { idx := 0, words := withOpcode op e, since := 0 } with
      report := if isQuery (opcodeOf (withOpcode op e)) then S.queryReport p (withOpcode op e) else [] }
    nextWork := S.nextWork + 1, free := S.free + 2, trace := tr, accepted := q :: S.accepted } S.nextWork
  obtain ⟨h8, h9⟩ := h7 (S.free + 2) tr (q :: S.accepted) rn o ar
    (if isQuery (opcodeOf (withOpcode op e)) then S.queryReport p (withOpcode op e) else [])
    (fun hq => by rw [h6, hq]; rfl)
  refine ⟨S.nextWork, _, _,
    ⟨⟨⟨x, _, h2, h3, rfl⟩, _, h, hr.symm, rfl⟩, ?_, h6⟩, h8, h9⟩
  exact Tbl.get?_set_same _ _ _

/-- Some command is accepted from ring `r` of partition 0, passes its checks, and meets `P`. -/
def Begins (S : State) (r op : Nat) (e : Cmd) (P : State → Work → Prop) : Prop :=
  S.live ∧ ∃ w s1 y, S.accepts (.ring 0 r) op e w s1 y .notNeeded ∧ s1.passes y ∧ P s1 y

/-- The state in which the routine of an accepted entry begins, for given free values. -/
def began (S : State) (r : Nat) (e : Cmd) (fr : Nat) (tr : TraceUnit) (ac : List Nat) (rn : List (Nat × Nat × Nat × Nat)) (o : List Out)
    (ar : Arb) (rep : List Byte) : State :=
  { S with
    out := o, arb := ar
    rings := Tbl.adjust S.rings (pkey 0 r) fun k => k.accept (lenOf e)
    works := Tbl.set S.works S.nextWork { (ringWith r (pkey 0 (min r 1)) 0 e).entryWork 0 r S.tick { idx := 0, words := e, since := 0 } with report := rep }
    nextWork := S.nextWork + 1, free := fr, trace := tr, accepted := ac, ran := rn }

/-- The command that a staged entry starts. -/
def workOf (S : State) (r : Nat) (e : Cmd) (rep : List Byte) : Work :=
  { (ringWith r (pkey 0 (min r 1)) 0 e).entryWork 0 r S.tick { idx := 0, words := e, since := 0 } with report := rep }

/-- What the checks of a start answer. -/
def chks (S : State) (x : Work) : Option Res := firstOf [S.entryChk x, S.ownChk x]

/-- No check looks at a query's report. -/
theorem chks_report (S : State) (x : Work) (rep : List Byte) : chks S { x with report := rep } = chks S x := rfl

/-- A staged entry of the small machine begins. -/
theorem begins (S : State) (r op : Nat) (e : Cmd) (P : State → Work → Prop) (h0 : S.live) (h1 : S.stop.stopped = false)
    (h2 : S.ring? (pkey 0 r) = some (ringWith r (pkey 0 (min r 1)) 0 (withOpcode op e)))
    (h4 : S.entryReady (pkey 0 r) (ringWith r (pkey 0 (min r 1)) 0 (withOpcode op e)) = true)
    (h5 : S.turn (ringWith r (pkey 0 (min r 1)) 0 (withOpcode op e)).rank = true) (h6 : opcodeOf (withOpcode op e) = op)
    (h7 : chks (began S r (withOpcode op e) 0 S.trace [] [] S.out S.arb []) (workOf S r (withOpcode op e) []) = none)
    (h8 : ∀ fr tr ac rn o ar rep, (isQuery op = false → rep = []) →
      chks (began S r (withOpcode op e) fr tr ac rn o ar rep) (workOf S r (withOpcode op e) []) =
      chks (began S r (withOpcode op e) 0 S.trace [] [] S.out S.arb []) (workOf S r (withOpcode op e) []))
    (h9 : S.adminWaits 0 = false)
    (h10 : ∀ fr tr ac rn o ar rep, (isQuery op = false → rep = []) → P (began S r (withOpcode op e) fr tr ac rn o ar rep) (workOf S r (withOpcode op e) rep)) : Begins S r op e P :=
  accepted S 0 r op e _ P h0 h1 h2 rfl h4 h5 h6 fun fr tr ac rn o ar rep hq =>
    ⟨⟨(chks_report _ _ _).trans ((h8 fr tr ac rn o ar rep hq).trans h7), fun _ => h9⟩, h10 fr tr ac rn o ar rep hq⟩

/-- The small machine whose fence is homed on another chip. -/
def worldFar (r : Nat) (e : Cmd) : State :=
  { world r e with fences := [(pkey 0 1, { fence0 with kind := .remoteImport 2 0 9 })] }

/-- A persistent task whose queue lies in host memory. -/
def hostTask : Task := { task0 with queueHost := true, queueOff := 0x8000 }

/-- The small machine with that task. -/
def worldHost (r : Nat) (e : Cmd) : State := { world r e with tasks := [(pkey 0 2, hostTask)] }

theorem witness_begins_nop : Begins (world 1 (mk 0x00 1 [])) 1 0x00 (mk 0x00 1 [])
    (fun _ _ => True) :=
  begins _ _ _ _ _ ⟨⟨rfl, rfl, rfl⟩, rfl⟩ rfl rfl rfl rfl rfl (by decide +kernel) (fun _ _ _ _ _ _ _ h => by cases h rfl; rfl) rfl
    fun _ _ _ _ _ _ _ _ => trivial

theorem witness_begins_fenceWait : Begins (world 1 (mk 0x08 2 [(8, 1), (16, 5)])) 1 0x08 (mk 0x08 2 [(8, 1), (16, 5)])
    (fun _ y => y.abort = none) :=
  begins _ _ _ _ _ ⟨⟨rfl, rfl, rfl⟩, rfl⟩ rfl rfl rfl rfl rfl (by decide +kernel) (fun _ _ _ _ _ _ _ h => by cases h rfl; rfl) rfl
    (fun _ _ _ _ _ _ _ h => by cases h rfl; exact rfl)

theorem witness_begins_fenceSignal : Begins (world 1 (mk 0x09 2 [(8, 1), (16, 6)])) 1 0x09 (mk 0x09 2 [(8, 1), (16, 6)])
    (fun s1 y => s1.isRemote (pkey y.part (fld y.cmd 8 0 20)) = false) :=
  begins _ _ _ _ _ ⟨⟨rfl, rfl, rfl⟩, rfl⟩ rfl rfl rfl rfl rfl (by decide +kernel) (fun _ _ _ _ _ _ _ h => by cases h rfl; rfl) rfl
    (fun _ _ _ _ _ _ _ h => by cases h rfl; exact rfl)

theorem witness_begins_fenceSignal_far : Begins (worldFar 1 (mk 0x09 2 [(8, 1), (16, 6)])) 1 0x09 (mk 0x09 2 [(8, 1), (16, 6)])
    (fun s1 y => s1.isRemote (pkey y.part (fld y.cmd 8 0 20)) = true) :=
  begins _ _ _ _ _ ⟨⟨rfl, rfl, rfl⟩, rfl⟩ rfl rfl rfl rfl rfl (by decide +kernel) (fun _ _ _ _ _ _ _ h => by cases h rfl; rfl) rfl
    (fun _ _ _ _ _ _ _ h => by cases h rfl; exact rfl)

theorem witness_begins_writeValue : Begins (world 1 (mk 0x0A 3 [(24, 1), (32, 7)])) 1 0x0A (mk 0x0A 3 [(24, 1), (32, 7)])
    (fun _ _ => True) :=
  begins _ _ _ _ _ ⟨⟨rfl, rfl, rfl⟩, rfl⟩ rfl rfl rfl rfl rfl (by decide +kernel) (fun _ _ _ _ _ _ _ h => by cases h rfl; rfl) rfl
    fun _ _ _ _ _ _ _ _ => trivial

theorem witness_begins_timestamp : Begins (world 1 (mk 0x0C 2 [])) 1 0x0C (mk 0x0C 2 [])
    (fun _ _ => True) :=
  begins _ _ _ _ _ ⟨⟨rfl, rfl, rfl⟩, rfl⟩ rfl rfl rfl rfl rfl (by decide +kernel) (fun _ _ _ _ _ _ _ h => by cases h rfl; rfl) rfl
    fun _ _ _ _ _ _ _ _ => trivial

theorem witness_begins_launch : Begins (world 1 (mk 0x01 2 [(8, 3)])) 1 0x01 (mk 0x01 2 [(8, 3)])
    (fun s1 y => s1.graphOf y.part (fld y.cmd 8 0 13) = some 0 ∧ s1.graph? 0 = some graph0) :=
  begins _ _ _ _ _ ⟨⟨rfl, rfl, rfl⟩, rfl⟩ rfl rfl rfl rfl rfl (by decide +kernel) (fun _ _ _ _ _ _ _ h => by cases h rfl; rfl) rfl
    (fun _ _ _ _ _ _ _ h => by cases h rfl; exact ⟨rfl, rfl⟩)

theorem witness_begins_dispatch : Begins (world 1 (mk 0x02 6 [(24, 1), (72, 1), (76, 1)])) 1 0x02 (mk 0x02 6 [(24, 1), (72, 1), (76, 1)])
    (fun _ y => persistOf y.cmd = false) :=
  begins _ _ _ _ _ ⟨⟨rfl, rfl, rfl⟩, rfl⟩ rfl rfl rfl rfl rfl (by decide +kernel) (fun _ _ _ _ _ _ _ h => by cases h rfl; rfl) rfl
    (fun _ _ _ _ _ _ _ h => by cases h rfl; exact rfl)

theorem witness_begins_dispatch_persist : Begins (world 1 (mk 0x02 6 [(24, 1), (76, 1), (82, 1), (83, 3), (84, 16), (86, 4)])) 1 0x02 (mk 0x02 6 [(24, 1), (76, 1), (82, 1), (83, 3), (84, 16), (86, 4)])
    (fun s1 y => persistOf y.cmd = true ∧ (s1.readByte (s1.locAddr (s1.mrefLoc y.ck y.cmd 40))).toNat = tgtEngine y.cmd) :=
  begins _ _ _ _ _ ⟨⟨rfl, rfl, rfl⟩, rfl⟩ rfl rfl rfl rfl rfl (by decide +kernel) (fun _ _ _ _ _ _ _ h => by cases h rfl; rfl) rfl
    (fun _ _ _ _ _ _ _ h => by cases h rfl; exact ⟨rfl, rfl⟩)

theorem witness_begins_copy : Begins (world 1 (mk 0x0B 4 [(24, 65536), (40, 4096), (48, 1)])) 1 0x0B (mk 0x0B 4 [(24, 65536), (40, 4096), (48, 1)])
    (fun _ _ => True) :=
  begins _ _ _ _ _ ⟨⟨rfl, rfl, rfl⟩, rfl⟩ rfl rfl rfl rfl rfl (by decide +kernel) (fun _ _ _ _ _ _ _ h => by cases h rfl; rfl) rfl
    fun _ _ _ _ _ _ _ _ => trivial

theorem witness_begins_gather : Begins (world 1 (mk 0x03 5 [(56, 1), (68, 32)])) 1 0x03 (mk 0x03 5 [(56, 1), (68, 32)])
    (fun _ _ => True) :=
  begins _ _ _ _ _ ⟨⟨rfl, rfl, rfl⟩, rfl⟩ rfl rfl rfl rfl rfl (by decide +kernel) (fun _ _ _ _ _ _ _ h => by cases h rfl; rfl) rfl
    fun _ _ _ _ _ _ _ _ => trivial

theorem witness_begins_route : Begins (world 1 (mk 0x04 5 [(56, 1), (60, 2), (62, 1), (68, 4)])) 1 0x04 (mk 0x04 5 [(56, 1), (60, 2), (62, 1), (68, 4)])
    (fun s1 y => ∃ l, s1.layer? (roLayer y.part y.cmd) = some l) :=
  begins _ _ _ _ _ ⟨⟨rfl, rfl, rfl⟩, rfl⟩ rfl rfl rfl rfl rfl (by decide +kernel) (fun _ _ _ _ _ _ _ h => by cases h rfl; rfl) rfl
    (fun _ _ _ _ _ _ _ h => by cases h rfl; exact ⟨layer0, (by decide +kernel : ((world 1 (mk 0x04 5 [(56, 1), (60, 2), (62, 1), (68, 4)])).layer? (roLayer (workOf (world 1 (mk 0x04 5 [(56, 1), (60, 2), (62, 1), (68, 4)])) 1 (withOpcode 0x04 (mk 0x04 5 [(56, 1), (60, 2), (62, 1), (68, 4)])) []).part (workOf (world 1 (mk 0x04 5 [(56, 1), (60, 2), (62, 1), (68, 4)])) 1 (withOpcode 0x04 (mk 0x04 5 [(56, 1), (60, 2), (62, 1), (68, 4)])) []).cmd)) = some layer0)⟩)

theorem witness_begins_groupedMm : Begins (world 1 (mk 0x05 8 [(24, 1), (104, 256), (112, 1), (114, 16), (116, 16), (120, 1)])) 1 0x05 (mk 0x05 8 [(24, 1), (104, 256), (112, 1), (114, 16), (116, 16), (120, 1)])
    (fun _ _ => True) :=
  begins _ _ _ _ _ ⟨⟨rfl, rfl, rfl⟩, rfl⟩ rfl rfl rfl rfl rfl (by decide +kernel) (fun _ _ _ _ _ _ _ h => by cases h rfl; rfl) rfl
    fun _ _ _ _ _ _ _ _ => trivial

theorem witness_begins_cond : Begins (world 1 (mk 0x0D 4 [(8, 1), (24, 8), (48, 3), (51, 128)])) 1 0x0D (mk 0x0D 4 [(8, 1), (24, 8), (48, 3), (51, 128)])
    (fun _ _ => True) :=
  begins _ _ _ _ _ ⟨⟨rfl, rfl, rfl⟩, rfl⟩ rfl rfl rfl rfl rfl (by decide +kernel) (fun _ _ _ _ _ _ _ h => by cases h rfl; rfl) rfl
    fun _ _ _ _ _ _ _ _ => trivial

theorem witness_begins_loop : Begins (world 1 (mk 0x0E 5 [(24, 4), (48, 3), (52, 1)])) 1 0x0E (mk 0x0E 5 [(24, 4), (48, 3), (52, 1)])
    (fun _ _ => True) :=
  begins _ _ _ _ _ ⟨⟨rfl, rfl, rfl⟩, rfl⟩ rfl rfl rfl rfl rfl (by decide +kernel) (fun _ _ _ _ _ _ _ h => by cases h rfl; rfl) rfl
    fun _ _ _ _ _ _ _ _ => trivial

theorem witness_begins_feed : Begins (world 1 (mk 0x10 2 [(8, 2), (10, 1), (12, 16)])) 1 0x10 (mk 0x10 2 [(8, 2), (10, 1), (12, 16)])
    (fun s1 y => ∃ k, s1.task? (feedTask y.part y.cmd) = some k) :=
  begins _ _ _ _ _ ⟨⟨rfl, rfl, rfl⟩, rfl⟩ rfl rfl rfl rfl rfl (by decide +kernel) (fun _ _ _ _ _ _ _ h => by cases h rfl; rfl) rfl
    (fun _ _ _ _ _ _ _ h => by cases h rfl; exact ⟨task0, (by decide +kernel : ((world 1 (mk 0x10 2 [(8, 2), (10, 1), (12, 16)])).task? (feedTask (workOf (world 1 (mk 0x10 2 [(8, 2), (10, 1), (12, 16)])) 1 (withOpcode 0x10 (mk 0x10 2 [(8, 2), (10, 1), (12, 16)])) []).part (workOf (world 1 (mk 0x10 2 [(8, 2), (10, 1), (12, 16)])) 1 (withOpcode 0x10 (mk 0x10 2 [(8, 2), (10, 1), (12, 16)])) []).cmd)) = some task0)⟩)

theorem witness_begins_feed_host : Begins (worldHost 1 (mk 0x10 2 [(8, 2), (10, 1), (12, 16)])) 1 0x10 (mk 0x10 2 [(8, 2), (10, 1), (12, 16)])
    (fun s1 y => ∃ k, s1.task? (feedTask y.part y.cmd) = some k ∧ k.queueHost = true) :=
  begins _ _ _ _ _ ⟨⟨rfl, rfl, rfl⟩, rfl⟩ rfl rfl rfl rfl rfl (by decide +kernel) (fun _ _ _ _ _ _ _ h => by cases h rfl; rfl) rfl
    (fun _ _ _ _ _ _ _ h => by cases h rfl; exact ⟨hostTask, (by decide +kernel : ((worldHost 1 (mk 0x10 2 [(8, 2), (10, 1), (12, 16)])).task? (feedTask (workOf (worldHost 1 (mk 0x10 2 [(8, 2), (10, 1), (12, 16)])) 1 (withOpcode 0x10 (mk 0x10 2 [(8, 2), (10, 1), (12, 16)])) []).part (workOf (worldHost 1 (mk 0x10 2 [(8, 2), (10, 1), (12, 16)])) 1 (withOpcode 0x10 (mk 0x10 2 [(8, 2), (10, 1), (12, 16)])) []).cmd)) = some hostTask), rfl⟩)

theorem witness_begins_ctxCreate : Begins (world 0 (mk 0xC0 1 [(8, 5), (12, 11)])) 0 0xC0 (mk 0xC0 1 [(8, 5), (12, 11)])
    (fun _ _ => True) :=
  begins _ _ _ _ _ ⟨⟨rfl, rfl, rfl⟩, rfl⟩ rfl rfl rfl rfl rfl (by decide +kernel) (fun _ _ _ _ _ _ _ h => by cases h rfl; rfl) rfl
    fun _ _ _ _ _ _ _ _ => trivial

theorem witness_begins_ctxDestroy : Begins (world 0 (mk 0xC1 1 [(8, 2)])) 0 0xC1 (mk 0xC1 1 [(8, 2)])
    (fun _ _ => True) :=
  begins _ _ _ _ _ ⟨⟨rfl, rfl, rfl⟩, rfl⟩ rfl rfl rfl rfl rfl (by decide +kernel) (fun _ _ _ _ _ _ _ h => by cases h rfl; rfl) rfl
    fun _ _ _ _ _ _ _ _ => trivial

theorem witness_begins_ringCreate : Begins (world 0 (mk 0xC2 4 [(8, 5), (10, 1), (12, 8), (16, 4096), (24, 65536), (32, 131072), (40, 6)])) 0 0xC2 (mk 0xC2 4 [(8, 5), (10, 1), (12, 8), (16, 4096), (24, 65536), (32, 131072), (40, 6)])
    (fun _ _ => True) :=
  begins _ _ _ _ _ ⟨⟨rfl, rfl, rfl⟩, rfl⟩ rfl rfl rfl rfl rfl (by decide +kernel) (fun _ _ _ _ _ _ _ h => by cases h rfl; rfl) rfl
    fun _ _ _ _ _ _ _ _ => trivial

theorem witness_begins_ringConfig : Begins (world 0 (mk 0xC3 2 [(8, 2), (10, 7), (12, 3), (13, 64), (16, 1000)])) 0 0xC3 (mk 0xC3 2 [(8, 2), (10, 7), (12, 3), (13, 64), (16, 1000)])
    (fun _ _ => True) :=
  begins _ _ _ _ _ ⟨⟨rfl, rfl, rfl⟩, rfl⟩ rfl rfl rfl rfl rfl (by decide +kernel) (fun _ _ _ _ _ _ _ h => by cases h rfl; rfl) rfl
    fun _ _ _ _ _ _ _ _ => trivial

theorem witness_begins_ringDestroy : Begins (world 0 (mk 0xC4 1 [(8, 2)])) 0 0xC4 (mk 0xC4 1 [(8, 2)])
    (fun _ _ => True) :=
  begins _ _ _ _ _ ⟨⟨rfl, rfl, rfl⟩, rfl⟩ rfl rfl rfl rfl rfl (by decide +kernel) (fun _ _ _ _ _ _ _ h => by cases h rfl; rfl) rfl
    fun _ _ _ _ _ _ _ _ => trivial

theorem witness_begins_ringQuery : Begins (world 0 (mk 0xC5 2 [(8, 2)])) 0 0xC5 (mk 0xC5 2 [(8, 2)])
    (fun _ _ => True) :=
  begins _ _ _ _ _ ⟨⟨rfl, rfl, rfl⟩, rfl⟩ rfl rfl rfl rfl rfl (by decide +kernel) (fun _ _ _ _ _ _ _ _ => rfl) rfl
    fun _ _ _ _ _ _ _ _ => trivial

theorem witness_begins_abort : Begins (world 0 (mk 0xC6 2 [(8, 2), (12, 1)])) 0 0xC6 (mk 0xC6 2 [(8, 2), (12, 1)])
    (fun _ _ => True) :=
  begins _ _ _ _ _ ⟨⟨rfl, rfl, rfl⟩, rfl⟩ rfl rfl rfl rfl rfl (by decide +kernel) (fun _ _ _ _ _ _ _ h => by cases h rfl; rfl) rfl
    fun _ _ _ _ _ _ _ _ => trivial

theorem witness_begins_graphLoad : Begins (world 0 (mk 0xC8 3 [(8, 4), (32, 96), (39, 128)])) 0 0xC8 (mk 0xC8 3 [(8, 4), (32, 96), (39, 128)])
    (fun _ _ => True) :=
  begins _ _ _ _ _ ⟨⟨rfl, rfl, rfl⟩, rfl⟩ rfl rfl rfl rfl rfl (by decide +kernel) (fun _ _ _ _ _ _ _ h => by cases h rfl; rfl) rfl
    fun _ _ _ _ _ _ _ _ => trivial

theorem witness_begins_graphPatch : Begins (world 0 (mk 0xC9 3 [(8, 3), (10, 1), (34, 8)])) 0 0xC9 (mk 0xC9 3 [(8, 3), (10, 1), (34, 8)])
    (fun _ _ => True) :=
  begins _ _ _ _ _ ⟨⟨rfl, rfl, rfl⟩, rfl⟩ rfl rfl rfl rfl rfl (by decide +kernel) (fun _ _ _ _ _ _ _ h => by cases h rfl; rfl) rfl
    fun _ _ _ _ _ _ _ _ => trivial

theorem witness_begins_graphUnload : Begins (world 0 (mk 0xCA 1 [(8, 3)])) 0 0xCA (mk 0xCA 1 [(8, 3)])
    (fun _ _ => True) :=
  begins _ _ _ _ _ ⟨⟨rfl, rfl, rfl⟩, rfl⟩ rfl rfl rfl rfl rfl (by decide +kernel) (fun _ _ _ _ _ _ _ h => by cases h rfl; rfl) rfl
    fun _ _ _ _ _ _ _ _ => trivial

theorem witness_begins_graphQuery : Begins (world 0 (mk 0xCB 2 [(8, 3)])) 0 0xCB (mk 0xCB 2 [(8, 3)])
    (fun _ _ => True) :=
  begins _ _ _ _ _ ⟨⟨rfl, rfl, rfl⟩, rfl⟩ rfl rfl rfl rfl rfl (by decide +kernel) (fun _ _ _ _ _ _ _ _ => rfl) rfl
    fun _ _ _ _ _ _ _ _ => trivial

theorem witness_begins_fenceAlloc : Begins (world 0 (mk 0xD0 2 [(8, 2), (16, 7)])) 0 0xD0 (mk 0xD0 2 [(8, 2), (16, 7)])
    (fun _ _ => True) :=
  begins _ _ _ _ _ ⟨⟨rfl, rfl, rfl⟩, rfl⟩ rfl rfl rfl rfl rfl (by decide +kernel) (fun _ _ _ _ _ _ _ h => by cases h rfl; rfl) rfl
    fun _ _ _ _ _ _ _ _ => trivial

theorem witness_begins_fenceFree : Begins (world 0 (mk 0xD1 1 [(8, 1)])) 0 0xD1 (mk 0xD1 1 [(8, 1)])
    (fun _ _ => True) :=
  begins _ _ _ _ _ ⟨⟨rfl, rfl, rfl⟩, rfl⟩ rfl rfl rfl rfl rfl (by decide +kernel) (fun _ _ _ _ _ _ _ h => by cases h rfl; rfl) rfl
    fun _ _ _ _ _ _ _ _ => trivial

theorem witness_begins_fenceExport : Begins (world 0 (mk 0xD2 2 [(8, 1), (14, 3), (16, 9)])) 0 0xD2 (mk 0xD2 2 [(8, 1), (14, 3), (16, 9)])
    (fun _ _ => True) :=
  begins _ _ _ _ _ ⟨⟨rfl, rfl, rfl⟩, rfl⟩ rfl rfl rfl rfl rfl (by decide +kernel) (fun _ _ _ _ _ _ _ h => by cases h rfl; rfl) rfl
    fun _ _ _ _ _ _ _ _ => trivial

theorem witness_begins_fenceImport : Begins (world 0 (mk 0xD3 2 [(8, 2), (14, 3), (16, 9)])) 0 0xD3 (mk 0xD3 2 [(8, 2), (14, 3), (16, 9)])
    (fun _ _ => True) :=
  begins _ _ _ _ _ ⟨⟨rfl, rfl, rfl⟩, rfl⟩ rfl rfl rfl rfl rfl (by decide +kernel) (fun _ _ _ _ _ _ _ h => by cases h rfl; rfl) rfl
    fun _ _ _ _ _ _ _ _ => trivial

theorem witness_begins_fenceQuery : Begins (world 0 (mk 0xD4 2 [(8, 1)])) 0 0xD4 (mk 0xD4 2 [(8, 1)])
    (fun _ _ => True) :=
  begins _ _ _ _ _ ⟨⟨rfl, rfl, rfl⟩, rfl⟩ rfl rfl rfl rfl rfl (by decide +kernel) (fun _ _ _ _ _ _ _ _ => rfl) rfl
    fun _ _ _ _ _ _ _ _ => trivial

theorem witness_begins_memAlloc : Begins (world 0 (mk 0xD8 2 [(8, 1), (12, 1), (16, 4096)])) 0 0xD8 (mk 0xD8 2 [(8, 1), (12, 1), (16, 4096)])
    (fun _ _ => True) :=
  begins _ _ _ _ _ ⟨⟨rfl, rfl, rfl⟩, rfl⟩ rfl rfl rfl rfl rfl (by decide +kernel) (fun _ _ _ _ _ _ _ h => by cases h rfl; rfl) rfl
    fun _ _ _ _ _ _ _ _ => trivial

theorem witness_begins_memFree : Begins (world 0 (mk 0xD9 1 [(8, 1)])) 0 0xD9 (mk 0xD9 1 [(8, 1)])
    (fun _ _ => True) :=
  begins _ _ _ _ _ ⟨⟨rfl, rfl, rfl⟩, rfl⟩ rfl rfl rfl rfl rfl (by decide +kernel) (fun _ _ _ _ _ _ _ h => by cases h rfl; rfl) rfl
    fun _ _ _ _ _ _ _ _ => trivial

theorem witness_begins_tableCreate : Begins (world 0 (mk 0xE0 5 [(8, 2), (10, 32), (13, 8), (23, 128), (32, 2)])) 0 0xE0 (mk 0xE0 5 [(8, 2), (10, 32), (13, 8), (23, 128), (32, 2)])
    (fun _ _ => True) :=
  begins _ _ _ _ _ ⟨⟨rfl, rfl, rfl⟩, rfl⟩ rfl rfl rfl rfl rfl (by decide +kernel) (fun _ _ _ _ _ _ _ h => by cases h rfl; rfl) rfl
    fun _ _ _ _ _ _ _ _ => trivial

theorem witness_begins_tableStage : Begins (world 0 (mk 0xE1 4 [(8, 1), (12, 1), (51, 128)])) 0 0xE1 (mk 0xE1 4 [(8, 1), (12, 1), (51, 128)])
    (fun _ _ => True) :=
  begins _ _ _ _ _ ⟨⟨rfl, rfl, rfl⟩, rfl⟩ rfl rfl rfl rfl rfl (by decide +kernel) (fun _ _ _ _ _ _ _ h => by cases h rfl; rfl) rfl
    fun _ _ _ _ _ _ _ _ => trivial

theorem witness_begins_tableCommit : Begins (world 0 (mk 0xE2 2 [(8, 1), (15, 128)])) 0 0xE2 (mk 0xE2 2 [(8, 1), (15, 128)])
    (fun _ _ => True) :=
  begins _ _ _ _ _ ⟨⟨rfl, rfl, rfl⟩, rfl⟩ rfl rfl rfl rfl rfl (by decide +kernel) (fun _ _ _ _ _ _ _ h => by cases h rfl; rfl) rfl
    fun _ _ _ _ _ _ _ _ => trivial

theorem witness_begins_tableDestroy : Begins (world 0 (mk 0xE3 1 [(8, 1)])) 0 0xE3 (mk 0xE3 1 [(8, 1)])
    (fun _ _ => True) :=
  begins _ _ _ _ _ ⟨⟨rfl, rfl, rfl⟩, rfl⟩ rfl rfl rfl rfl rfl (by decide +kernel) (fun _ _ _ _ _ _ _ h => by cases h rfl; rfl) rfl
    fun _ _ _ _ _ _ _ _ => trivial

theorem witness_begins_tableQuery : Begins (world 0 (mk 0xE4 2 [(8, 1)])) 0 0xE4 (mk 0xE4 2 [(8, 1)])
    (fun _ _ => True) :=
  begins _ _ _ _ _ ⟨⟨rfl, rfl, rfl⟩, rfl⟩ rfl rfl rfl rfl rfl (by decide +kernel) (fun _ _ _ _ _ _ _ _ => rfl) rfl
    fun _ _ _ _ _ _ _ _ => trivial

theorem witness_begins_expertLayerCreate : Begins (world 0 (mk 0xE8 2 [(8, 5), (10, 2)])) 0 0xE8 (mk 0xE8 2 [(8, 5), (10, 2)])
    (fun _ _ => True) :=
  begins _ _ _ _ _ ⟨⟨rfl, rfl, rfl⟩, rfl⟩ rfl rfl rfl rfl rfl (by decide +kernel) (fun _ _ _ _ _ _ _ h => by cases h rfl; rfl) rfl
    fun _ _ _ _ _ _ _ _ => trivial

theorem witness_begins_expertLayerDestroy : Begins (world 0 (mk 0xE9 1 [(8, 4)])) 0 0xE9 (mk 0xE9 1 [(8, 4)])
    (fun _ _ => True) :=
  begins _ _ _ _ _ ⟨⟨rfl, rfl, rfl⟩, rfl⟩ rfl rfl rfl rfl rfl (by decide +kernel) (fun _ _ _ _ _ _ _ h => by cases h rfl; rfl) rfl
    fun _ _ _ _ _ _ _ _ => trivial

theorem witness_begins_expertBiasSet : Begins (world 0 (mk 0xEA 3 [(8, 4)])) 0 0xEA (mk 0xEA 3 [(8, 4)])
    (fun _ _ => True) :=
  begins _ _ _ _ _ ⟨⟨rfl, rfl, rfl⟩, rfl⟩ rfl rfl rfl rfl rfl (by decide +kernel) (fun _ _ _ _ _ _ _ h => by cases h rfl; rfl) rfl
    fun _ _ _ _ _ _ _ _ => trivial

theorem witness_begins_expertLayerQuery : Begins (world 0 (mk 0xEB 2 [(8, 4)])) 0 0xEB (mk 0xEB 2 [(8, 4)])
    (fun _ _ => True) :=
  begins _ _ _ _ _ ⟨⟨rfl, rfl, rfl⟩, rfl⟩ rfl rfl rfl rfl rfl (by decide +kernel) (fun _ _ _ _ _ _ _ _ => rfl) rfl
    fun _ _ _ _ _ _ _ _ => trivial

/-! ### The queue, resets and host writes -/

/-- The small machine with a NOP staged in ring 1. -/
def base : State := world 1 (mk 0 1 [])

theorem base_live : base.live := ⟨⟨rfl, rfl, rfl⟩, rfl⟩

/-- A command at the front of the queue. -/
def queued : State := { base with pending := [.pfFlr, .timeExchange] }

theorem witness_StepRunsTheFrontCommand : queued.pending = .pfFlr :: [.timeExchange] ∧ base.pending = [] := ⟨rfl, rfl⟩

theorem witness_MemoryStaysCanonical : base.settled ∧ step base = .next base := ⟨base_live.1, rfl⟩

/-- Module power is gone. -/
def dark : State := { base with boot := { base.boot with unpowered := true } }

theorem witness_NothingHappensWithoutModulePower : dark.settled ∧ dark.boot.unpowered = true ∧ (∀ n, Instr.pfFlr ≠ .powerOnReset n) ∧
    Instr.pfFlr ≠ .calendarSecond ∧ Instr.pfFlr ≠ .backupCellLow ∧ Instr.pfFlr ≠ .crystalStop :=
  ⟨⟨rfl, rfl, rfl⟩, rfl, nofun, nofun, nofun, nofun⟩

theorem witness_HostRingWritesAreQueued : base.live ∧ base.isUp 0 = true ∧ 8191 < 8192 ∧ (base.ring? (pkey 0 1)).isSome = true ∧
    8192 ≤ 8192 ∧ base.ring? (pkey 0 100) = none ∧ base.isUp 127 = false := ⟨base_live, by decide +kernel⟩

theorem witness_PartitionRequestsAreQueued : base.live ∧ 127 < 128 ∧ 128 ≤ 128 ∧
    base.boot.phase = .up ∧ State.reset.live ∧ State.reset.boot.phase ≠ .up ∧ State.reset.boot.phase ≠ .recovery :=
  ⟨base_live, by decide, by decide, rfl, ⟨⟨rfl, rfl, rfl⟩, rfl⟩, by decide, by decide⟩

/-- A ring of 256 granules, of which none has been consumed since granule 2^32 - 6. -/
def wrapped : Ring := { Ring.fresh 1 (pkey 0 1) with state := .active, sizeLog2 := 8, ci := 2 ^ 32 - 6, pi := 2 ^ 32 - 6 }

/-- The small machine with one ring. -/
def withRing (x : Ring) : State := { base with rings := [(pkey 0 1, x)], ctxs := [(pkey 0 1, { ctxWith 1 8 with resident := true })] }

theorem live_withRing (x : Ring) : (withRing x).live := ⟨⟨rfl, rfl, rfl⟩, rfl⟩

theorem witness_PiWriteNeverOverfillsTheRing : (withRing wrapped).resetting 0 = false ∧
    (withRing wrapped).ring? (pkey 0 1) = some wrapped ∧
    ¬ 2 ^ wrapped.sizeLog2 < (250 + 2 ^ 32 - wrapped.ci % 2 ^ 32) % 2 ^ 32 ∧
    2 ^ wrapped.sizeLog2 < (251 + 2 ^ 32 - wrapped.ci % 2 ^ 32) % 2 ^ 32 := by decide +kernel

/-- A ring in a given state. -/
def ringIn (st : RingState) (pi : Nat) : Ring := { Ring.fresh 1 (pkey 0 1) with state := st, sizeLog2 := 8, pi := pi, slot := some 3 }

theorem witness_DoorbellOnAnInactiveRing : ∀ st : RingState, (withRing (ringIn st 1)).resetting 0 = false ∧
    (withRing (ringIn st 1)).ring? (pkey 0 1) = some (ringIn st 1) ∧ (withRing (ringIn st 1)).ringResident (ringIn st 1) = true ∧
    (withRing (ringIn st 1)).ctxLost (ringIn st 1).ctx = false := by
  intro st; cases st <;> decide +kernel

/-- A write that clears a fault waits beside a fault of the same tick. -/
def clearing : State := { base with hostOps := [.clearFault 0 1], later := [.ctxFault (pkey 0 1) 0x21 8 4096] }

theorem witness_FaultClearComesBeforeTheFault : base.ctx? (pkey 0 1) = some (ctxWith 1 8) ∧ base.live ∧ base.isUp 0 = true ∧
    clearing.ctx? (pkey 0 1) = some (ctxWith 1 8) ∧ clearing.stop.stopped = false ∧ clearing.stop.held = [] ∧
    clearing.hostOps = [.clearFault 0 1] ∧ clearing.later = [.ctxFault (pkey 0 1) 0x21 8 4096] :=
  ⟨by decide +kernel, base_live, by decide +kernel, by decide +kernel, rfl, rfl, rfl, rfl⟩

/-- A ring in a given state whose context is lost. -/
def withLost (x : Ring) : State := { base with rings := [(pkey 0 1, x)], ctxs := [(pkey 0 1, { ctxWith 1 8 with lost := true })] }

theorem witness_DoorbellOnAnInactiveRing_lost : (withLost (ringIn .disabled 1)).resetting 0 = false ∧
    (withLost (ringIn .disabled 1)).ring? (pkey 0 1) = some (ringIn .disabled 1) ∧
    (withLost (ringIn .disabled 1)).ctxLost (ringIn .disabled 1).ctx = true := by decide +kernel

theorem witness_RingStateCommandsMoveTheRing : ∀ st : RingState, (withRing (ringIn st 1)).resetting 0 = false ∧
    (withRing (ringIn st 1)).ring? (pkey 0 1) = some (ringIn st 1) ∧ (withRing (ringIn st 0)).ring? (pkey 0 1) = some (ringIn st 0) ∧
    (withRing (ringIn st 1)).ctx? (ringIn st 1).ctx = some { ctxWith 1 8 with resident := true } ∧ (ctxWith 1 8).lost = false ∧
    (ringIn st 1).pi ≠ (ringIn st 1).ci ∧ (ringIn st 0).pi = (ringIn st 0).ci ∧ (1 : Nat) < 2 ^ 20 ∧
    (withLost (ringIn st 1)).ring? (pkey 0 1) = some (ringIn st 1) ∧
    (withLost (ringIn st 1)).ctx? (ringIn st 1).ctx = some { ctxWith 1 8 with lost := true } := by
  intro st; cases st <;> decide +kernel

/-- A COMPLETION_BLOCKED ring that was in a given state, without or with a completion word held back. -/
def blockedIn (st : RingState) (h : Option Hold) : Ring := { ringIn .blocked 1 with before := st, hold := h }

/-- A completion word held back. -/
def wordHold : Hold := { st := .unanswered 0, lead := none, recs := [], word := some 5, events := [] }

theorem witness_RingStateCommandsMoveTheRing_resume : (withRing (blockedIn .active none)).ring? (pkey 0 1) = some (blockedIn .active none) ∧
    (withRing (blockedIn .stopped none)).ring? (pkey 0 1) = some (blockedIn .stopped none) ∧
    (withRing (blockedIn .active (some wordHold))).ring? (pkey 0 1) = some (blockedIn .active (some wordHold)) ∧
    failsAt [] (pkey 0 1) = none ∧ (blockedIn .active (some wordHold)).cseqLoc = false := by decide +kernel

/-- The admin ring of the small machine, DISABLED, with given registers. -/
def adminAt (a : AdminRegs) : State :=
  { base with
    rings := [(pkey 0 0, Ring.fresh 0 (pkey 0 0))]
    parts := [(0, { part0 with admin := a, quota := part0.quota })] }

theorem witness_RingStateCommandsMoveTheRing_admin : (adminAt AdminRegs.zero).ring? (pkey 0 0) = some (Ring.fresh 0 (pkey 0 0)) ∧
    (adminAt AdminRegs.zero).ctx? (pkey 0 0) = some (ctxWith 0 7) ∧ (Ring.fresh 0 (pkey 0 0)).state = .disabled ∧
    (adminAt AdminRegs.zero).adminBad 0 = true ∧
    (adminAt { AdminRegs.zero with base := 4096, sizeLog2 := 8, cseq := 65536, err := 131072, errLog2 := 6 }).adminBad 0 = false := by
  decide +kernel

/-! ### Acceptance -/

theorem witness_ReadyEntryIsAccepted : base.live ∧ base.stop.stopped = false ∧
    base.ring? (pkey 0 1) = some (ringWith 1 (pkey 0 1) 0 (mk 0 1 [])) ∧
    (ringWith 1 (pkey 0 1) 0 (mk 0 1 [])).staged = some { idx := 0, words := mk 0 1 [], since := 0 } ∧
    base.entryReady (pkey 0 1) (ringWith 1 (pkey 0 1) 0 (mk 0 1 [])) = true ∧
    base.turn (ringWith 1 (pkey 0 1) 0 (mk 0 1 [])).rank = true := ⟨base_live, by decide +kernel⟩

/-- A launch of a graph with one node, which is ready. -/
def launch0 : Launch :=
  { owner := .start, part := 0, ctx := pkey 0 1, graph := 0, gen := 1, window := 1, cls := 0, ringNo := 0, seq := 0, root := 0,
    depth := 0, order := 0, patches := [], epoch := 1, nodes := [.waiting 0 (some 0) .notNeeded .atStart], failTick := 0, failNode := 0,
    fail := none, killed := false, abort := none, endAt := none }

/-- The small machine with a launch of a graph whose node is the command. -/
def worldNode (e : Cmd) : State :=
  { world 1 (mk 0 1 []) with
    rings := [], launches := [(0, launch0)], nextLaunch := 1, nextWork := 1
    graphs := [(0, { graph0 with gens := [{ no := 1, bodies := [e], blocks := [] }] }), (1, { graph0 with num := some 5 })], nextGraph := 2 }

theorem witness_ReadyNodeIsAccepted : (worldNode (mk 0 1 [])).live ∧ (worldNode (mk 0 1 [])).stop.stopped = false ∧
    (worldNode (mk 0 1 [])).launch? 0 = some launch0 ∧ launch0.nodes.getD 0 .outside = .waiting 0 (some 0) .notNeeded .atStart ∧
    (worldNode (mk 0 1 [])).nodeMay launch0 0 = true ∧ (worldNode (mk 0 1 [])).turn [0, 0, launch0.cls, launch0.order, 0] = true :=
  ⟨⟨⟨rfl, rfl, rfl⟩, rfl⟩, by decide +kernel⟩

/-- The small machine with such a launch, whose node knows of its kernel descriptor what is given. -/
def worldNodeAt (e : Cmd) (d : DescSt) (k : Kern) : State :=
  { worldNode e with launches := [(0, { launch0 with nodes := [.waiting 0 (some 0) d k] })] }

/-- The command that the accepted node starts. -/
def nodeWorkOf (e : Cmd) (d : DescSt) (k : Kern) : Work :=
  (worldNodeAt e d k).nodeWork { launch0 with nodes := [.waiting 0 (some 0) d k] } 0 0 d k

/-- The state in which its routine begins, for given free values. -/
def nodeBegan (e : Cmd) (d : DescSt) (k : Kern) (fr : Nat) (ac : List Nat) (rn : List (Nat × Nat × Nat × Nat)) : State :=
  let S := worldNodeAt e d k
  { S with
    works := Tbl.set S.works S.nextWork (nodeWorkOf e d k), nextWork := S.nextWork + 1
    launches := Tbl.adjust S.launches 0 fun x => { x with nodes := x.nodes.set 0 (.running S.nextWork) }
    free := fr, accepted := ac, ran := rn }

/-- The node is accepted with what it knows of its descriptor, passes its checks, and meets `P`. -/
def NodeBegins (op : Nat) (e : Cmd) (d : DescSt) (k : Kern) (P : State → Work → Prop) : Prop :=
  (worldNodeAt e d k).live ∧ ∃ w s1 y, (worldNodeAt e d k).accepts (.node 0 0) op e w s1 y d ∧ s1.passes y ∧ P s1 y

/-- A node of the small machine begins. -/
theorem nodeBegins (op : Nat) (e : Cmd) (d : DescSt) (k : Kern) (P : State → Work → Prop) (h1 : opcodeOf e = op) (h2 : withOpcode op e = e)
    (h3 : isAdmin op = false)
    (h4 : (worldNodeAt e d k).nodeMay { launch0 with nodes := [.waiting 0 (some 0) d k] } 0 = true)
    (h5 : (worldNodeAt e d k).turn [0, 0, launch0.cls, launch0.order, 0] = true)
    (h6 : chks (nodeBegan e d k 0 [] []) (nodeWorkOf e d k) = none)
    (h7 : ∀ fr ac rn, chks (nodeBegan e d k fr ac rn) (nodeWorkOf e d k) = chks (nodeBegan e d k 0 [] []) (nodeWorkOf e d k))
    (h8 : ∀ fr ac rn, P (nodeBegan e d k fr ac rn) (nodeWorkOf e d k)) : NodeBegins op e d k P := by
  refine ⟨⟨⟨rfl, rfl, rfl⟩, rfl⟩, ?_⟩
  obtain ⟨q, h⟩ := State.takeNode_eq (s := worldNodeAt e d k) (l := 0) (i := 0) (en := 0) (t := 0)
    (y := { launch0 with nodes := [.waiting 0 (some 0) d k] }) (d := d) (pin := k) rfl rfl rfl h4 h5
  obtain ⟨rn, hr⟩ := State.noteRun_eq { worldNodeAt e d k with
    works := Tbl.set (worldNodeAt e d k).works (worldNodeAt e d k).nextWork (nodeWorkOf e d k)
    nextWork := (worldNodeAt e d k).nextWork + 1
    launches := Tbl.adjust (worldNodeAt e d k).launches 0 fun x => { x with nodes := x.nodes.set 0 (.running (worldNodeAt e d k).nextWork) }
    free := (worldNodeAt e d k).free + 1, accepted := q :: (worldNodeAt e d k).accepted } (worldNodeAt e d k).nextWork
  refine ⟨_, nodeBegan e d k ((worldNodeAt e d k).free + 1) (q :: (worldNodeAt e d k).accepted) rn, nodeWorkOf e d k,
    ⟨⟨⟨_, rfl, h2.symm⟩, _, h, hr.symm⟩, rfl, h1⟩, ⟨(h7 _ _ _).trans h6, fun h => ?_⟩, h8 _ _ _⟩
  have h' : isAdmin op = true := h1 ▸ h
  simp [h3] at h'

/-- A CALL_GRAPH node is accepted and passes its checks, and its graph may be launched. -/
theorem witness_begins_callGraph : NodeBegins 0x0F (mk 0x0F 2 [(8, 5)]) .notNeeded .atStart fun s1 y => s1.callerStopped y = false ∧
    s1.graphOf y.part (fld y.cmd 8 0 13) = some 1 ∧
    ∃ g, s1.graph? 1 = some g ∧ g.state = .ready ∧ s1.childDepth y ≤ 8 ∧ s1.slotsFree y.part (1 + g.window) = true :=
  nodeBegins _ _ _ _ _ (by decide +kernel) (by decide +kernel) rfl (by decide +kernel) (by decide +kernel) (by decide +kernel)
    (fun _ _ _ => rfl) fun _ _ _ => ⟨rfl, rfl, { graph0 with num := some 5 }, rfl, rfl,
      (by decide +kernel : (nodeBegan (mk 0x0F 2 [(8, 5)]) .notNeeded .atStart 0 [] []).childDepth (nodeWorkOf (mk 0x0F 2 [(8, 5)]) .notNeeded .atStart) ≤ 8),
      (by decide +kernel : (nodeBegan (mk 0x0F 2 [(8, 5)]) .notNeeded .atStart 0 [] []).slotsFree 0 2 = true)⟩

/-- A DISPATCH node whose descriptor names its engine is accepted and passes its checks. -/
theorem witness_begins_dispatch_node : NodeBegins 0x02 (mk 0x02 6 [(24, 1), (72, 1), (76, 1)])
    (.here (tgtEngine (mk 0x02 6 [(24, 1), (72, 1), (76, 1)]))) (.object 0) fun _ y => persistOf y.cmd = false :=
  nodeBegins _ _ _ _ _ (by decide +kernel) (by decide +kernel) rfl (by decide +kernel) (by decide +kernel) (by decide +kernel)
    (fun _ _ _ => rfl) fun _ _ _ => rfl

/-- So is one that installs a task. -/
theorem witness_begins_dispatch_persist_node : NodeBegins 0x02 (mk 0x02 6 [(24, 1), (76, 1), (82, 1), (83, 3), (84, 16), (86, 4)])
    (.here (tgtEngine (mk 0x02 6 [(24, 1), (76, 1), (82, 1), (83, 3), (84, 16), (86, 4)]))) (.object 0) fun _ y => persistOf y.cmd = true :=
  nodeBegins _ _ _ _ _ (by decide +kernel) (by decide +kernel) rfl (by decide +kernel) (by decide +kernel) (by decide +kernel)
    (fun _ _ _ => rfl) fun _ _ _ => rfl

/-! ### Entries that fail a check -/

/-- A ring with the entry staged at granule `i`. -/
def ringAt (i r : Nat) (e : Cmd) : Ring :=
  { ringWith r (pkey 0 (min r 1)) 0 e with staged := some { idx := i, words := e, since := 0 } }

/-- The small machine with the entry staged at granule `i`. -/
def worldAt (i r : Nat) (e : Cmd) : State :=
  { world r e with rings := [(pkey 0 r, ringAt i r e)] }

/-- The command that the staged entry starts. -/
def workAt (i r : Nat) (e : Cmd) : Work :=
  (ringWith r (pkey 0 (min r 1)) 0 e).entryWork 0 r (worldAt i r e).tick { idx := i, words := e, since := 0 }

/-- The state in which its routine begins. -/
def beganAt (i r : Nat) (e : Cmd) (fr : Nat) (tr : TraceUnit) (ac : List Nat) (rn : List (Nat × Nat × Nat × Nat))
    (o : List Out) (ar : Arb) : State :=
  { worldAt i r e with
    out := o, arb := ar
    rings := Tbl.adjust (worldAt i r e).rings (pkey 0 r) fun k => k.accept (lenOf e)
    works := Tbl.set (worldAt i r e).works (worldAt i r e).nextWork (workAt i r e)
    nextWork := (worldAt i r e).nextWork + 1, free := fr, trace := tr, accepted := ac, ran := rn }

/-- The staged entry is taken, and what follows holds of the state, the command and its ring. -/
def Taken (i r : Nat) (e : Cmd) (P : State → Work → Ring → Prop) : Prop :=
  (worldAt i r e).live ∧ ∃ w s0 x y, (worldAt i r e).takeEntry 0 r none = some (w, s0) ∧ (s0.noteRun w).work? w = some x ∧
    x.site = .ring 0 r ∧ (s0.noteRun w).ring? (pkey 0 r) = some y ∧
    (isAdmin (opcodeOf x.cmd) = true → (s0.noteRun w).adminWaits x.part = false) ∧ P (s0.noteRun w) x y

theorem taken (i r : Nat) (e : Cmd) (y : Ring) (P : State → Work → Ring → Prop) (b : State → Bool)
    (hq : isQuery (opcodeOf e) = false) (hr : (worldAt i r e).ring? (pkey 0 r) = some (ringAt i r e))
    (hready : (worldAt i r e).entryReady (pkey 0 r) (ringAt i r e) = true)
    (hturn : (worldAt i r e).turn (ringAt i r e).rank = true)
    (hadm : (worldAt i r e).adminWaits 0 = false)
    (hy : Tbl.get? (Tbl.adjust (worldAt i r e).rings (pkey 0 r) fun k => k.accept (lenOf e)) (pkey 0 r) = some y)
    (h1 : ∀ fr tr ac rn o ar, b (beganAt i r e fr tr ac rn o ar) = b (beganAt i r e 0 TraceUnit.reset [] [] [] Arb.reset))
    (h2 : b (beganAt i r e 0 TraceUnit.reset [] [] [] Arb.reset) = true)
    (hb : ∀ s, b s = true → P s (workAt i r e) y) : Taken i r e P := by
  refine ⟨⟨⟨rfl, rfl, rfl⟩, rfl⟩, ?_⟩
  obtain ⟨q, tr, o, ar, h⟩ := State.takeEntry_eq (s := worldAt i r e) rfl hr rfl hready hturn
  simp only [hq, Bool.false_eq_true, if_false] at h
  obtain ⟨rn, hn⟩ := State.noteRun_eq (beganAt i r e ((worldAt i r e).free + 2) tr (q :: (worldAt i r e).accepted) (worldAt i r e).ran o ar)
    (worldAt i r e).nextWork
  refine ⟨(worldAt i r e).nextWork, _, workAt i r e, y, h, ?_⟩
  have hs : State.noteRun (beganAt i r e ((worldAt i r e).free + 2) tr (q :: (worldAt i r e).accepted) (worldAt i r e).ran o ar)
      (worldAt i r e).nextWork = beganAt i r e ((worldAt i r e).free + 2) tr (q :: (worldAt i r e).accepted) rn o ar := hn
  refine ⟨?_, rfl, ?_, fun _ => ?_, ?_⟩
  · rw [State.work?_noteRun]; exact Tbl.get?_set_same _ _ _
  · exact (congrArg (fun s => State.ring? s (pkey 0 r)) hs).trans hy
  · exact (congrArg (fun s => State.adminWaits s 0) hs).trans hadm
  · have hP := hb _ ((h1 ((worldAt i r e).free + 2) tr (q :: (worldAt i r e).accepted) rn o ar).trans h2)
    exact hs ▸ hP

/-- The longest entry that fits before the end of the ring passes the first check, and one granule more fails it. -/
theorem witness_FailedCheck_wrap : Taken 255 1 (mk 9 2 []) fun _ x y => 2 ^ y.sizeLog2 < x.idx % 2 ^ y.sizeLog2 + lenOf x.cmd :=
  taken _ _ _ _ _ (fun _ => true) (by decide +kernel) rfl (by decide +kernel) (by decide +kernel) rfl rfl (fun _ _ _ _ _ _ => rfl) rfl
    fun _ _ => by decide +kernel

theorem witness_FailedCheck_header : Taken 254 1 (mk 9 2 [(2, 16)]) fun _ x y =>
    ¬ 2 ^ y.sizeLog2 < x.idx % 2 ^ y.sizeLog2 + lenOf x.cmd ∧ headerOk x.cmd = false :=
  taken _ _ _ _ _ (fun _ => true) (by decide +kernel) rfl (by decide +kernel) (by decide +kernel) rfl rfl (fun _ _ _ _ _ _ => rfl) rfl
    fun _ _ => by decide +kernel

theorem witness_FailedCheck_opcode : Taken 254 1 (mk 6 2 []) fun s x y =>
    ¬ 2 ^ y.sizeLog2 < x.idx % 2 ^ y.sizeLog2 + lenOf x.cmd ∧ headerOk x.cmd = true ∧ s.inDispatch (opcodeOf x.cmd) = false :=
  taken _ _ _ _ _ (fun s => !s.inDispatch 6) (by decide +kernel) rfl (by decide +kernel) (by decide +kernel) rfl rfl (fun _ _ _ _ _ _ => rfl)
    (by decide +kernel) fun _ h => ⟨by decide +kernel, by decide +kernel, (by simpa using h : State.inDispatch _ 6 = false)⟩

theorem witness_FailedCheck_adminElsewhere : Taken 255 1 (mk 0xC1 1 []) fun s x y =>
    ¬ 2 ^ y.sizeLog2 < x.idx % 2 ^ y.sizeLog2 + lenOf x.cmd ∧ headerOk x.cmd = true ∧ s.inDispatch (opcodeOf x.cmd) = true ∧
      (1 : Nat) ≠ 0 ∧ isAdmin (opcodeOf x.cmd) = true :=
  taken _ _ _ _ _ (fun s => s.inDispatch 0xC1) (by decide +kernel) rfl (by decide +kernel) (by decide +kernel) rfl rfl (fun _ _ _ _ _ _ => rfl)
    (by decide +kernel) fun _ h => ⟨by decide +kernel, by decide +kernel, h, by decide +kernel⟩

theorem witness_FailedCheck_notAdmin : Taken 254 0 (mk 9 2 []) fun s x y =>
    ¬ 2 ^ y.sizeLog2 < x.idx % 2 ^ y.sizeLog2 + lenOf x.cmd ∧ headerOk x.cmd = true ∧ s.inDispatch (opcodeOf x.cmd) = true ∧
      isAdmin (opcodeOf x.cmd) = false ∧ opcodeOf x.cmd ≠ 0 :=
  taken _ _ _ _ _ (fun s => s.inDispatch 9) (by decide +kernel) rfl (by decide +kernel) (by decide +kernel) rfl rfl (fun _ _ _ _ _ _ => rfl)
    (by decide +kernel) fun _ h => ⟨by decide +kernel, by decide +kernel, h, by decide +kernel⟩

theorem witness_FailedCheck_len : Taken 253 1 (mk 8 3 []) fun s x y =>
    ¬ 2 ^ y.sizeLog2 < x.idx % 2 ^ y.sizeLog2 + lenOf x.cmd ∧ headerOk x.cmd = true ∧ s.inDispatch (opcodeOf x.cmd) = true ∧
      isAdmin (opcodeOf x.cmd) = false ∧ lenOk x.cmd = false :=
  taken _ _ _ _ _ (fun s => s.inDispatch 8) (by decide +kernel) rfl (by decide +kernel) (by decide +kernel) rfl rfl (fun _ _ _ _ _ _ => rfl)
    (by decide +kernel) fun _ h => ⟨by decide +kernel, by decide +kernel, h, by decide +kernel⟩

theorem witness_FailedCheck_own : Taken 254 1 (mk 8 2 [(8, 50)]) fun s x _ =>
    s.entryChk x = none ∧ s.ownChk x = some (Res.of .access 0x0230) :=
  taken _ _ _ _ _ (fun s => s.entryChk (workAt 254 1 (mk 8 2 [(8, 50)])) == none &&
      s.ownChk (workAt 254 1 (mk 8 2 [(8, 50)])) == some (Res.of .access 0x0230))
    (by decide +kernel) rfl (by decide +kernel) (by decide +kernel) rfl rfl (fun _ _ _ _ _ _ => rfl) (by decide +kernel) fun _ h => by simpa using h

/-! ### Admin commands, fences, partitions -/

theorem witness_AdminEffects_create : opcodeOf (mk 0xC0 1 []) = 0xC0 ∧ opcodeOf (mk 0xC2 4 []) = 0xC2 ∧ opcodeOf (mk 0xC4 1 []) = 0xC4 ∧
    opcodeOf (mk 0xC1 1 []) = 0xC1 ∧ opcodeOf (mk 0xD0 2 []) = 0xD0 ∧ base.ctxNos.length < Config.contexts ∧
    base.ringNos.length < Config.hardRings ∧ base.fences.length < Config.fenceRecords := by decide +kernel

theorem witness_AdminEffects_existing : opcodeOf (mk 0xC3 2 [(8, 1)]) = 0xC3 ∧ (base.ring? (pkey 0 (fld (mk 0xC3 2 [(8, 1)]) 8 0 14))).isSome = true ∧
    opcodeOf (mk 0xD1 1 [(8, 1)]) = 0xD1 ∧ base.fence? (pkey 0 (fenceNo (mk 0xD1 1 [(8, 1)]))) = some fence0 ∧ fence0.kind = .own ∧
    opcodeOf (mk 0xD9 1 [(8, 1)]) = 0xD9 ∧ base.ctx? (pkey 0 (fld (mk 0xD9 1 [(8, 1)]) 8 0 12)) = some (ctxWith 1 8) ∧
    Tbl.get? (ctxWith 1 8).handles (fld (mk 0xD9 1 [(8, 1)]) 12 0 20) = some { gen := 0, obj := some 0, retired := false } := by
  decide +kernel

/-- The small machine with its fence at a value. -/
def withFence (v : Nat) (failed : Bool) : State := { base with fences := [(pkey 0 1, { fence0 with value := v, failed := failed })] }

theorem witness_FencesFollowTheirSignals : (withFence (2 ^ 64 - 1) false).homeOf (pkey 0 1) = pkey 0 1 ∧
    (withFence (2 ^ 64 - 1) false).fence? (pkey 0 1) = some { fence0 with value := 2 ^ 64 - 1 } ∧
    2 ^ 64 ≤ (2 ^ 64 - 1) + 1 ∧ (withFence 5 false).fence? (pkey 0 1) = some fence0 ∧ fence0.value < 6 ∧ 5 ≤ fence0.value ∧
    fence0.value + (2 ^ 64 - 6) < 2 ^ 64 ∧ (withFence 5 true).fence? ((withFence 5 true).homeOf (pkey 0 1)) = some { fence0 with failed := true } := by
  decide +kernel

/-- A disabled partition that asks for so many resident slots, its VF enabled. -/
def withQuota (res : Nat) : State :=
  { base with parts := [(0, part0), (1, { Part.reset with vf := true, quota := { Quota.zero with resMin := res } })] }

theorem witness_PartitionsAreEnabledOnlyIfTheyFit : ((withQuota 252).part 1).enable = false ∧ ((withQuota 252).part 1).teardown = none ∧
    (withQuota 252).enableFits 1 = true ∧ ((withQuota 252).part 1).vf = true ∧ ((withQuota 252).part 1).up = false ∧
    ((withQuota 253).part 1).enable = false ∧ ((withQuota 253).part 1).teardown = none ∧ (withQuota 253).enableFits 1 = false := by
  decide +kernel

/-! ### Fetches and context loads -/

/-- A ring that fetches its entry at granule 3 of so many published ones. -/
def fetching (loc : Bool) (pi : Nat) : Ring :=
  { Ring.fresh 1 (pkey 0 1) with state := .active, sizeLog2 := 8, pi := pi, sampled := pi, fetch := some 3, loc := loc }

theorem witness_FetchedEntries : ∀ loc, (withRing (fetching loc 4)).live ∧ (withRing (fetching loc 4)).stop.stopped = false ∧
    (withRing (fetching loc 4)).ring? (pkey 0 1) = some (fetching loc 4) ∧ (fetching loc 4).fetch = some 3 ∧ (fetching loc 4).stale = 0 ∧
    (withRing { fetching loc 4 with stale := 1 }).ring? (pkey 0 1) = some { fetching loc 4 with stale := 1 } ∧
    ¬ ((fetching loc 4).sampled + 2 ^ 32 - 3 % 2 ^ 32) % 2 ^ 32 < 1 ∧
    (withRing (fetching loc 3)).ring? (pkey 0 1) = some (fetching loc 3) ∧ (fetching loc 3).fetch = some 3 ∧
    ((fetching loc 4).sampled + 2 ^ 32 - 3 % 2 ^ 32) % 2 ^ 32 < 2 :=
  fun loc => ⟨live_withRing _, by cases loc <;> decide +kernel⟩

/-- The small machine with a context load that waits or is going on. -/
def withLoad (on : Bool) : State := { base with loads := [{ key := pkey 0 1, loading := on, waited := !on }] }

theorem witness_ContextLoads : (withLoad false).live ∧ (withLoad false).stop.stopped = false ∧
    (withLoad false).loads = { key := pkey 0 1, loading := false, waited := true } :: [] ∧ (withLoad false).loading < 16 ∧
    (withLoad false).slotsUsed < 256 ∧ (withLoad true).live ∧
    ((withLoad true).loads.any fun l => l.key == pkey 0 1 && l.loading) = true ∧ (withLoad true).later = [] := by
  and_intros <;> first | decide +kernel | exact ⟨⟨rfl, rfl, rfl⟩, rfl⟩

/-! ### Started commands -/

/-- A started command in a phase. -/
def workIn (op : Nat) (ph : Phase) : Work :=
  { Work.fresh (.ring 0 1) 0 (pkey 0 1) 1 1 0 (mk op 2 []) 0 0 .notNeeded with phase := ph, locs := [.dev 0 64] }

/-- The small machine with one started command. -/
def withWork (x : Work) : State := { base with works := [(0, x)], nextWork := 1 }

theorem live_withWork (x : Work) : (withWork x).live := ⟨⟨rfl, rfl, rfl⟩, rfl⟩

/-- The small machine with one started command, every sequencer taken. -/
def allBusy (x : Work) : State := { withWork x with accepted := List.range 32 }

theorem witness_WaitingCommandsGoOn_admin : (withWork (workIn 0xC1 (.io .admin 0))).live ∧ (withWork (workIn 0xC1 (.io .admin 0))).stop.stopped = false ∧
    (withWork (workIn 0xC1 (.io .admin 0))).work? 0 = some (workIn 0xC1 (.io .admin 0)) ∧ (workIn 0xC1 (.io .admin 0)).phase = .io .admin 0 ∧
    0 ≤ (withWork (workIn 0xC1 (.io .admin 0))).tick ∧ (withWork (workIn 0xC1 (.io .admin 0))).adminWaits 0 = false ∧
    (withWork (workIn 0xC1 (.io .admin 0))).turn ((withWork (workIn 0xC1 (.io .admin 0))).backRank (workIn 0xC1 (.io .admin 0))) = true ∧
    (allBusy (workIn 0xC1 (.io .admin 0))).work? 0 = some (workIn 0xC1 (.io .admin 0)) ∧ (allBusy (workIn 0xC1 (.io .admin 0))).onSeqr 0 = false ∧
    (allBusy (workIn 0xC1 (.io .admin 0))).adminWaits 0 = false ∧
    (allBusy (workIn 0xC1 (.io .admin 0))).turn ((allBusy (workIn 0xC1 (.io .admin 0))).backRank (workIn 0xC1 (.io .admin 0))) = false :=
  ⟨live_withWork _, by decide +kernel⟩

theorem witness_WaitingCommandsGoOn_route : (withWork (workIn 4 .unitWait)).live ∧ (withWork (workIn 4 .unitWait)).stop.stopped = false ∧
    (withWork (workIn 4 .unitWait)).work? 0 = some (workIn 4 .unitWait) ∧ (withWork (workIn 4 .unitWait)).nextRoute = some 0 ∧
    (withWork (workIn 4 .unitWait)).unitsBusy < 4 ∧ (workIn 4 .unitWait).abort = none ∧
    (withWork (workIn 4 .unitWait)).turn ((withWork (workIn 4 .unitWait)).backRank (workIn 4 .unitWait)) = true := ⟨live_withWork _, by decide +kernel⟩

/-- A DISPATCH for an engine whose descriptor is being read; the descriptor in memory names engine 0. -/
def dispatching (engine persist : Nat) : Work := { workIn 2 .descriptor with cmd := mk 2 6 [(9, engine), (82, persist)] }

theorem witness_WaitingCommandsGoOn_descriptor : ∀ n ∈ [0, 1], (withWork (dispatching n n)).live ∧ (withWork (dispatching n n)).stop.stopped = false ∧
    (withWork (dispatching n n)).work? 0 = some (dispatching n n) ∧ (dispatching n n).phase = .descriptor ∧
    (withWork (dispatching n n)).turn ((withWork (dispatching n n)).backRank (dispatching n n)) = true ∧
    ((withWork (dispatching 0 n)).readByte ((withWork (dispatching 0 n)).locAddr ((dispatching 0 n).locs.headD (.dev 0 0)))).toNat =
      fld (dispatching 0 n).cmd 9 0 3 ∧ persistOf (dispatching 0 n).cmd = (n == 1) ∧
    ((withWork (dispatching 1 n)).readByte ((withWork (dispatching 1 n)).locAddr ((dispatching 1 n).locs.headD (.dev 0 0)))).toNat ≠
      fld (dispatching 1 n).cmd 9 0 3 :=
  fun n h => ⟨live_withWork _, by revert n; decide +kernel⟩

/-- A node waits for its release while its descriptor is being read, and another command runs. -/
def nodeReading : State := { worldNodeAt (mk 2 6 []) .reading (.object 0) with works := [(0, workIn 2 .running)], nextWork := 1 }

theorem witness_WaitingCommandsGoOn_nodeDescriptor : nodeReading.live ∧ nodeReading.work? 0 = some (workIn 2 .running) ∧
    nodeReading.launch? 0 = some { launch0 with nodes := [.waiting 0 (some 0) .reading (.object 0)] } ∧
    { launch0 with nodes := [.waiting 0 (some 0) .reading (.object 0)] }.nodes.getD 0 .outside = .waiting 0 (some 0) .reading (.object 0) ∧
    (workIn 2 .running).phase ≠ .descriptor ∧ (Kern.object 0).pin = some 0 := ⟨⟨⟨rfl, rfl, rfl⟩, rfl⟩, by decide +kernel⟩

theorem witness_WaitingCommandsGoOn_predicate : (withWork (workIn 0x0D .predRead)).live ∧ (withWork (workIn 0x0D .predRead)).stop.stopped = false ∧
    (withWork (workIn 0x0D .predRead)).work? 0 = some (workIn 0x0D .predRead) ∧ (workIn 0x0D .predRead).phase = .predRead ∧
    (withWork (workIn 0x0D .predRead)).turn ((withWork (workIn 0x0D .predRead)).backRank (workIn 0x0D .predRead)) = true ∧
    (workIn 0x0D .predRead).abort = none := ⟨live_withWork _, by decide +kernel⟩

/-- A WRITE_VALUE whose write of eight bytes is due. -/
def writing : Work := workIn 0x0A (.io (.write 8 7) 0)

theorem witness_WriteValueStoresItsBytes : (withWork writing).live ∧ (withWork writing).stop.stopped = false ∧
    (withWork writing).work? 0 = some writing ∧ writing.phase = .io (.write 8 7) 0 ∧ writing.locs = [.dev 0 64] ∧ 0 ≤ (withWork writing).tick ∧
    isAdmin (opcodeOf writing.cmd) = false ∧ (withWork writing).turn ((withWork writing).backRank writing) = true ∧
    ∀ j < 8, ∀ k < 8, (withWork writing).locAddr (.dev 0 (64 + j)) = (withWork writing).locAddr (.dev 0 (64 + k)) → j = k :=
  ⟨live_withWork _, by decide +kernel⟩

/-- A COND that waits for the reservation of its child, released in the tick before. -/
def waitsChild : Work := workIn 0x0D (.reserve 3 false)

/-- The small machine one tick later, with that COND. -/
def reserving : State := { withWork waitsChild with fab := { base.fab with ftc := 64 } }

/-- An entry that has run for its timeout of 32 us. -/
def tooLong : Work := { workIn 8 (.fenceWait (pkey 0 1) 9 true) with timeoutUs := 32, ticks := 500 }

theorem witness_ChildReservations : reserving.live ∧ reserving.stop.stopped = false ∧ reserving.work? 0 = some waitsChild ∧
    waitsChild.phase = .reserve 3 false ∧ waitsChild.released < reserving.tick ∧ reserving.works.any (reserving.reserveBefore 0) = false ∧
    reserving.callerStopped waitsChild = false ∧
    reserving.turn (reserving.backRank waitsChild) = true ∧ reserving.graphOf 0 3 = some 0 ∧ reserving.graph? 0 = some graph0 ∧ graph0.state = .ready ∧
    reserving.childDepth waitsChild ≤ 8 ∧ reserving.slotsFree 0 (1 + graph0.window) = true :=
  ⟨⟨⟨rfl, rfl, rfl⟩, rfl⟩, by decide +kernel⟩

theorem witness_Timeouts : (withWork tooLong).live ∧ (withWork tooLong).work? 0 = some tooLong ∧ (withWork tooLong).entryBySeq 0 1 1 = some 0 ∧
    tooLong.timedOut = false ∧ tooLong.timeoutUs ≠ 0 ∧ tooLong.timeoutUs * 1000 ≤ tooLong.ticks * 64 := ⟨live_withWork _, by decide +kernel⟩

/-! ### Postings and vectors -/

/-- A ring that holds a completion word. -/
def holding (st : HoldState) : Ring :=
  { Ring.fresh 1 (pkey 0 1) with
    state := .active, cseq := 4096, hold := some { st := st, lead := none, recs := [], word := some 9, events := [] } }

theorem witness_PostingRetriesAndBlocking : ∀ n ∈ [0, 1, 2, 3], (withRing (holding (.unanswered n))).live ∧
    (withRing (holding (.unanswered n))).ring? (pkey 0 1) = some (holding (.unanswered n)) ∧
    ((withRing (holding (.unanswered n))).part 0).counts.recDrop < 2 ^ 32 ∧
    (withRing (holding (.retryIn n 0))).ring? (pkey 0 1) = some (holding (.retryIn n 0)) ∧ (holding (.retryIn n 0)).cseqLoc = false :=
  fun n h => ⟨live_withRing _, by revert n; decide +kernel⟩

/-- The small machine with vector 255 in a state. -/
def withVec (masked pend func : Bool) : State :=
  { base with parts := [(0, { part0 with funcMask := func, vecs := [(255, { Vec.reset with masked := masked, pendingBit := pend })] })] }

theorem witness_MasksAndPendingMessages : (withVec true true false).live ∧ 0 < 128 ∧ 255 < 256 ∧ ((withVec true true false).vec 0 255).pendingBit = true ∧
    ((withVec true true false).part 0).funcMask = false ∧ ((withVec true true true).part 0).funcMask = true ∧
    ((withVec true false false).vec 0 255).pendingBit = false ∧ ((withVec false true true).vec 0 255).pendingBit = true ∧
    ((withVec false true true).vec 0 255).masked = false :=
  ⟨⟨⟨rfl, rfl, rfl⟩, rfl⟩, by decide +kernel⟩

/-- A segment of an instance of the started command 0. -/
def seg0 : Seg := { owner := .work 0 0, first := 0, count := 1, from_ := 0, begun := some 0, segNs := 1000, watched := none, ran := 0 }

/-- The small machine with a page in use or not, and its translation cached or closing. -/
def withTransl (used closing : Bool) : State :=
  { withWork { workIn 2 .running with locs := [.host 0x5000] } with
    atsOn := true, eps := [(0, { Ep.idle with seg := if used then some seg0 else none })], transl := [{ ctx := pkey 0 1, page := 5, closing := closing }] }

theorem witness_TranslationsAreInvalidated : (withTransl true false).live ∧ (withTransl true false).ctx? (pkey 0 1) = some (ctxWith 1 8) ∧
    (withTransl true false).atsOn = true ∧ (withTransl true false).pageUsed (pkey 0 1) 5 0 = true ∧
    (withTransl false false).pageUsed (pkey 0 1) 5 0 = false ∧ (withTransl true false).tick = 0 ∧
    (withTransl true true).transl.filter (fun t => t.ctx == pkey 0 1 && t.page == 5 && t.closing) =
      [{ ctx := pkey 0 1, page := 5, closing := true, at_ := 0 }] ∧ (withTransl true true).pageUsed (pkey 0 1) 5 0 = true ∧
    (withTransl false true).pageUsed (pkey 0 1) 5 0 = false :=
  ⟨⟨⟨rfl, rfl, rfl⟩, rfl⟩, by decide +kernel⟩

/-! ### Flits and time -/

/-- A flit of a kind from chip 3, its CRC right. -/
def flitOf (kind eff : Nat) (w0 : Word) : Flit :=
  let f : Flit := { kind := kind, hops := 5, src := 3, dst := 0, seq := 1, eff := eff, w0 := w0, w1 := 0, w2 := 0, inc := 0, crc := 0 }
  { f with crc := crc32 (flitBytes f) }

/-- The small machine in a synchronised fabric: it is the root, chip 2, or a child of chip 3. -/
def inFabric (root : Bool) (waiting : Bool) : State :=
  { base with
    cfg := { base.cfg with fabric := true, domain := 1 }
    fab := { base.fab with sync := .locked, isRoot := root, rootChip := 2, chip := 0, parent := if root then none else some 3, waitingResp := waiting
                           origin := [(3 * 2 ^ 16 + 1, 0)] } }

theorem live_inFabric (r w : Bool) : (inFabric r w).live := ⟨⟨rfl, rfl, rfl⟩, rfl⟩

theorem witness_UntimedFlitsAreAnswered : ∀ kind ∈ [0x01, 0x7F, 0x7E, 0x02, 0x03, 0x55],
    (inFabric false true).live ∧ (inFabric false true).isDest (flitOf kind 0 0x100030000) = true ∧ flitCrcOk (flitOf kind 0 0x100030000) = true ∧
    (inFabric false true).seenFlit (flitOf kind 0 0x100030000) = false ∧ (flitOf kind 0 0x100030000).eff = 0 ∧
    (flitOf kind 0 0x100030000).kind = kind ∧
    (inFabric false true).fab.parent = some (flitFrom (flitOf kind 0 0x100030000)) ∧ (inFabric false true).fab.waitingResp = true ∧
    (inFabric false true).booting = false ∧ Tbl.get? (inFabric false true).fab.echoes 3 ≠ some 0x100030000 :=
  fun k h => ⟨live_inFabric _ _, by revert k; decide +kernel⟩

/-- The small machine that awaits the answer to a LINK_ECHO of its own from chip 3. -/
def echoing : State := { inFabric false true with fab := { (inFabric false true).fab with echoes := [(3, 0x100030000)] } }

theorem witness_UntimedFlitsAreAnswered_echo : echoing.live ∧ echoing.isDest (flitOf 0x7F 0 0x100030000) = true ∧
    flitCrcOk (flitOf 0x7F 0 0x100030000) = true ∧ echoing.seenFlit (flitOf 0x7F 0 0x100030000) = false ∧
    Tbl.get? echoing.fab.echoes (flitFrom (flitOf 0x7F 0 0x100030000)) = some (flitOf 0x7F 0 0x100030000).w0.toNat :=
  ⟨⟨⟨rfl, rfl, rfl⟩, rfl⟩, by decide +kernel⟩

theorem witness_UntimedFlitsAreAnswered_refusal : (inFabric false true).live ∧
    bitsOf (0x0001000300000000 : Word).toNat 32 16 * 2 ^ 16 + bitsOf (0x0001000300000000 : Word).toNat 48 16 = 3 * 2 ^ 16 + 1 ∧
    Tbl.get? (inFabric false true).fab.origin (3 * 2 ^ 16 + 1) = some 0 := ⟨live_inFabric _ _, by decide +kernel⟩

/-- A root whose chip number is 7. -/
def root7 : State := { inFabric true false with fab := { (inFabric true false).fab with chip := 7 } }

/-- TIME_ANNOUNCE of a root to it. -/
def announce (root : Word) : Flit := let f := { flitOf 3 0 root with dst := 7 }; { f with crc := crc32 (flitBytes { f with crc := 0 }) }

/-- What it has heard once the announce of a neighbour has arrived. -/
def heard (root : Word) : Fab :=
  { root7.fab with
    accepted := Tbl.set root7.fab.accepted 3 (0, 1)
    heard := Tbl.set root7.fab.heard 3 (bitsOf (announce root).w0.toNat 0 15, bitsOf (announce root).w0.toNat 16 8, bitOf (announce root).w0.toNat 24) }

theorem witness_UntimedFlitsAreAnswered_announce : root7.live ∧ root7.isDest (announce 6) = true ∧ flitCrcOk (announce 6) = true ∧
    root7.seenFlit (announce 6) = false ∧ (announce 6).eff = 0 ∧ (announce 6).kind = 0x03 ∧ root7.fab.sync ≠ .free ∧
    (heard 6).best root7.cfg.rootCand = some (6, 1, 3, false) ∧ root7.fab.parent ≠ some 3 ∧ root7.booting = false ∧
    root7.isDest (announce 7) = true ∧ flitCrcOk (announce 7) = true ∧ root7.seenFlit (announce 7) = false ∧ (announce 7).kind = 0x03 ∧
    (heard 7).best root7.cfg.rootCand = none ∧ root7.cfg.rootCand = false ∧ knownKind 0x55 = false :=
  ⟨⟨⟨rfl, rfl, rfl⟩, rfl⟩, by decide +kernel⟩

/-- The small machine that has seen the flit of chip 3. -/
def seenBefore : State := { inFabric false true with fab := { (inFabric false true).fab with accepted := [(3, (0, 1))] } }

theorem witness_RelayedAndRefusedFlits : root7.live ∧ root7.isDest (flitOf 1 0 0) = false ∧ (flitOf 1 0 0).hops ≠ 0 ∧
    root7.isDest { flitOf 1 0 0 with hops := 0 } = false ∧
    ∀ kind ∈ [0x01, 0x03, 0x7F, 0x7E], base.isDest (flitOf kind 0 0) = true ∧ flitCrcOk { flitOf kind 0 0 with crc := 0 } = false ∧
      flitCrcOk (flitOf kind 0 0) = true ∧ seenBefore.seenFlit (flitOf kind 0 0) = true :=
  ⟨⟨⟨rfl, rfl, rfl⟩, rfl⟩, by decide +kernel⟩

/-- A timed flit is due for the next tick, for this tick (late), and as far ahead as is allowed. -/
theorem witness_TimedFlitsWaitForTheirTick : (inFabric false true).live ∧ (inFabric false true).refusesTimed = false ∧
    (inFabric false true).fab.hold.length < 4096 ∧
    ∀ kind ∈ [0x10, 0x11, 0x40, 0x30], ∀ eff ∈ [0, 1, 65536], (inFabric false true).isDest (flitOf kind eff (5 * 2 ^ 32)) = true ∧
      flitCrcOk (flitOf kind eff (5 * 2 ^ 32)) = true ∧ (inFabric false true).seenFlit (flitOf kind eff (5 * 2 ^ 32)) = false ∧
      flitTick (flitOf kind eff (5 * 2 ^ 32)) ≤ (inFabric false true).tick + 65536 ∧
      (eff ≠ 0 → (inFabric false true).tick < flitTick (flitOf kind eff (5 * 2 ^ 32))) ∧
      epochOpOf (flitOf 0x30 eff (5 * 2 ^ 32)) = 5 :=
  ⟨live_inFabric _ _, by decide +kernel⟩

/-- The small machine in a stop since tick 0, which holds back what is named for later ticks. -/
def heldInStop : State :=
  { inFabric false true with stop := { Stop.reset with stopped := true, last := { at_ := 0, reason := 1, scope := 0, id := 7, origin := 0 } } }

theorem witness_TimedFlitsWaitForTheirTick_stop : heldInStop.live ∧ heldInStop.refusesTimed = false ∧ heldInStop.stop.stopped = true ∧
    heldInStop.stop.cut < flitTick (flitOf 0x10 1 0) ∧ heldInStop.isDest (flitOf 0x10 1 0) = true ∧ heldInStop.seenFlit (flitOf 0x10 1 0) = false ∧
    heldInStop.fab.hold.length < 4096 := ⟨⟨⟨rfl, rfl, rfl⟩, rfl⟩, by decide +kernel⟩

/-! ### Endpoints -/

/-- The small machine with one endpoint. -/
def withEp (e : Nat) (x : Ep) : State :=
  { withWork { workIn 2 .running with insts := [{ no := 0, ep := e, items := 1, next := 0, since := 0, running := true, ended := false }] } with
    fab := { base.fab with ftc := 640 }, eps := [(e, x)] }

theorem live_withEp (e : Nat) (x : Ep) : (withEp e x).live := ⟨⟨rfl, rfl, rfl⟩, rfl⟩

/-- The same with a GROUPED_MM. -/
def grouped (e : Nat) (x : Ep) : State := { withEp e x with works := [(0, { workIn 5 .running with insts := ((withEp e x).work? 0).elim [] (·.insts) })] }

/-- An endpoint that may begin a segment. -/
def mayStart : Ep := { Ep.idle with seg := some { seg0 with begun := none, from_ := 10 } }

theorem witness_EndpointsTakeTheirMessages_dispatch : (withEp 525 mayStart).live ∧ (withEp 525 mayStart).ep 525 = mayStart ∧
    mayStart.seg = some { seg0 with begun := none, from_ := 10 } ∧ (withEp 525 mayStart).stop.stopped = false ∧ mayStart.clockStopped = false ∧
    mayStart.hung = false ∧ 10 ≤ (withEp 525 mayStart).tick ∧ mayStart.mayBegin { seg0 with begun := none, from_ := 10 } = 640 ∧
    640 + twoPeriods mayStart.step = 641 ∧ seg0.owner = .work 0 0 ∧ ((withEp 525 mayStart).work? 0).map (fun y => opcodeOf y.cmd) = some 2 ∧
    ((grouped 0 mayStart).work? 0).map (fun y => opcodeOf y.cmd) = some 5 ∧ (grouped 0 mayStart).ep 0 = mayStart ∧ seg0.walked < seg0.count ∧
    (grouped 0 mayStart).tick = 10 :=
  ⟨live_withEp _ _, by decide +kernel⟩

theorem witness_EndpointsTakeTheirMessages_done : ∀ node : Bool, (withEp 0 { Ep.idle with seg := some { seg0 with first := if node then 0 else 1 } }).live ∧
    (withEp 0 { Ep.idle with seg := some { seg0 with first := if node then 0 else 1 } }).ep 0 =
      { Ep.idle with seg := some { seg0 with first := if node then 0 else 1 } } ∧
    (withEp 0 Ep.idle).isFenced (0 / 4) = false ∧ Ep.idle.ended = false ∧ seg0.begun.isSome = true ∧ (withEp 0 Ep.idle).sentBy 0 < 2 ∧
    (withEp 0 Ep.idle).kindFits node { seg0 with first := if node then 0 else 1 } seg0.count = true :=
  fun n => ⟨live_withEp _ _, by cases n <;> decide +kernel⟩

theorem witness_EndpointsTakeTheirMessages_fence : base.live ∧ base.fence? (pkey 0 1) = some fence0 ∧ base.fenceLive 0 1 = true ∧
    fence0.signal = true ∧ base.isRemote (pkey 0 1) = false ∧ base.stop.stopped = false := ⟨base_live, by decide +kernel⟩

theorem witness_EndpointsTakeTheirMessages_abort : ∀ stopped : Bool,
    (withEp 0 { Ep.idle with seg := some seg0, abort := some (false, 9), clockStopped := stopped }).live ∧
    (withEp 0 { Ep.idle with seg := some seg0, abort := some (false, 9), clockStopped := stopped }).ep 0 =
      { Ep.idle with seg := some seg0, abort := some (false, 9), clockStopped := stopped } ∧ 9 < (withEp 0 Ep.idle).tick ∧
    Ep.idle.abortAt = none ∧ Ep.idle.ended = false ∧
    (withEp 0 Ep.idle).stop.stopped = false :=
  fun s => ⟨live_withEp _ _, by cases s <;> decide +kernel⟩

/-- The small machine in a stop, with an endpoint. -/
def stoppedWith (e : Nat) (x : Ep) : State := { withEp e x with stop := { Stop.reset with stopped := true } }

theorem witness_EndpointsTakeTheirMessages_stop : (stoppedWith 525 { Ep.idle with stopSent := true }).live ∧ 525 < 526 ∧
    (stoppedWith 525 { Ep.idle with stopSent := true }).cutting = true ∧ (stoppedWith 525 { Ep.idle with stopSent := true }).stop.stopped = true ∧
    ((stoppedWith 525 { Ep.idle with stopSent := true }).ep 525).stopSent = true ∧
    ((stoppedWith 525 { Ep.idle with stopSent := true }).ep 525).frozen = none ∧
    ((stoppedWith 525 { Ep.idle with stopSent := true }).ep 525).hung = false ∧ 512 ≤ 525 :=
  ⟨⟨⟨rfl, rfl, rfl⟩, rfl⟩, by decide +kernel⟩

/-- Trace is ON, endpoint 511 has reported the end of its segment, and holds a slot or not; the report has been traced or not. -/
def tracing (holds traced : Bool) : State :=
  { withEp 511 { Ep.idle with seg := some { seg0 with part := some 0 }, ended := true } with
    msgs := [{ ep := 511, node := true, r := { (SegReport.cut 511 1 0) with items := 1, ops := [] }, traced := traced }]
    trace := { TraceUnit.reset with
      onTick := true, st := .on, events := 4, classes := 2 ^ 16 - 1, coreLo := 0, coreHi := 127, parts := 1, holders := if holds then [511] else [] } }

/-- The TRACE message of that report. -/
def traceMsg : TraceMsg := { src := 511, event := 2, offset := 0, deferred := true, part := some 0, d0 := 1, d1 := 0, d2 := 2 ^ 16 }

theorem witness_EndpointsTakeTheirMessages_trace : ∀ h : Bool, (tracing h false).live ∧
    (tracing h false).msgs.findIdx? (fun m => m.ep == traceMsg.src && !m.traced) = some 0 ∧ ((tracing h false).msgs[0]?.map (·.ep)) = some 511 ∧
    ((tracing h false).msgs[0]?.map (·.r.fatal)) = some false ∧ ((tracing h false).ep 511).seg = some { seg0 with part := some 0 } ∧
    (tracing h false).trace.onTick = true ∧ (tracing h false).trace.enabled 511 = true ∧ (tracing h false).trace.passes traceMsg = true ∧
    (tracing h false).trace.holders.contains 511 = h ∧ ((tracing h false).trace.sent.any fun y => y.msg.src == 511) = false ∧
    ∀ y ∈ (tracing h true).msgs, y.ep = traceMsg.src → y.traced = true :=
  fun h => ⟨⟨⟨rfl, rfl, rfl⟩, rfl⟩, by cases h <;> decide +kernel⟩

/-- An endpoint's report of so many items, or of a failure, that stored one byte. -/
def reportOf (items code addr : Nat) : SegReport :=
  { (SegReport.cut 0 0 0) with items := items, code := code, stamp := some 0, writes := [(addr, 7)], ops := [] }

/-- An endpoint whose segment began in tick 0, and another whose 2 items have run for their time. -/
def began0 (count : Nat) : Ep := { Ep.idle with seg := some { seg0 with count := count, segNs := 640 } }

theorem witness_ReportsAndMessagesReachMahorn : (withEp 0 (began0 1)).live ∧ (withEp 0 (began0 1)).ep 0 = began0 1 ∧
    (began0 1).seg = some { seg0 with count := 1, segNs := 640 } ∧ seg0.begun = some 0 ∧ (withEp 0 (began0 1)).sentBy 0 < 2 ∧
    (withEp 0 (began0 1)).isFenced (0 / 4) = false ∧
    -- all items are done
    (withEp 0 (began0 1)).kindFits true { seg0 with count := 1, segNs := 640 } (reportOf 1 0 4096).items = true ∧
    (withEp 0 (began0 1)).takesReport true 0 (reportOf 1 0 4096) = true ∧
    -- some are done once the time of a segment has passed
    1 ≤ (reportOf 1 0 4096).items ∧ 640 ≤ 0 + ((withEp 0 (began0 2)).tick * 64 + 63 - max 0 0) ∧
    (withEp 0 { began0 2 with seg := some { seg0 with first := 2, count := 2, segNs := 640 } }).kindFits false
      { seg0 with first := 2, count := 2, segNs := 640 } 1 = true ∧
    -- the segment failed
    (reportOf 0 9 4096).code ≠ 0 ∧ (withEp 0 (began0 1)).takesReport false 0 (reportOf 0 9 4096) = true ∧
    (∀ c ∈ (reportOf 1 0 4096).writes, deviceAddr (withEp 0 Ep.idle).cfg c.1 = true) ∧
    (withEp 0 (began0 1)).takesReport true 0 (reportOf 1 0 (2 ^ 63)) = true ∧
    (∀ c ∈ (reportOf 1 0 (2 ^ 63)).writes, deviceAddr (withEp 0 Ep.idle).cfg c.1 = false) ∧
    -- an engine outside the cores, and a fence
    512 ≤ 525 ∧ (withEp 525 Ep.idle).hubPart 525 (some 0) = true ∧ (withEp 525 Ep.idle).sentBy 525 < 2 ∧ (withEp 525 Ep.idle).takesReport false 525 (reportOf 0 0 4096) = true ∧
    base.fenceLive 0 1 = true ∧ base.maySignal 0 1 = true ∧ base.isRemote (pkey 0 1) = false ∧ base.stop.stopped = false :=
  ⟨live_withEp _ _, by decide +kernel⟩

/-! ### Management, calendar, links, resets, power -/

/-- The small machine without a core that holds the duty PTP. -/
def noPtp : State := { base with fw := { base.fw with duties := base.fw.duties.set 12 (0, true) } }

/-- The small machine without a core that holds the duty SERVICE. -/
def noService : State := { base with fw := { base.fw with duties := base.fw.duties.set 10 (0, true) } }

theorem witness_ManagementWrites : base.live ∧ 0 < 128 ∧ base.isUp 0 = true ∧ (base.duty 10).2 = false ∧ (noService.duty 10).2 = true :=
  ⟨base_live, by decide +kernel⟩

/-- The small machine with PTP on port 2 in domain 24 and a calendar that is set or not, with a write that waits or not. -/
def ptp (invalid : Bool) (set_ : Option (Nat × Nat)) (edge : Nat) : State :=
  { base with cfg := { base.cfg with ptpPort := 2, ptpDomain := 24 }, cal := { base.cal with invalid := invalid, pendingSet := set_, edge := edge } }

theorem witness_TheCalendarKeepsTime : (ptp false (some (5, 6)) 0).live ∧ (ptp false (some (5, 6)) 0).cal.invalid = false ∧
    (ptp false (some (5, 6)) 0).cal.pendingSet = some (5, 6) ∧ (ptp false none 0).cal.pendingSet = none ∧
    (ptp false none 1).ftc * 32768 < (ptp false none 1).cal.edge ∧ (ptp false none 0).cal.edge ≤ (ptp false none 0).ftc * 32768 ∧
    (ptp false none 0).cfg.ptpPort = 1 + 1 ∧ 1 ≤ 1 ∧ 24 = (ptp false none 0).cfg.ptpDomain ∧ 25 ≠ (ptp false none 0).cfg.ptpDomain ∧
    (ptp false none 0).cfg.ptpPort ≠ 0 + 1 ∧ 63 ≤ (ptp false none 0).ftc + 63 ∧ (1000000000 : Int).natAbs ≤ 1000000000 ∧
    1000000000 < (-1000000001 : Int).natAbs ∧ (ptp true none 0).cal.invalid = true ∧
    ((ptp false none 0).duty 12).2 = false ∧ (noPtp.duty 12).2 = true := ⟨⟨⟨rfl, rfl, rfl⟩, rfl⟩, by decide +kernel⟩

/-- The small machine with link 7 to chip 5 up, as a child that exchanges time. -/
def linked : State :=
  { inFabric false false with
    fab := { (inFabric false false).fab with linksUp := 128, links := [(7, (5, 100))], missed := 63, accepted := [(3, (0, 1))] } }

/-- The alignment of boot has gone on for 200 ms. -/
def aligning : State :=
  { inFabric false false with
    fab := { (inFabric false false).fab with sync := .acquiring }
    boot := { base.boot with phase := .fabric, align := 1000, ticks := 1000 + 3125000 } }

theorem witness_LinksAndSynchronisation : linked.live ∧ 7 < 8 ∧ bitOf linked.fab.linksUp 7 = true ∧ 2 ^ 15 - 1 < 2 ^ 15 ∧ linked.cfg.fabric = true ∧
    linked.fab.parent = some 3 ∧ linked.tick % 2 ^ linked.fab.syncPeriod = 0 ∧ linked.fab.sync ≠ .free ∧ linked.once.contains 3 = false ∧
    linked.fab.waitingResp = false ∧ linked.fab.missed < 64 ∧
    (∀ l < 8, l ≠ 7 → bitOf linked.fab.linksUp l = true → (Tbl.getD linked.fab.links l (0, 0)).1 ≠ (Tbl.getD linked.fab.links 7 (0, 0)).1) ∧
    (inFabric true false).fab.parent = none ∧ (inFabric true false).fab.isRoot = true ∧ (inFabric true false).fab.accepted = [] ∧ aligning.boot.phase = .fabric ∧ aligning.cfg.fabric = true ∧
    aligning.fab.sync ≠ .locked ∧ 200000000 ≤ (aligning.boot.ticks - aligning.boot.align) * 64 := ⟨⟨⟨rfl, rfl, rfl⟩, rfl⟩, by decide +kernel⟩

theorem witness_LinksAndSynchronisation_aligning : aligning.live := ⟨⟨rfl, rfl, rfl⟩, rfl⟩

theorem witness_TheTickEndsAtTheNextMultiple : base.live ∧ base.boot.due = none ∧ base.booting = false := ⟨base_live, by decide +kernel⟩

/-- A reset is due. -/
def resetDue : State := { base with boot := { base.boot with due := some (4, 3) } }

theorem witness_ResetsEndEveryVolatileState : resetDue.live ∧ resetDue.boot.due = some (4, 3) ∧
    base.answersConfig = true ∧ State.reset.answersConfig = false := ⟨⟨⟨rfl, rfl, rfl⟩, rfl⟩, rfl, rfl, rfl⟩

theorem witness_ResetsAreAskedForByRegister : base.live ∧ 0x5902 / 2 ^ 8 % 2 ^ 8 ≠ 0x5A ∧ 0x0002 / 2 ^ 8 % 2 ^ 8 ≠ 0x5A := ⟨base_live, by decide⟩

/-- The small machine with every processor RUNNING. -/
def running : State := { base with fw := { base.fw with procs := List.replicate 19 { Proc.reset with st := .running } } }

theorem live_running : running.live := ⟨⟨rfl, rfl, rfl⟩, rfl⟩

/-- It at an emergency level, with the next one due or not. -/
def atLevel (l core : Nat) (due : Option (Nat × Bool)) : State :=
  { running with pwr := { Power.reset with level := l, coreStep := core, due := due } }

theorem witness_EmergencyLevelsAndClocks : (atLevel 0 16 none).live ∧ (atLevel 0 16 none).procUp 9 = true ∧ (atLevel 0 16 none).pwr.due = none ∧
    (atLevel 0 16 none).pwr.level < 2 ∧ (atLevel 0 16 none).cause 0 100 2 = true ∧ (atLevel 0 16 none).cause 851 0 2 = false ∧
    (atLevel 0 16 none).cause 851 0 1 = true ∧ (atLevel 1 8 none).cause 893 0 2 = true ∧ (atLevel 0 16 none).pwr.level ≠ 3 ∧ (atLevel 3 0 (some (2, false))).pwr.level = 3 ∧
    (atLevel 1 16 none).pwr.level = 1 ∧ (atLevel 1 16 none).pwr.clamp = false ∧ (atLevel 1 16 (some (0, false))).pwr.due = some (0, false) ∧ (atLevel 1 16 none).procUp 9 = true ∧ 519 < 520 ∧ 525 < 526 ∧
    (atLevel 0 16 (some (2, false))).pwr.due = some (2, false) :=
  ⟨⟨⟨rfl, rfl, rfl⟩, rfl⟩, by decide +kernel⟩

/-! ### The request service -/

/-- A listener of partition 0 with so many slots in stock. -/
def listenerWith (isOpen : Bool) (stock : List Nat) : Listener :=
  { port := 1, part := 0, ctx := 1, qpFirst := 16, qpCount := 4, pool := 1, obj := 0, slots := 2, slotBytes := 65536, msgMax := 1024,
    respOffset := 32768, openFence := some 1, openValue := 5, isOpen := isOpen, closed := false, seq := 0, stock := stock }

/-- A model of it. -/
def model7 : Model := { id := 7, listener := 0, graph := 3, priorUs := 100, maxCand := 8, tpls := [] }

/-- A request whose header is being read. -/
def request0 (st : ReqState) : Request :=
  { lno := 0, lst := listenerWith true [], opts := [model7], model := some model7, slot := 0, bytes := 128, qpn := 16, rx := 0, arrival := 0, cls := 0, ncand := 8,
    nresult := 8, reqId := 0, deadline := 0, num := 1, held := false, admitted := 0, epoch := 1, st := st }

/-- The small machine with the service in a state, a listener and a request; a request message of 8 candidates and 64 bytes of payload
stands in its slot. -/
def serving (v : Nat) (l : Listener) (st : ReqState) : State :=
  { base with
    mem := [(0, 0x4D), (1, 0x53), (2, 0x52), (3, 0x51), (4, 1), (8, 7), (12, 8), (32, 64)]
    svc := { Svc.reset with st := v, listeners := [(0, l)], models := [model7], requests := [(0, request0 st)], nextReq := 1 } }

theorem live_serving (v : Nat) (l : Listener) (st : ReqState) : (serving v l st).live := ⟨⟨rfl, rfl, rfl⟩, rfl⟩

theorem witness_RequestsEnterTheService_descriptor : (serving 2 (listenerWith true [1]) .reading).live ∧ (2 : Nat) ^ 32 - 1 < 2 ^ 32 ∧ 19 < 2 ^ 24 ∧ 255 < 256 ∧
    (serving 2 (listenerWith true [1]) .reading).listenerFor 1 19 = some (0, listenerWith true [1]) ∧ (listenerWith true [1]).stock.contains 1 = true ∧
    (serving 2 (listenerWith true [1]) .reading).svc.descs = [] := ⟨live_serving _ _ _, by decide +kernel⟩

theorem witness_RequestsEnterTheService_header :
    let s := serving 2 (listenerWith true [1]) .reading
    s.live ∧ s.request? 0 = some (request0 .reading) ∧ (request0 .reading).rx = 0 ∧ s.hdrOk (request0 .reading) = true ∧
    Tbl.get? s.svc.listeners 0 = some (listenerWith true [1]) ∧ (listenerWith true [1]).isOpen = true ∧
    (request0 .reading).lst.closed = false ∧ (request0 .reading).modelFor (s.hdr (request0 .reading) 8 4) = some model7 ∧ s.hdr (request0 .reading) 12 4 ≠ 0 ∧ s.hdr (request0 .reading) 12 4 ≤ model7.maxCand ∧
    s.hdr (request0 .reading) 28 4 ≤ s.hdr (request0 .reading) 12 4 ∧ s.shedNow 0 = false ∧
    s.lateNow { request0 .reading with
      cls := s.hdr (request0 .reading) 6 1 % 16, reqId := s.hdr (request0 .reading) 16 8, ncand := s.hdr (request0 .reading) 12 4, model := some model7, num := 1
      nresult := if s.hdr (request0 .reading) 28 4 = 0 then s.hdr (request0 .reading) 12 4 else s.hdr (request0 .reading) 28 4
      deadline := 0 % 2 ^ 63 + (if s.hdr (request0 .reading) 24 4 = 0 then 5000 else min (s.hdr (request0 .reading) 24 4) 5000) * 1000 } = false :=
  ⟨live_serving _ _ _, by decide +kernel⟩

theorem witness_RequestsEnterTheService_room :
    let s := serving 2 (listenerWith true [1]) .reading
    ∀ z : State, z = { s with svc := { s.svc with requests := Tbl.adjust s.svc.requests 0 fun _ =>
        { request0 .reading with ncand := 8, model := some model7, num := 1, nresult := 8, deadline := 5000000 } } } →
      (z.heldBy fun _ => true) < 4096 ∧ (z.heldBy fun p => p == 0) < (s.part 0).quota.requests := by
  rintro s z rfl; decide +kernel

theorem witness_RequestsEnterTheService_notReady : Tbl.get? (serving 2 (listenerWith true []) .reading).svc.listeners 0 = some (listenerWith true []) ∧
    (listenerWith true []).stock = [] := by decide +kernel

theorem witness_RequestsLeaveTheService_deadline : (serving 2 (listenerWith true []) (.launched 0 0 1)).live ∧
    (serving 2 (listenerWith true []) (.launched 0 0 1)).request? 0 = some (request0 (.launched 0 0 1)) ∧
    (request0 (.launched 0 0 1)).deadline ≤ (serving 2 (listenerWith true []) (.launched 0 0 1)).tick * 64 ∧
    ((serving 2 (listenerWith true []) (.launched 0 0 1)).svcClass 0).lateOk = false := ⟨live_serving _ _ _, by decide +kernel⟩

theorem witness_RequestsLeaveTheService_send : (serving 2 (listenerWith true [1]) .sending).live ∧
    (serving 2 (listenerWith true [1]) .sending).request? 0 = some (request0 .sending) ∧ (request0 .sending).lst.port = 1 ∧
    Tbl.get? (serving 2 (listenerWith true [1]) .sending).svc.listeners 0 = some (listenerWith true [1]) ∧ (listenerWith true [1]).closed = false ∧
    (listenerWith true [1]).same (request0 .sending).lst = true ∧
    (listenerWith true [1]).stock.contains 0 = false ∧ 0 < (listenerWith true [1]).slots := ⟨live_serving _ _ _, by decide +kernel⟩

theorem witness_RequestsLeaveTheService_open : (serving 2 (listenerWith false []) .reading).live ∧
    Tbl.get? (serving 2 (listenerWith false []) .reading).svc.listeners 0 = some (listenerWith false []) ∧
    (serving 2 (listenerWith false []) .reading).svc.st = 2 ∧ (listenerWith false []).isOpen = false ∧ (listenerWith false []).closed = false ∧
    (listenerWith false []).openFence = some 1 ∧ ((serving 2 (listenerWith false []) .reading).fenceView (pkey 0 1)).2 = false ∧
    (listenerWith false []).openValue ≤ ((serving 2 (listenerWith false []) .reading).fenceView (pkey 0 1)).1 := ⟨live_serving _ _ _, by decide +kernel⟩

/-- The service with a listener that may open, its context resident or not, beside 256 resident contexts of partition 1 or none. -/
def opening (resident full : Bool) : State :=
  { serving 2 (listenerWith false []) .reading with
    parts := [(0, part0), (1, { part0 with quota := { part0.quota with resMin := 256 } })]
    ctxs := (pkey 0 1, { ctxWith 1 8 with resident := resident }) ::
      if full then (List.range 256).map fun i => (pkey 1 i, { ctxWith (i + 2) 8 with resident := true }) else [] }

theorem witness_RequestsLeaveTheService_context : ∀ r f : Bool, (opening r f).live ∧ (opening r f).svc.st = 2 ∧
    Tbl.get? (opening r f).svc.listeners 0 = some (listenerWith false []) ∧
    ((opening r f).fenceView (pkey 0 1)).2 = false ∧ (listenerWith false []).openValue ≤ ((opening r f).fenceView (pkey 0 1)).1 ∧
    (opening r f).ctx? (pkey 0 1) = some { ctxWith 1 8 with resident := r } ∧ (ctxWith 1 8).lost = false :=
  fun r f => ⟨⟨⟨rfl, rfl, rfl⟩, rfl⟩, by cases r <;> cases f <;> decide +kernel⟩

theorem witness_RequestsLeaveTheService_slots : (opening false false).slotsUsed < 256 ∧ 256 ≤ (opening false true).slotsUsed ∧
    (opening false true).victim 0 = none ∧ (opening false true).loads = [] := by decide +kernel

/-- A service table without listeners, models and start entries: 16 classes of a deadline of 1 us; its CRC over 320 bytes is `crc`. -/
def tableImage (crc : BitVec 32) : List Host.Cell :=
  [(0, 0x54), (1, 0x43), (2, 0x56), (3, 0x53), (4, 1), (12, 0x40), (13, 1), (16, crc.setWidth 8), (17, (crc >>> 8).setWidth 8),
   (18, (crc >>> 16).setWidth 8), (19, (crc >>> 24).setWidth 8)] ++ (List.range 16).map fun c => (64 + 16 * c, 1)

/-- The service starts from a table image. -/
def starting (image : List Host.Cell) : State := { base with svc := { Svc.reset with st := 1, image := image } }

theorem witness_RequestsLeaveTheService_refused : (starting [(0, 1)]).live ∧ ((starting [(0, 1)]).duty 10).2 = false ∧ (starting [(0, 1)]).svc.st = 1 ∧ (starting [(0, 1)]).svc.image ≠ [] ∧
    (starting [(0, 1)]).later.any Later.isSvcStart = false ∧
    (starting [(0, 1)]).tableCheck [(0, 1)] false = some (1, 0) := ⟨⟨⟨rfl, rfl, rfl⟩, rfl⟩, by decide +kernel⟩

/-- The right CRC of that table. -/
def tableCrc : BitVec 32 := 0x23760F07

set_option maxRecDepth 100000 in
theorem witness_RequestsLeaveTheService_start : (starting (tableImage tableCrc)).live ∧ (starting (tableImage tableCrc)).svc.image ≠ [] ∧
    (starting (tableImage tableCrc)).tableCheck (tableImage tableCrc) false = none ∧ tblStart (tableImage tableCrc) = 0 ∧
    tn (tableImage tableCrc) 28 4 = 0 ∧ (starting (tableImage tableCrc)).objectCheck (tableImage tableCrc) = none :=
  ⟨⟨⟨rfl, rfl, rfl⟩, rfl⟩, by decide +kernel⟩

/-! ### Processors, patch store, registers -/

/-- The small machine with a source of the interrupt controller pending or active at processor 2: 38 or its own source 31. -/
def withSource (n : Nat) (pend act : Bool) : State :=
  { base with ic :=
      { procs := Ic.reset.procs.set 2 { IcProc.reset with
          enable := 2 ^ 32 - 1, prio := List.replicate 32 0xF0, timer0 := 63, timer1 := 63
          pending := if n = 31 ∧ pend then 2 ^ 31 else 0, active := if n = 31 ∧ act then 2 ^ 31 else 0 }
        srcs := if n = 38 then [(38, { IcSrc.reset 38 with pending := pend, active := act })] else [] } }

theorem live_withSource (n : Nat) (p a : Bool) : (withSource n p a).live := ⟨⟨rfl, rfl, rfl⟩, rfl⟩

theorem witness_ProcessorsTakeTheirInterrupts : (withSource 0 false false).live ∧ 18 < 19 ∧ (withSource 0 false false).icSelect 2 = none ∧
    (withSource 31 true false).icSelect 2 = some 31 ∧ (withSource 38 true false).icSelect 2 = some 38 ∧ (icReset 38).isSome = true ∧
    (withSource 31 false true).icActive 2 31 = true ∧ (withSource 38 false true).icActive 2 38 = true ∧ (withSource 0 false false).icActive 2 38 = false ∧
    7 < 8 ∧ ((withSource 0 false false).ic.procs.getD 2 IcProc.reset).timer0 = 63 ∧ 63 ≤ (withSource 0 false false).ftc + 63 ∧
    (withSource 0 false false).ic.procs.length = 19 ∧ running.procUp 18 = true := ⟨live_withSource _ _ _, by decide +kernel⟩

/-- The patch store, locked or not, with so many words collected. -/
def patching (lock : Bool) (n : Nat) : State :=
  { base with bw := { base.bw with lock := lock, parts := List.replicate n 5, index := 2 ^ 11 - 1 } }

theorem live_patching (l : Bool) (n : Nat) : (patching l n).live := ⟨⟨rfl, rfl, rfl⟩, rfl⟩

theorem witness_OnlySecWritesThePatchStore : (patching false 3).live ∧ (patching false 3).bw.lock = false ∧ (patching false 3).bw.parts.length < 4 ∧
    (patching false 4).bw.parts = [5, 5, 5, 5] ∧
    (patching false 4).bw.wordDue (2 ^ 11 - 1) (patchWord [5, 5, 5, 5, 2 ^ 32 - 1]) = true ∧ (patching false 3).bw.dispDue 255 (2 ^ 15 + 16383) = true ∧
    (patching false 3).bw.offerWords = [] ∧ (patching false 3).bw.offerDisp = [] ∧ (patching false 0).bw.patchId = 0 ∧ (patching true 0).bw.lock = true ∧ (Agent.pf ≠ .proc 8) ∧ 18 < 19 :=
  ⟨live_patching _ _, by decide +kernel⟩

/-- The arbiter in the last cycle but one, the queue of input 7 full or not. -/
def porting (full : Bool) : State :=
  { base with arb := { Arb.reset with
      cycle := 126, queues := Arb.reset.queues.set 7 (List.replicate (if full then 5 else 0) { sectors := 32, moved := 0 }) } }

theorem witness_OnlySecWritesThePatchStore_port : ∀ full : Bool, (porting full).live ∧ 7 < 8 ∧ 0 < 32 ∧ 32 ≤ arbMost 7 ∧ 127 < 128 ∧
    ((porting full).arb.run (127 - (porting full).arb.cycle)).queues.length = 8 ∧ ((porting full).arb.run (127 - (porting full).arb.cycle)).wait.length = 8 ∧
    ((porting full).arb.run (127 - (porting full).arb.cycle)).wait.getD 7 [] = [] ∧
    (full = false → ((porting full).arb.run (127 - (porting full).arb.cycle)).depth 7 < 4) ∧
    (full = true → 4 ≤ ((porting full).arb.run (127 - (porting full).arb.cycle)).depth 7) ∧
    ((porting full).arb.run (127 - (porting full).arb.cycle)).wait.getD 0 [] = [] :=
  fun full => ⟨⟨⟨rfl, rfl, rfl⟩, rfl⟩, by cases full <;> decide +kernel⟩

/-- Accesses of registers: LEAD of the fabric time, and the last bytes of a partition window. -/
def leadAcc : RegAcc := { who := .pf, addr := 0x10010010, bytes := 4, data := 5 }
def winAcc (p a n : Nat) : RegAcc := { who := .vf p, addr := a, bytes := n, data := 5 }

theorem witness_RegisterWritesArrive : base.live ∧ spaceOf leadAcc = .mgmt 0x10010 ∧
    (∀ b ∈ basesOf (.mgmt 0x10010) leadAcc, atArrival b = false ∧ mgmtOps { leadAcc with addr := 0x10010 } b true = [] ∧
      mgmtOps { leadAcc with addr := 0x10010 } b false = []) ∧
    spaceOf (winAcc 0 0xFFFC0 64) = .win 0 0xFFFC0 ∧ base.isUp 0 = true ∧ spaceOf (winAcc 1 0xFFFC0 64) = .win 1 0xFFFC0 ∧
    base.isUp 1 = false ∧ spaceOf (winAcc 1 0x100000 4) = .none := ⟨base_live, by decide +kernel⟩

/-- A latched high word. -/
def latched (off : Nat) : State := { base with latches := [(.pf, 2 ^ 28 + off, 5)] }

theorem live_latched (off : Nat) : (latched off).live := ⟨⟨rfl, rfl, rfl⟩, rfl⟩

theorem witness_ReadsClearAndLatch : base.live ∧ 127 < 128 ∧ base.latches = [] ∧ base.isUp 0 = true ∧ (latched 0x10004).live ∧
    (latched 0x10004).latches = [(.pf, 2 ^ 28 + 0x10004, 5)] ∧ (latched 0xE0024).live ∧ (latched 0xE0024).latches = [(.pf, 2 ^ 28 + 0xE0024, 5)] :=
  ⟨base_live, by decide, rfl, by decide +kernel, live_latched _, rfl, live_latched _, rfl⟩

/-! ### Faults and stops -/

/-- A segment that has run for so many ns, its watchdog's abort at a boundary or not. -/
def segRan (ran : Nat) (w : Option Nat) : Seg := { seg0 with ran := ran, watched := w }

theorem witness_Watchdogs : (withEp 0 { Ep.idle with seg := some (segRan 201001 none) }).live ∧
    ((withEp 0 { Ep.idle with seg := some (segRan 201001 none) }).ep 0).seg = some (segRan 201001 none) ∧
    (segRan 201001 none).segNs + max 10 base.cfg.hangUs * 1000 < (segRan 201001 none).ran := ⟨live_withEp _ _, by decide +kernel⟩

/-- The tick in which the abort of an endpoint is 4 us old. -/
def lateEp (x : Ep) : State := { withEp 0 x with fab := { base.fab with ftc := 64 * 100 } }

theorem witness_Hangs : (lateEp { Ep.idle with seg := some (segRan 0 (some 1)), abortAt := some 37 }).live ∧
    ((lateEp { Ep.idle with seg := some (segRan 0 (some 1)), abortAt := some 37 }).ep 0).abortAt = some 37 ∧
    37 * 64 + 4000 ≤ (lateEp Ep.idle).tick * 64 ∧ (withEp 0 { Ep.idle with seg := some seg0, fatal := some 9 }).live ∧
    ((withEp 0 { Ep.idle with seg := some seg0, fatal := some 9 }).ep 0).fatal = some 9 ∧ (withEp 0 Ep.idle).isFenced (0 / 4) = false ∧
    3 < 4 ∧ (withEp 0 Ep.idle).stop.plan = none ∧ (withEp 0 Ep.idle).bw.synValid = false := by
  and_intros <;> first | decide +kernel | exact ⟨⟨rfl, rfl, rfl⟩, rfl⟩ | exact live_withEp _ _

/-- A stop of some scope is in force since tick 10. -/
def inStop (scope : Nat) : State :=
  { inFabric false false with stop := { Stop.reset with stopped := true, last := { at_ := 10, reason := 1, scope := scope, id := 7, origin := 3 } } }

theorem live_inStop (n : Nat) : (inStop n).live := ⟨⟨rfl, rfl, rfl⟩, rfl⟩

/-- The data that a write to MH_STOP_CTRL carries. -/
def stopData (op tick : Nat) : Nat := op * 2 ^ 60 + tick

theorem witness_StopsAreScheduled_writes : base.live ∧ ∀ op ∈ [1, 2, 3], stopData op 16394 < 2 ^ 64 ∧ stopData op 16394 / 2 ^ 60 % 2 ^ 2 = op ∧
    stopData op 16394 / 2 ^ 58 % 2 ^ 2 = 0 ∧ stopData op 16394 % 2 ^ 58 = 16394 ∧ stopData op 16393 % 2 ^ 58 = 16393 := ⟨base_live, by decide +kernel⟩

theorem witness_StopsAreScheduled_chip : (inStop 0).live ∧ (inStop 0).stop.stopped = true ∧ (inStop 0).stop.endAt = none ∧ (inStop 0).stop.last.scope = 0 ∧
    (inStop 0).bw.groups ≠ 0 ∧ aligning.fab.sync ≠ .locked ∧ aligning.fab.sync ≠ .free ∧ aligning.stop.stopped = false ∧ (inStop 0).stop.last.at_ + 16384 ≤ 16394 ∧ (inStop 0).tick + 1 ≤ 16394 ∧ 16393 < (inStop 0).stop.last.at_ + 16384 :=
  ⟨live_inStop _, by decide +kernel⟩

theorem witness_StopsAreScheduled_flits : (inStop 1).live ∧ (inFabric false false).live ∧
    ∀ op ∈ [1, 2, 3], ∀ kind ∈ [0x20, 0x21],
      (inStop 1).isDest (flitOf kind 1 (BitVec.ofNat 64 (op + 7 * 2 ^ 32))) = true ∧ flitCrcOk (flitOf kind 1 (BitVec.ofNat 64 (op + 7 * 2 ^ 32))) = true ∧ (inStop 1).seenFlit (flitOf kind 1 (BitVec.ofNat 64 (op + 7 * 2 ^ 32))) = false ∧
      (inStop 1).refusesTimed = false ∧ (inStop 1).tick < flitTick (flitOf kind 1 (BitVec.ofNat 64 (op + 7 * 2 ^ 32))) ∧ flitTick (flitOf kind 1 (BitVec.ofNat 64 (op + 7 * 2 ^ 32))) ≤ (inStop 1).tick + 65536 ∧
      (inStop 1).fab.hold.length < 4096 ∧ (inStop 1).stop.stopped = true ∧ (inStop 1).stop.endAt = none ∧ (inStop 1).stop.last.scope ≠ 0 ∧
      (inStop 1).stop.last.origin = flitFrom (flitOf kind 1 (BitVec.ofNat 64 (op + 7 * 2 ^ 32))) ∧ (inStop 1).stop.last.id = (flitOf kind 1 (BitVec.ofNat 64 (op + 7 * 2 ^ 32))).w0.toNat / 2 ^ 32 % 2 ^ 32 ∧
      (inFabric false false).stop.stopped = false ∧ (inFabric false false).stop.plan = none := ⟨live_inStop _, live_inFabric _ _, by decide +kernel⟩

theorem witness_TheSnapshotIsWritten : (inStop 0).live ∧ (inStop 0).stop.stopped = true ∧ (inStop 0).stop.snapDone = false ∧
    (inStop 0).freezeOwed = false := ⟨live_inStop _, by decide +kernel⟩

/-! ### Firmware -/

/-- The small machine with one processor in a given state and the others RUNNING. -/
def withProc (n : Nat) (p : Proc) : State := { running with fw := { running.fw with procs := running.fw.procs.set n p } }

theorem live_withProc (n : Nat) (p : Proc) : (withProc n p).live := ⟨⟨rfl, rfl, rfl⟩, rfl⟩

/-- A processor that restarts, its launch gate closed since FTC 0. -/
def restarting : Proc := { Proc.reset with st := .restarting, gate := true, declared := [0] }

/-- 5 ms later. -/
def gateDue : State :=
  { withProc 18 restarting with
    fab := { base.fab with ftc := 5000000 }, fw := { (withProc 18 restarting).fw with duties := base.fw.duties.set 7 (7, true) } }

/-- SEC and processor 0 restart, and the copy that processor 0 needs is not in the cache. -/
def secDown : State := { running with fw := { running.fw with procs := (running.fw.procs.set 0 restarting).set 8 restarting, cache := [] } }

/-- Duty 7 and duty 9 have moved to processor 0 from those that lost them. -/
def moved : State :=
  { running with fw := { running.fw with
      duties := (running.fw.duties.set 7 (0, false)).set 9 (0, false), lost := [(7, [7]), (9, [2])] } }

theorem witness_ProcessorsCrashAndRestart : gateDue.live ∧ 17 < 19 ∧ gateDue.fw.procs.length = 19 ∧ gateDue.fw.duties.length = 14 ∧
    (gateDue.proc 17).st = .running ∧ (gateDue.proc 17).wdtFrom + gateDue.wdtNs 17 ≤ gateDue.sinceReset ∧ (gateDue.proc 17).switched = none ∧
    (gateDue.proc 17).declared = [] ∧ 17 ≠ 8 ∧ 11 ≤ 17 ∧ gateDue.fw.crashRecs.length < 16 ∧ (gateDue.duty 7).2 = true ∧
    (withProc 8 restarting).live ∧ ((withProc 8 restarting).proc 8).st = .restarting ∧ (withProc 8 restarting).fw.procs.length = 19 ∧
    ((withProc 0 restarting).proc 0).st = .restarting ∧ (withProc 0 restarting).procUp 8 = true ∧
    secDown.live ∧ (secDown.proc 0).st = .restarting ∧ secDown.procUp 8 = false ∧
    Tbl.has secDown.fw.cache (cacheKey (compOf 0) (secDown.proc 0).imageB) = false := by
  and_intros <;> first | decide +kernel | exact live_withProc _ _ | exact ⟨⟨rfl, rfl, rfl⟩, rfl⟩

theorem witness_ProcessorsCrashAndRestart_duties : moved.live ∧ moved.fw.procs.length = 19 ∧ moved.fw.duties.length = 14 ∧ 7 < 14 ∧
    (Tbl.getD moved.fw.lost 7 []).find? (fun k => moved.procUp k) = some 7 ∧ (Tbl.getD moved.fw.lost 9 []).find? (fun k => moved.procUp k) = some 2 ∧
    moved.dutyQuiet 7 = true ∧ moved.dutyQuiet 9 = true ∧ gateDue.live ∧
    (gateDue.proc 18).gate = true ∧ (gateDue.proc 18).st ≠ .running ∧ (gateDue.proc 18).declared = 0 :: [] ∧ 0 + 5000000 ≤ gateDue.ftc ∧
    gateDue.fw.procs.length = 19 ∧ gateDue.fw.duties.length = 14 := by
  and_intros <;> first | decide +kernel | exact ⟨⟨rfl, rfl, rfl⟩, rfl⟩

/-- An activation has reached processor 18, or nothing is under way; a flash write waits, and a core holds the duty or none does. -/
def updating (act : Nat) (waits : Bool) (w : FlashWrite) : State :=
  { running with fw := { running.fw with act := act, next := 18, writes := [w], calm := 0, duties := running.fw.duties.set 13 (7, waits) } }

theorem live_updating (a : Nat) (b : Bool) (w : FlashWrite) : (updating a b w).live := ⟨⟨rfl, rfl, rfl⟩, rfl⟩

theorem witness_FirmwareUpdates : (updating 0 false (.record true none)).live ∧ (updating 0 false (.record true none)).fw.procs.length = 19 ∧
    (updating 0 false (.record true none)).fw.act ≠ 1 ∧ (updating 0 false (.record true none)).fw.act ≠ 3 ∧ (updating 0 false (.record true none)).fw.act ≠ 4 ∧
    (updating 0 false (.record true none)).fw.reverting = false ∧ (updating 0 false (.record true none)).procUp 8 = true ∧
    (updating 0 false (.record true none)).boot.phase ≠ .recovery ∧ (updating 3 false (.record true none)).live ∧ 18 < 19 ∧
    (updating 3 false (.record true none)).fw.act = 3 ∧ (updating 3 false (.record true none)).fw.next = 18 ∧
    (updating 3 false (.record true none)).maySwitch 18 = true := by
  and_intros <;> first | decide +kernel | exact live_updating _ _ _

theorem witness_FirmwareUpdates_writes : (updating 1 true (.image true [] true)).fw.writes = .image true [] true :: [] ∧
    ((updating 1 true (.image true [] true)).duty 13).2 = true ∧ ((updating 1 false (.image true [] true)).duty 13).2 = false ∧
    (updating 1 false (.image true [] true)).boot.phase ≠ .recovery ∧ ((updating 1 false (.image true [] false)).duty 13).2 = false ∧
    (updating 1 false (.image true [] false)).fw.writes = .image true [] false :: [] ∧ (updating 6 false (.record true (some (3, 4)))).fw.writes = .record true (some (3, 4)) :: [] ∧
    (updating 5 false (.record true none)).fw.writes = .record true none :: [] ∧ (updating 5 false (.crash [])).fw.writes = .crash [] :: [] ∧
    (updating 5 false (.snapshot [])).fw.writes = .snapshot [] :: [] := by
  and_intros <;> decide +kernel

/-- An SPDM request of endpoint 9 and a PLDM request of endpoint 10 are in progress. -/
def answering : State := { running with fw := { running.fw with busy := [(9, 5), (10, 1)] } }

theorem witness_TheManagementPortAnswers : answering.live ∧ answering.telemetryUp = true ∧ answering.fw.busy.contains (9, 5) = true ∧ answering.fw.busy.contains (10, 1) = true ∧
    answering.fw.busy.contains (10, 5) = false ∧ answering.fw.busy.contains (9, 1) = false ∧ answering.procUp 8 = true ∧
    (withProc 8 restarting).procUp 8 = false ∧
    spdmKnown 0x81 = true ∧ spdmKnown 0x99 = false ∧ 2 ≤ 2 ∧ 2 ≠ 5 := ⟨⟨⟨rfl, rfl, rfl⟩, rfl⟩, by decide +kernel⟩

/-- Trace in a state, with its change decided or not; the sampler samples every tick. -/
def traceIn (st : TraceState) (turn : Option Bool) : State :=
  { base with trace := { TraceUnit.reset with enable := true, st := st, startTick := 1, stopTick := 1, sampleTicks := 1, turn := turn } }

theorem live_traceIn (st : TraceState) (t : Option Bool) : (traceIn st t).live := ⟨⟨rfl, rfl, rfl⟩, rfl⟩

theorem witness_TracingStartsSamplesAndStops : (traceIn .armed none).live ∧ (traceIn .armed none).trace.st = .armed ∧ (traceIn .armed none).trace.enable = true ∧
    (traceIn .armed none).trace.startTick ≤ (traceIn .armed none).tick + 1 ∧ (traceIn .on none).live ∧ (traceIn .on none).trace.st = .on ∧
    (traceIn .on none).trace.stopTick ≠ 0 ∧ (traceIn .on none).trace.stopTick ≤ (traceIn .on none).tick + 1 ∧
    (traceIn .armed (some true)).trace.turn = some true ∧ (traceIn .on (some false)).trace.turn = some false ∧
    (traceIn .off none).trace.sampleTicks ≠ 0 ∧ (traceIn .off none).trace.sampleDone = false ∧ (traceIn .off none).stop.stopped = false ∧
    (traceIn .off none).tick % (traceIn .off none).trace.sampleTicks = 0 ∧ (traceIn .off none).trace.onTick = false ∧
    (traceIn .off none).latches = [] := by
  and_intros <;> first | decide +kernel | exact live_traceIn _ _

/-! ### Background work -/

/-- A table that loads, with a stage and a committed set. -/
def table1 (st : TableState) : Table :=
  { table0 with
    state := st, stages := [{ idx := .dev 0 0, data := .dev 0 4096, n := 1, fence := none }]
    committed := some { rows := [(0, 0)], fence := none, at_ := 0, order := 0, filled := false, carried := true } }

/-- The small machine with work in the background. -/
def busy (st : TableState) (ph : EpochPhase) : State :=
  { running with
    tables := [(0, table1 st)], imageReads := [{ graph := 0, obj := 0, off := 0, bytes := 96, fence := some (pkey 0 1, 6) }]
    cop := { Coppice.reset with phase := ph }
    parts := [(0, { part0 with teardown := some { ran := 9375, escalated := false, spanned := false, disable := false } })] }

theorem live_busy (st : TableState) (ph : EpochPhase) : (busy st ph).live := ⟨⟨rfl, rfl, rfl⟩, rfl⟩

/-- Boot brings the partitions up. -/
def bringing : State := { running with boot := { base.boot with phase := .bringup, cleared := true } }

theorem witness_BackgroundResultsWait : (busy .loading .opening).live ∧ (busy .loading .opening).stop.stopped = false ∧
    (busy .loading .opening).imageReads = { graph := 0, obj := 0, off := 0, bytes := 96, fence := some (pkey 0 1, 6) } :: [] ∧
    (busy .loading .opening).later = [] ∧ (busy .loading .opening).tableOf 0 1 = some 0 ∧
    (busy .loading .opening).table? 0 = some (table1 .loading) ∧ (table1 .loading).stages ≠ [] ∧ (busy .loading .opening).filling = some 0 ∧
    (busy .loading .opening).epochDuty = true ∧ (busy .loading .opening).cop.phase = .opening ∧
    (((busy .loading .opening).part 0).teardown.isSome && !(busy .loading .opening).partRuns 0) = true ∧ bringing.live ∧ bringing.mayBringUp = true ∧
    bringing.later = [] := by
  and_intros <;> first | decide +kernel | exact live_busy _ _ | exact ⟨⟨rfl, rfl, rfl⟩, rfl⟩

/-- A bias period of 1 ms has ended. -/
def periodDue : State := { running with fab := { base.fab with ftc := 1000000 - 63 } }

theorem witness_BiasPeriod : periodDue.live ∧ periodDue.pleach.periodUs ≠ 0 ∧ periodDue.biasEnd ≤ periodDue.sinceReset + 63 :=
  ⟨⟨⟨rfl, rfl, rfl⟩, rfl⟩, by decide +kernel⟩

/-- The nonzero bytes of an image of one NOP node, which stands at the start of object 0: MAGIC, VERSION, NNODES, BODY_BYTES, the CRC
and LEN of the body. -/
def imageCells (crc : List Host.Cell) : List Host.Cell :=
  [(0, 0x54), (1, 0x4F), (2, 0x50), (3, 0x54), (4, 1), (6, 1), (12, 16)] ++ crc ++ [(81, 1)]

/-- The small machine with that image and its read. -/
def withImage (crc : List Host.Cell) : State := { busy .loading .opening with mem := imageCells crc }

set_option maxRecDepth 100000 in
theorem witness_BackgroundResultsTakeEffect :
    let good := withImage [(20, 0xD8), (21, 0x55), (22, 0x9F), (23, 0xE2)]
    good.imageReads = { graph := 0, obj := 0, off := 0, bytes := 96, fence := some (pkey 0 1, 6) } :: [] ∧ good.graph? 0 = some graph0 ∧
    imageChk (good.readLoc (.dev 0 0) 96) = none ∧ imageChk ((withImage []).readLoc (.dev 0 0) 96) = some 0x0272 ∧
    good.table? 0 = some (table1 .loading) ∧ (table1 .loading).state = .loading ∧ (table1 .loading).committed.isSome = true ∧
    (good.part 0).teardown = some { ran := 9375, escalated := false, spanned := false, disable := false } ∧ (good.part 0).enable = true := by
  decide +kernel

/-- The small machine in a phase of the epoch cycle, on one chip or as the coordinator of several. -/
def flipping (domain : Nat) (c : Coppice) : State :=
  { busy .ready .opening with
    cfg := { base.cfg with fabric := true, domain := domain }, cop := c, fab := { base.fab with sync := .locked, found := [3, 64] } }

theorem live_flipping (d : Nat) (c : Coppice) : (flipping d c).live := ⟨⟨rfl, rfl, rfl⟩, rfl⟩

theorem flipping_runs (d : Nat) (c : Coppice) : (flipping d c).stop.stopped = false ∧ (flipping d c).epochDuty = true := ⟨rfl, rfl⟩

/-- PREPARE, its flip requested 100 ms ago. -/
def preparing : Coppice := { Coppice.reset with phase := .prepare, requestSent := true, waited := 1562500, coord := some 0 }

/-- DRAIN, whose grace period of 10 ms has run out 100 ms ago, or just now. -/
def draining (done : Bool) : Coppice :=
  { Coppice.reset with phase := .drain, prev := some 0, ran := 156250, graceDone := done, waited := 1562500, coord := some 0 }

theorem witness_TheEpochCycleGoesOn_one : (flipping 0 preparing).live ∧ (flipping 0 preparing).stop.stopped = false ∧ (flipping 0 preparing).epochDuty = true ∧
    (flipping 0 preparing).cop.phase = .prepare ∧ (flipping 0 preparing).cop.flipDue = false ∧ (flipping 0 preparing).cop.readyDue = false ∧
    (flipping 0 preparing).soleDomain = true ∧ (flipping 0 preparing).unfilled = [0] ∧ (flipping 0 preparing).table? 0 = some (table1 .ready) ∧
    (flipping 0 (draining false)).cop.prev = some 0 ∧ (flipping 0 (draining false)).cop.phase = .drain ∧ (flipping 0 (draining false)).epochPins 0 = 0 ∧
    (flipping 0 (draining false)).cop.graceDone = false ∧
    (flipping 0 (draining false)).cop.graceMs * 1000000 ≤ (flipping 0 (draining false)).cop.ran * 64 ∧
    (flipping 0 { Coppice.reset with phase := .catchup }).cop.phase = .catchup ∧ (flipping 0 { Coppice.reset with phase := .catchup }).cop.prepareHeld = false :=
  ⟨live_flipping _ _, by decide +kernel⟩

theorem witness_TheEpochCycleGoesOn_several : (flipping 1 preparing).live ∧ (flipping 1 preparing).epochDuty = true ∧ (flipping 1 preparing).soleDomain = false ∧
    (flipping 1 preparing).coordinates = true ∧ (flipping 1 preparing).fab.sync = .locked ∧ (flipping 1 preparing).epoch < 2 ^ 32 ∧
    (flipping 1 preparing).cop.flipWaitMs * 1000000 ≤ (flipping 1 preparing).cop.waited * 64 ∧ (flipping 1 preparing).cop.phase = .prepare ∧
    (flipping 1 preparing).cop.requestSent = true ∧ (flipping 1 preparing).cop.flipSent = false ∧ (flipping 1 (draining true)).live ∧
    (flipping 1 (draining true)).coordinates = true ∧ (flipping 1 (draining true)).cop.phase = .drain ∧ (flipping 1 (draining true)).cop.graceDone = true ∧
    (flipping 1 (draining true)).cop.retireDue = false ∧ (flipping 1 { draining true with retireDue := true }).cop.retireDue = true ∧
    (flipping 1 (draining true)).cop.flipWaitMs * 1000000 ≤ (flipping 1 (draining true)).cop.waited * 64 := by
  and_intros <;> first | decide +kernel | exact live_flipping _ _

/-! ### The marshal -/

/-- A GATHER in the marshal whose only position reads a local row of 32 bytes. -/
def gather0 (p : PosSt) : Gather :=
  { tables := [(0, 0)], bags := [0, 1], pos := [p], peers := [3], allPeers := [3], xid := 5, lastSent := some 0, segNo := [], noEndpoint := false, lost := none }

/-- A batch of one entry. -/
def batch0 : Batch := { opened := 0, window := 2, entries := [{ channel := 0, bank := 0, granule := 0, work := 0, pos := 0 }] }

/-- The small machine with that GATHER; 15,625 ticks after its request to chip 3 went out, a gather segment of it runs. -/
def marshalling (p : PosSt) (b : Option Batch) : State :=
  { base with
    works := [(0, { workIn 3 .marshal with cmd := mk 3 5 [(56, 1), (60, 1), (64, 1), (68, 32)] })], nextWork := 1
    fab := { base.fab with ftc := 15625 * 64 }
    eps := [(0, { Ep.idle with seg := some { seg0 with owner := .gather 0 } })]
    marshal := { Marshal.reset with
      traffic := true, batch := b, gathers := [(0, gather0 p)], segs := [(0, { sectors := [(0, [(0, 0)])], since := 0 })], nextSeg := 1
      asked := [{ chip := 3, xid := 5, work := 0, pos := [0], last := false }] } }

theorem live_marshalling (p : PosSt) (b : Option Batch) : (marshalling p b).live := ⟨⟨rfl, rfl, rfl⟩, rfl⟩

theorem witness_TheMarshalGoesOn_batch : (marshalling (.local_ 0 0 0 false) (some batch0)).live ∧
    (marshalling (.local_ 0 0 0 false) (some batch0)).marshal.batch = some batch0 ∧ (marshalling (.local_ 0 0 0 false) (some batch0)).batchDue batch0.opened batch0.window batch0.entries.length = true ∧
    (marshalling (.local_ 0 0 0 false) (some batch0)).marshal.remotes = [] ∧ batch0.entries.length ≤ Config.batchEntries ∧
    (marshalling (.local_ 0 0 0 false) (some batch0)).mergeSectors (sortBy BatchEntry.le (batch0.entries.take Config.batchEntries)) ≠ [] ∧
    ((marshalling (.local_ 0 0 0 false) (some batch0)).mergeSectors (sortBy BatchEntry.le (batch0.entries.take Config.batchEntries))).length ≤ 1024 ∧
    (marshalling (.local_ 0 0 0 false) none).marshal.interval + 4096 ≤ (marshalling (.local_ 0 0 0 false) none).tick ∧
    (marshalling (.local_ 0 0 0 false) none).marshal.traffic = true ∧ (marshalling (.local_ 0 0 0 false) none).marshal.fixed = false ∧
    base.marshal.traffic = false :=
  ⟨live_marshalling _ _, by decide +kernel⟩

/-- The header of the first segment of an exchange, the last one, with one row. -/
def mark1 (dir : Nat) : SegMark := { dir := dir, last := true, rows := 1, no := 0, status := 0 }

/-- The small machine with a keyed table, and some of its lines in the cache. -/
def resolving (lines : List CacheLine) : State :=
  { marshalling (.local_ 0 0 0 false) none with
    tables := [(0, { table0 with key := 77 })], marshal := { (marshalling (.local_ 0 0 0 false) none).marshal with lines := lines } }

theorem live_resolving (l : List CacheLine) : (resolving l).live := ⟨⟨rfl, rfl, rfl⟩, rfl⟩

/-- The lines of row 1 and of its entry. -/
def lines1 : List CacheLine :=
  [{ part := 0, table := 0, isMap := true, idx := 0, sectors := 1, left := 9 }, { part := 0, table := 0, isMap := false, idx := 1, sectors := 1, left := 9 }]

/-- Exchange 6 of chip 3 is not one that a state serves, and it serves no other segment. -/
def opens (s : State) : Bool :=
  (s.marshal.served.all fun y => !(y.chip == 3 && y.xid == 6)) && (s.marshal.gathers.all fun e => e.2.serves == none && e.1 != s.nextWork)

theorem witness_TheMarshalGoesOn_served : (resolving lines1).live ∧ (resolving []).live ∧ (mark1 0).dir = 0 ∧ (mark1 0).no = 0 ∧ (mark1 0).rows = 1 ∧
    opens (resolving []) = true ∧ opens (resolving lines1) = true ∧ bitsOf ((([[1]] : List (List Word)).flatten).getD 0 0).toNat 0 40 = 1 ∧
    (resolving []).tableOfKey 76 = none ∧
    (resolving []).tableOfKey 77 = some (0, { table0 with key := 77 }) ∧ table0.state = .ready ∧ 1 < table0.lrows ∧
    table0.slotOf 1 ((resolving lines1).mapHalf table0 1 ((resolving lines1).halfOf (resolving lines1).epoch)) = 1 ∧
    (resolving lines1).hasLine 0 true 0 = true ∧ (resolving lines1).hasLine 0 false 1 = true ∧
    (resolving []).mapBad 0 1 = false ∧ (resolving []).hasLine 0 false 1 = false := by
  and_intros <;> first | decide +kernel | exact live_resolving _

theorem witness_TheMarshalGoesOn_exchange : (mark1 1).dir = 1 ∧ (mark1 1).rows = 1 ∧ (marshalling (.remote 3 0) none).live ∧
    ((marshalling (.remote 3 0) none).marshal.asked.find? fun a => a.chip == 3 && a.xid == 5) =
      some { chip := 3, xid := 5, work := 0, pos := [0], last := false } ∧
    (marshalling (.remote 3 0) none).work? 0 = some { workIn 3 .marshal with cmd := mk 3 5 [(56, 1), (60, 1), (64, 1), (68, 32)] } ∧
    gaMode (mk 3 5 [(56, 1), (60, 1), (64, 1), (68, 32)]) ≠ 0 ∧ (marshalling (.remote 3 0) none).gather? 0 = some (gather0 (.remote 3 0)) ∧
    (gather0 (.remote 3 0)).pos.getD 0 .unresolved = .remote 3 0 ∧ (marshalling (.remote 3 0) none).table? 0 = some table0 ∧
    (marshalling (.remote 3 0) none).segRuns 0 = true ∧
    ((marshalling (.remote 3 0) none).marshal.gathers.find? fun e => e.2.xid == 5 && e.2.peers != []) = some (0, gather0 (.remote 3 0)) ∧
    (gather0 (.remote 3 0)).lastSent = some 0 ∧ 0 + (marshalling (.remote 3 0) none).marshal.xchgMs * 15625 ≤ (marshalling (.remote 3 0) none).tick ∧
    (gather0 (.remote 3 0)).pos[0]? = some (PosSt.remote 3 0) := by
  and_intros <;> first | decide +kernel | exact live_marshalling _ _

/-! ### Housekeeping -/

/-- The small machine with an exported fence, a listed wait whose fence has reached its threshold, a keyed layer, ten minutes after reset. -/
def keeping : State :=
  { running with
    fab := { base.fab with ftc := 600000000000 }
    works := [(0, { workIn 8 (.fenceWait (pkey 0 1) 5 true) with cmd := mk 8 2 [(8, 1), (16, 5)] })], nextWork := 1
    listed := [{ fence := pkey 0 1, changed := some 0 }], exports := [{ fence := pkey 0 1, key := 9, part := 3, chip := some 2, signal := true }] }

/-- At a tick that is a multiple of 16,384. -/
def refreshing : State := { keeping with fab := { base.fab with ftc := 16384 * 64, sync := .locked } }

/-- A teardown that has run for 600 us while an endpoint runs a segment of the partition. -/
def tearing : State :=
  { withEp 0 { Ep.idle with seg := some seg0 } with
    parts := [(0, { part0 with teardown := some { ran := 9375, escalated := false, spanned := false, disable := false } })] }

theorem witness_TimedHousekeepingRuns : refreshing.live ∧ refreshing.stop.stopped = false ∧ refreshing.tick % 16384 = 0 ∧ refreshing.tick % 16 = 0 ∧
    refreshing.once = [] ∧ refreshing.polled = [pkey 0 1] ∧ 0 ∈ refreshing.waiters (pkey 0 1) ∧ refreshing.fenceView (pkey 0 1) = (5, false) ∧
    refreshing.exports.length = 1 ∧ (refreshing.fence? (pkey 0 1)).isSome = true ∧ (keeping.duty 8).2 = false ∧
    keeping.pleach.lastSnap + 600000000000 ≤ keeping.sinceReset ∧ refreshing.fab.sync ≠ .free ∧ (keeping.pleach.layers.any fun e => e.2.key != 0) = true ∧
    bringing.live ∧ bringing.boot.phase = .bringup ∧ tearing.live ∧
    (tearing.part 0).teardown = some { ran := 9375, escalated := false, spanned := false, disable := false } ∧ 600000 ≤ 9375 * 64 ∧
    tearing.cutting = false ∧ tearing.partRuns 0 = true ∧ (tearing.ep 0).seg = some seg0 ∧ (tearing.work? 0).map (fun x => x.part) = some 0 := by
  and_intros <;> first | decide +kernel | exact ⟨⟨rfl, rfl, rfl⟩, rfl⟩

/-! ### Ill-formed commands are refused by the check -/

theorem smoke_wellFormed : (Instr.nop (.ring 127 16383) (mk 0 1 [])).wellFormed = true ∧ (Instr.linkEcho (flitOf 0x7F 0 0)).wellFormed = true ∧
    (Instr.registerWrite { who := .vf 127, addr := 0, bytes := 64, data := 256 ^ 64 - 1 }).wellFormed = true := by decide +kernel

theorem smoke_partOk : (Instr.vfFlr 128).wellFormed = false := by decide
theorem smoke_ringOk : (Instr.ringDoorbell 0 16384).wellFormed = false := by decide
theorem smoke_ctxOk : (Instr.ctxFaultClear 0 4096).wellFormed = false := by decide
theorem smoke_fenceOk : (Instr.hostFenceFail 0 (2 ^ 20)).wellFormed = false := by decide
theorem smoke_tableOk : (Instr.tableLoadDone 0 4096 (.ok [])).wellFormed = false := by decide
theorem smoke_epOk : (Instr.stopMessage 526).wellFormed = false := by decide
theorem smoke_coreOk : (Instr.coreFenceWrite 128).wellFormed = false ∧ (Instr.partitionBringup [0, 128]).wellFormed = false := by decide
theorem smoke_linkOk : (Instr.linkDown ⟨8, []⟩).wellFormed = false ∧ (Instr.linkDown ⟨0, [(2 ^ 15, 0, 0)]⟩).wellFormed = false := by decide
theorem smoke_framesOk : (Instr.xchgRequestSegment 0 0 0 0 0 [List.replicate 249 0] (mark1 0)).wellFormed = false := by decide +kernel
theorem smoke_markOk : (Instr.xchgReplySegment 0 0 0 [[]] (mark1 2) none).wellFormed = false := by decide +kernel
theorem smoke_skip : (Instr.registerWrite { who := .pf, addr := 0, bytes := 4, data := 0, skip := [0, 4] }).wellFormed = false := by decide
theorem smoke_ptp : (Instr.ptpEvent ⟨0, 256⟩ 0 0 0 0 0).wellFormed = false := by decide
theorem smoke_chipOk : (Instr.peerLinkUp 0 (2 ^ 15) 0).wellFormed = false := by decide
theorem smoke_procOk : (Instr.icClaim 19).wellFormed = false := by decide
theorem smoke_dutyOk : (Instr.dutyReturn 14).wellFormed = false := by decide
theorem smoke_nxOk : (Instr.sendComplete 2 0 true).wellFormed = false := by decide
theorem smoke_listenOk : (Instr.listenerOpen 16).wellFormed = false := by decide
theorem smoke_vecOk : (Instr.msixMask 0 (some 256)).wellFormed = false := by decide
theorem smoke_bitsOk : (Instr.mctpMessage 256 0 []).wellFormed = false := by decide
theorem smoke_cmdOk : (Instr.nop (.ring 0 0) []).wellFormed = false ∧ (Instr.nop (.ring 0 0) [0, 0, 0]).wellFormed = false := by decide
theorem smoke_nodeOk : (Instr.nodeRelease 0 4096 none).wellFormed = false := by decide
theorem smoke_siteOk : (Instr.nop (.node 0 4096) [0, 0]).wellFormed = false ∧ (Instr.nop (.ring 128 0) [0, 0]).wellFormed = false := by decide
theorem smoke_flitOk : (Instr.linkEcho { flitOf 0x7F 0 0 with kind := 256 }).wellFormed = false := by decide +kernel
theorem smoke_agentOk : (Instr.patchLock (.vf 128)).wellFormed = false ∧ (Instr.patchLock (.proc 19)).wellFormed = false := by decide
theorem smoke_accOk : (Instr.rcRead { who := .pf, addr := 0, bytes := 65, data := 0 }).wellFormed = false ∧
    (Instr.rcRead { who := .pf, addr := 0, bytes := 0, data := 0 }).wellFormed = false ∧
    (Instr.registerWrite { who := .pf, addr := 0, bytes := 1, data := 256 }).wellFormed = false := by decide
theorem smoke_parityOk : (Instr.entryStart 0 0 (some { seqr := 32, addr := 0, dispatch := false })).wellFormed = false := by decide
theorem smoke_reportOk : (Instr.segmentDone 0 { (SegReport.cut 0 1 0) with ops := [], items := 1, code := 256 }).wellFormed = false := by decide
theorem smoke_memErrOk : (Instr.tickBoundary [] [.listed 0 (2 ^ 20)]).wellFormed = false := by decide
theorem smoke_traceOk : (Instr.traceMessage { traceMsg with offset := 64 }).wellFormed = false := by decide

/-! ### Small steps -/

/-- The state after a step, if the machine goes on. -/
def nextOf (o : Host.Outcome State Fault Refusal) : Option State := match o with | .next t => some t | _ => none

/-- A command alone in the queue. -/
def withCmd (s : State) (c : Instr) : State := { s with pending := [c] }

-- the check value of CRC-32 with the IEEE 802.3 polynomial
theorem test_crc32_check : crc32 [0x31, 0x32, 0x33, 0x34, 0x35, 0x36, 0x37, 0x38, 0x39] = 0xCBF43926 := by decide +kernel

-- R24: the FTC reaches the next multiple of 64 ns
theorem test_tick_moves_ftc : (nextOf (step (withCmd base (.tickBoundary [] [])))).map (fun t => (t.ftc, t.pending)) = some (64, []) := by decide +kernel

-- R78: PI at most 2^SIZE_LOG2 ahead of CI, modulo 2^32
theorem test_pi_write : ((withRing wrapped).hostOp1 [] (.pi 0 1 250)).ring? (pkey 0 1) = some { wrapped with pi := 250 } ∧
    ((withRing wrapped).hostOp1 [] (.pi 0 1 251)).ring? (pkey 0 1) = some { wrapped with piDrops := 1 } := by decide +kernel

-- R92: a doorbell to a DISABLED ring is counted, one to a STOPPED ring is kept
theorem test_doorbells : ((withRing (ringIn .disabled 0)).hostOp1 [] (.doorbell 0 1)).ring? (pkey 0 1) = some { ringIn .disabled 0 with dbIgnored := 1 } ∧
    ((withRing (ringIn .stopped 0)).hostOp1 [] (.doorbell 0 1)).ring? (pkey 0 1) = some { ringIn .stopped 0 with dbPending := true } := by decide +kernel

-- R179: an INCREMENT beyond 64 bits leaves the value; a MAX at the value counts as low
theorem test_fence_saturates : ((withFence (2 ^ 64 - 1) false).applyInc 0 (pkey 0 1) 1).1 = .fenceSaturated ∧
    ((withFence (2 ^ 64 - 1) false).applyMax 0 (pkey 0 1) (2 ^ 64 - 1)).fence? (pkey 0 1) = some { fence0 with value := 2 ^ 64 - 1, low := 1 } := by
  decide +kernel

-- R412: a report of a write outside the device address map
theorem test_no_device_address : exec (.nodeDone 0 (reportOf 1 0 (2 ^ 63))) (withEp 0 { Ep.idle with seg := some seg0 }) = .fault .noDeviceAddress := rfl

-- R24, the idle step
theorem test_idle : step base = .next base := rfl

-- R215: the first retry comes 1 us after the failure, in ticks rounded up
theorem test_posting_retry : (nextOf (exec (.postingFailure 0 1 .memDetected) (withRing (holding (.unanswered 0))))).map
    (fun t => (t.ring? (pkey 0 1)).map fun x => x.hold.map fun h => h.st) = some (some (some (.retryIn 0 16))) := by decide +kernel

-- R393: the claim returns the source, which is then active and not pending
theorem test_claim : (nextOf (exec (.icClaim 2) (withSource 38 true false))).map (fun t => (t.readData, (t.icSrc 38).pending, (t.icSrc 38).active)) =
    some (38, false, true) := by decide +kernel

end Sys2Proof.Tests
end

section
/-! PROOFS. Register accesses (00 R443, R444; 01 R23, R33; 02 R53): how a write arrives at a window and takes effect on the
registers that it covers, and what a read returns, clears and latches. -/
namespace Sys2Proof.Machine

/-! ### A write arrives -/

section
variable {s : State} {a : RegAcc} {p o straps : Nat} {ok : Bool}

theorem State.regWrite_none (ha : a.bytes ≤ 64) (hx : spaceOf a = .none) : s.regWrite a straps ok = s := by
  simp only [State.regWrite, Nat.min_eq_left ha, hx]

theorem State.regWrite_win_down (ha : a.bytes ≤ 64) (hx : spaceOf a = .win p o) (hp : s.isUp p = false) :
    s.regWrite a straps ok = s := by
  simp only [State.regWrite, Nat.min_eq_left ha, hx, hp, Bool.not_false, if_true]

theorem State.regWrite_win_up (ha : a.bytes ≤ 64) (hx : spaceOf a = .win p o) (hp : s.isUp p = true) :
    s.regWrite a straps ok = { s with hostOps := s.hostOps ++
      ((basesOf (.win p o) a).flatMap (winOps { a with addr := o } p) ++
        if (basesOf (.win p o) a).any plainWinReg then [.reg a] else []) } := by
  simp only [State.regWrite, Nat.min_eq_left ha, hx, hp, Bool.not_true, Bool.false_eq_true, if_false,
    Space.off, onlyIf]

/-- A write to management registers none of which acts when it arrives or asks for more than values. -/
theorem State.regWrite_mgmt_plain (ha : a.bytes ≤ 64) (hx : spaceOf a = .mgmt o)
    (harr : ∀ b ∈ basesOf (.mgmt o) a, atArrival b = false)
    (hops : ∀ b ∈ basesOf (.mgmt o) a, mgmtOps { a with addr := o } b ok = []) :
    s.regWrite a straps ok = { s with hostOps := s.hostOps ++ [.reg a] } := by
  have hnone : (basesOf (.mgmt o) a).filter atArrival = [] := List.filter_eq_nil_iff.2 fun b hb => by
    simp only [harr b hb, Bool.false_eq_true, not_false_eq_true]
  have hask : (basesOf (.mgmt o) a).flatMap (fun b => mgmtOps { a with addr := o } b ok) = [] :=
    List.flatMap_eq_nil_iff.2 hops
  simp only [State.regWrite, Nat.min_eq_left ha, hx, Space.off, hnone, hask, List.append_nil, foldS,
    List.foldl_nil]

/-- REGISTER_WRITE takes a free value, which says how a flash write of it would end; the rest is the write's arrival. -/
theorem exec_registerWrite {ops : List HostOp} (hs : s.live)
    (h : ∀ ok, State.regWrite { s with free := s.free + 1 } a s.boot.straps ok = { s with free := s.free + 1, hostOps := ops }) :
    exec (.registerWrite a) s = .next { s with free := s.free + 1, hostOps := ops } :=
  State.after_live hs (f := fun s => s.anyWrite a) (h _) rfl rfl rfl rfl

end

/-- Settles O46: by the window that the write names, each read off the lemma of how a write arrives there. -/
theorem registerWritesArrive : Obligations.RegisterWritesArrive := by
  unfold Obligations.RegisterWritesArrive
  rintro s a p o bs hs ha rfl
  refine ⟨fun hx hb => ?mgmt, fun hx hp => ?up, fun hx hp => ?down, fun hx => ?none⟩
  case mgmt =>
    rw [hx] at hb
    refine exec_registerWrite hs fun ok => State.regWrite_mgmt_plain ha hx (fun b hb' => (hb b hb').1) fun b hb' => ?_
    obtain ⟨-, htrue, hfalse⟩ := hb b hb'
    cases ok
    · exact hfalse
    · exact htrue
  case up =>
    rw [hx]
    exact exec_registerWrite hs fun ok => State.regWrite_win_up ha hx hp
  case down => exact exec_registerWrite hs fun ok => State.regWrite_win_down ha hx hp
  case none => exact exec_registerWrite hs fun ok => State.regWrite_none ha hx

/-! ### Where an access of the PF or of a VF falls -/

/-- The PF reaches the management window from 0x1000_0000 on (02 R52). -/
theorem spaceOf_pf_mgmt {a : RegAcc} {o : Nat} (hw : a.who = .pf) (ha : a.addr = 0x10000000 + o) (ho : o < 0x10000000) :
    spaceOf a = .mgmt o := by
  have hwin : ¬ 0x10000000 + o < 0x08000000 := by omega
  have hmgmt : 0x10000000 ≤ 0x10000000 + o ∧ 0x10000000 + o < 0x20000000 := by omega
  simp only [spaceOf, hw, ha, pfSpace, if_neg hwin, if_pos hmgmt, Nat.add_sub_cancel_left]

/-- A function of a VF reaches the window of its own partition (02 R52). -/
theorem spaceOf_vf {a : RegAcc} {p o : Nat} (hw : a.who = .vf p) (hp : p < Config.partitions) (ha : a.addr = o)
    (ho : o < 2 ^ 20) : spaceOf a = .win p o := by
  simp only [spaceOf, hw, hp, ha, ho, and_self, if_true]

/-! ### A write takes effect: what it covers, and on which registers -/

theorem bitsOf_mod_two_pow {v lo w m : Nat} (h : lo + w ≤ m) : bitsOf (v % 2 ^ m) lo w = bitsOf v lo w := by
  obtain ⟨k, rfl⟩ := Nat.exists_eq_add_of_le (show lo ≤ m by omega)
  rw [bitsOf, bitsOf, Nat.pow_add, Nat.mod_mul_right_div_self, Nat.mod_mod_of_dvd _ (Nat.pow_dvd_pow 2 (by omega))]

/-- Of a write that begins at a register, a field that it covers has the data's bits. -/
theorem wfld_of_covers {a : RegAcc} {b lo w : Nat} (ha : a.addr = b) (hw : 0 < w) (hc : covers a b lo w = true) :
    wfld a b lo w = bitsOf a.data lo w := by
  have hend : b + (lo + w - 1) / 8 < a.addr + a.bytes := by
    simp only [covers, Bool.and_eq_true, decide_eq_true_eq] at hc
    exact hc.1.2
  have hpow : 256 ^ a.bytes = 2 ^ (8 * a.bytes) := Nat.pow_mul 2 8 a.bytes ▸ rfl
  simp only [wfld, ha, Nat.le_refl, if_true, Nat.sub_self, Nat.pow_zero, Nat.mul_one, hpow]
  exact bitsOf_mod_two_pow (by omega)

/-- So where a field takes what such a write gives, it takes the data's bits. -/
theorem ite_covers_wfld {a : RegAcc} {b lo w old : Nat} {f : Nat → Nat} (ha : a.addr = b) (hw : 0 < w) :
    (if covers a b lo w then f (wfld a b lo w) else old) = if covers a b lo w then f (bitsOf a.data lo w) else old :=
  ite_congr rfl (fun hc => congrArg f (wfld_of_covers ha hw hc)) fun _ => rfl

/-- A W1C bit that such a write covers is cleared by a 1 alone. -/
theorem w1c_of_covers {a : RegAcc} {b i : Nat} {old : Bool} (ha : a.addr = b) (hc : covers a b i 1 = true) :
    w1c a b i old = (old && !(a.data / 2 ^ i % 2 == 1)) := by
  simp only [w1c, sets, hc, Bool.true_and, wfld_of_covers ha Nat.one_pos hc, bitsOf, Nat.pow_one]

/-- A write that ends before an area has no byte in it. -/
theorem areaCells_of_below {a : RegAcc} {lo hi : Nat} (h : a.addr + a.bytes ≤ lo) : areaCells a lo hi = [] := by
  have hnone : ∀ i ∈ bytesOn a, ¬ (decide (lo ≤ a.addr + i) && decide (a.addr + i < hi)) = true := fun i hi => by
    have hlt : i < a.bytes := List.mem_range.1 (List.mem_filter.1 hi).1
    have hout : ¬ lo ≤ a.addr + i := by omega
    simp only [hout, decide_false, Bool.false_and, Bool.false_eq_true, not_false_eq_true]
  rw [areaCells, List.filter_eq_nil_iff.2 hnone, List.map_nil]

theorem State.writeStaging_of_below {s : State} {a : RegAcc} (h : a.addr + a.bytes ≤ 0x100000) : s.writeStaging a = s := by
  have hfw : a.addr + a.bytes ≤ 0x400000 := by omega
  simp only [State.writeStaging, areaCells_of_below h, areaCells_of_below hfw, if_true]

/-- A write that reaches one management register, below the staging areas and not one that acts when it arrives, takes effect
on that register alone. -/
theorem State.hostOp1_reg_mgmt {s : State} {un : List (Nat × Nat × Nat)} {a : RegAcc} {o b : Nat} (hx : spaceOf a = .mgmt o)
    (hb : basesOf (.mgmt o) a = [b]) (harr : atArrival b = false) (hlow : o + a.bytes ≤ 0x100000) :
    s.hostOp1 un (.reg a) = s.plainMgmt { a with addr := o } b := by
  have hst : s.writeStaging { a with addr := o } = s := State.writeStaging_of_below hlow
  have hone : [b].filter (fun b => !atArrival b) = [b] := by
    simp only [harr, Bool.not_false, List.filter_cons_of_pos, List.filter_nil]
  simp only [State.hostOp1, State.applyReg, hx, Space.off, hb, hst, hone, foldS, List.foldl_cons, List.foldl_nil]

section
variable (s : State) (un : List (Nat × Nat × Nat)) (n v : Nat) (skip : List Nat)

/-- A write of the PF that begins at MH_FT_CTRL and reaches no other register: each field takes the data's bits, within its
range, where the write covers it whole (01 R34). -/
theorem State.hostOp1_ftCtrl (hb : basesOf (.mgmt 0x10010) ⟨.pf, 0x10010010, n, v, skip⟩ = [0x10010]) (hn : n ≤ 4) :
    s.hostOp1 un (.reg ⟨.pf, 0x10010010, n, v, skip⟩) = { s with fab := { s.fab with
      leadTicks := if covers ⟨.pf, 0x10010, n, v, skip⟩ 0x10010 0 16 then clampNat 8 4096 (bitsOf v 0 16) else s.fab.leadTicks
      syncPeriod := if covers ⟨.pf, 0x10010, n, v, skip⟩ 0x10010 16 4 then clampNat 6 14 (bitsOf v 16 4)
        else s.fab.syncPeriod } } := by
  rewrite [State.hostOp1_reg_mgmt (a := ⟨.pf, 0x10010010, n, v, skip⟩) (spaceOf_pf_mgmt rfl rfl (by decide)) hb rfl
      (by dsimp only; omega),
    ← ite_covers_wfld rfl (by decide), ← ite_covers_wfld rfl (by decide)]
  rfl

/-- A write of one byte of the PF to MH_FT_STATUS clears the W1C bits that it gives 1 (01 R34). -/
theorem State.hostOp1_ftStatus : s.hostOp1 un (.reg ⟨.pf, 0x10010018, 1, v, []⟩) = { s with fab := { s.fab with
    lateStrict := s.fab.lateStrict && !(v / 2 ^ 4 % 2 == 1), holdFull := s.fab.holdFull && !(v / 2 ^ 5 % 2 == 1)
    unlockedApply := s.fab.unlockedApply && !(v / 2 ^ 6 % 2 == 1)
    linkWentDown := s.fab.linkWentDown && !(v / 2 ^ 7 % 2 == 1) } } := by
  have hw1c : ∀ i old, covers ⟨.pf, 0x10018, 1, v, []⟩ 0x10018 i 1 = true →
      w1c ⟨.pf, 0x10018, 1, v, []⟩ 0x10018 i old = (old && !(v / 2 ^ i % 2 == 1)) := fun i old hc => w1c_of_covers rfl hc
  rewrite [State.hostOp1_reg_mgmt (a := ⟨.pf, 0x10010018, 1, v, []⟩) (o := 0x10018) (b := 0x10018)
      (spaceOf_pf_mgmt rfl rfl (by decide)) rfl rfl (by simp only; decide),
    ← hw1c 4 _ rfl, ← hw1c 5 _ rfl, ← hw1c 6 _ rfl, ← hw1c 7 _ rfl]
  rfl

/-- The capability table takes no write (02 R72). -/
theorem State.plainMgmt_capTable (a : RegAcc) {b : Nat} (h : b < 0x10000) : s.plainMgmt a b = s := by
  simp only [State.plainMgmt, h, if_true]

end

/-- Settles O47: each write reaches one register, and which fields it covers is known from its address, length and byte
enables alone. -/
theorem byteEnablesAndFieldKinds : Obligations.ByteEnablesAndFieldKinds := by
  unfold Obligations.ByteEnablesAndFieldKinds
  rintro s un v w x y z - rfl rfl rfl rfl
  refine ⟨?whole, ?part, ?gap, State.hostOp1_ftStatus s un v, ?readOnly⟩
  case whole =>
    have hlead : covers ⟨.pf, 0x10010, 4, v, []⟩ 0x10010 0 16 = true := rfl
    have hsync : covers ⟨.pf, 0x10010, 4, v, []⟩ 0x10010 16 4 = true := rfl
    rewrite [State.hostOp1_ftCtrl s un 4 v [] rfl (by decide), hlead, hsync, bitsOf, Nat.pow_zero, Nat.div_one]
    rfl
  case part =>
    have hlead : covers ⟨.pf, 0x10010, 1, v, []⟩ 0x10010 0 16 = false := rfl
    have hsync : covers ⟨.pf, 0x10010, 1, v, []⟩ 0x10010 16 4 = false := rfl
    rewrite [State.hostOp1_ftCtrl s un 1 v [] rfl (by decide), hlead, hsync]
    rfl
  case gap =>
    have hlead : covers ⟨.pf, 0x10010, 4, v, [1]⟩ 0x10010 0 16 = false := rfl
    have hsync : covers ⟨.pf, 0x10010, 4, v, [1]⟩ 0x10010 16 4 = true := rfl
    rewrite [State.hostOp1_ftCtrl s un 4 v [1] rfl (by decide), hlead, hsync]
    rfl
  case readOnly =>
    rw [State.hostOp1_reg_mgmt (a := ⟨.pf, 0x10000000, 4, v, []⟩) (o := 0) (b := 0)
      (spaceOf_pf_mgmt rfl rfl (by decide)) rfl rfl (by simp only; decide),
      State.plainMgmt_capTable _ _ (by decide)]

/-! ### What a read returns -/

/-- Two moves within a window are one; a move that leaves it names no place. -/
theorem Space.plus_plus (x : Space) (m n : Nat) : (x.plus m).plus n = x.plus (m + n) := by
  cases x with
  | none => rfl
  | win p o =>
    by_cases h : o + m < 2 ^ 20
    · simp only [Space.plus, if_pos h, Nat.add_assoc]
    · have hn : ¬ o + (m + n) < 2 ^ 20 := by omega
      simp only [Space.plus, if_neg h, if_neg hn]
  | mgmt o =>
    by_cases h : o + m < 2 ^ 28
    · simp only [Space.plus, if_pos h, Nat.add_assoc]
    · have hn : ¬ o + (m + n) < 2 ^ 28 := by omega
      simp only [Space.plus, if_neg h, if_neg hn]

/-- Bytes that all lie in the register at `b`, from its byte `k` on, spell that part of its value. -/
theorem State.bytesAt_of_base {s : State} {b : Space} {n k : Nat} {x : Space} (hx : x.plus 0 = x)
    (h : ∀ i < n, (x.plus i).base = b ∧ (x.plus i).off = b.off + k + i) :
    s.bytesAt x n = s.regAt b / 256 ^ k % 256 ^ n := by
  induction n generalizing x k with
  | zero => simp only [State.bytesAt, Nat.pow_zero, Nat.mod_one]
  | succ n ih =>
    have hfirst : s.byteAt x = s.regAt b / 256 ^ k % 256 := by
      obtain ⟨hbase, hoff⟩ := h 0 (by omega)
      rw [hx] at hbase hoff
      rw [State.byteAt, hbase, hoff, Nat.add_zero, Nat.add_sub_cancel_left]
    have hrest : s.bytesAt (x.plus 1) n = s.regAt b / 256 ^ (k + 1) % 256 ^ n := by
      refine ih (x.plus_plus 1 0) fun i hi => ?_
      obtain ⟨hbase, hoff⟩ := h (1 + i) (by omega)
      rw [Space.plus_plus]
      exact ⟨hbase, by omega⟩
    rw [State.bytesAt, hfirst, hrest, Nat.pow_succ 256 k, ← Nat.div_div_eq_div_mul, Nat.pow_succ' (m := 256) (n := n),
      Nat.mod_mul]

/-! ### What a read latches and clears -/

section
variable {s : State} {a : RegAcc} {who : Agent} {x : Space} {n v : Nat}

theorem State.latched_of_latches_nil (h : s.latches = []) : s.latched who x n = none := by
  simp only [State.latched, h, List.find?_nil, Option.map_none, ite_self]

theorem State.latched_of_latches_singleton (h : s.latches = [(who, x.key, v)]) : s.latched who x 4 = some v := by
  simp only [State.latched, if_true, h, BEq.rfl, Bool.and_self, List.find?_cons_of_pos, Option.map_some]

theorem State.unlatch_of_latches_singleton (h : s.latches = [(who, x.key, v)]) :
    s.unlatch who x 4 = { s with latches := [] } := by
  simp only [State.unlatch, if_true, h, BEq.rfl, Bool.and_self, Bool.not_true, Bool.false_eq_true, not_false_eq_true,
    List.filter_cons_of_neg, List.filter_nil]

/-- A 32-bit read of the low word of a register that latches its high word. -/
theorem State.latchAt_lowWord (hcap : x ≠ .mgmt 0x10108) (hx : x.latches = true) (hb : x.base = x) (h : s.latches = []) :
    s.latchAt who x 4 = { s with latches := [(who, (x.plus 4).key, s.regAt x / 2 ^ 32 % 2 ^ 32)] } := by
  simp only [State.latchAt, decide_true, hx, Bool.and_self, hb, BEq.rfl, if_true, if_neg hcap, h, List.filter_nil]

/-- A read returns the latched word, which is then gone, and clears as if it had read the word itself. -/
theorem State.regRead_of_latched (hx : spaceOf a = x) (hn : min a.bytes 64 = n) (hl : s.latched a.who x n = some v) :
    s.regRead a = { (s.unlatch a.who x n).clearFrom x n with readData := v } := by
  subst hx hn; simp only [State.regRead, hl]

/-- A read of a high word that is not latched returns the current one and clears nothing. -/
theorem State.regRead_highWord (hx : spaceOf a = x) (hn : min a.bytes 64 = n) (hl : s.latched a.who x n = none)
    (hsec : s.latchedSec a.who x n = none) (hhigh : x.highWord n = true) :
    s.regRead a = { s.latchAt a.who x n with readData := s.bytesAt x n } := by
  subst hx hn; simp only [State.regRead, hl, hsec, hhigh, if_true]

/-- Any other read with nothing latched for it. -/
theorem State.regRead_unlatched (hx : spaceOf a = x) (hn : min a.bytes 64 = n) (hl : s.latched a.who x n = none)
    (hsec : s.latchedSec a.who x n = none) (hhigh : x.highWord n = false) :
    s.regRead a = { (s.latchAt a.who x n).clearFrom x n with readData := s.bytesAt x n } := by
  subst hx hn; simp only [State.regRead, hl, hsec, hhigh, Bool.false_eq_true, if_false]

end

/-! ### The registers that the statement reads -/

section
variable (s : State)

/-- MH_FT_LATE (01 R34). -/
theorem State.bytesAt_ftLate : s.bytesAt (.mgmt 0x10030) 4 = s.fab.late % 2 ^ 32 := by
  rewrite [State.bytesAt_of_base (b := .mgmt 0x10030) (k := 0) rfl (by decide), Nat.pow_zero, Nat.div_one]
  rfl

theorem State.bytesAt_ftLate_second : s.bytesAt (.mgmt 0x10031) 1 = s.fab.late / 2 ^ 8 % 2 ^ 8 :=
  State.bytesAt_of_base (b := .mgmt 0x10030) (k := 1) rfl (by decide)

theorem State.clearFrom_ftLate : s.clearFrom (.mgmt 0x10030) 4 = { s with fab := { s.fab with late := 0 } } := rfl

/-- MH_FT_TIME (01 R33). -/
theorem State.regAt_ftTime : s.regAt (.mgmt 0x10000) = s.ftc % 2 ^ 64 := rfl

theorem State.bytesAt_ftTime : s.bytesAt (.mgmt 0x10000) 4 = s.ftc % 2 ^ 32 := by
  rw [State.bytesAt_of_base (b := .mgmt 0x10000) (k := 0) rfl (by decide), State.regAt_ftTime, Nat.pow_zero, Nat.div_one]
  exact Nat.mod_mod_of_dvd _ (by decide : 256 ^ 4 ∣ 2 ^ 64)

theorem State.clearFrom_ftTime : s.clearFrom (.mgmt 0x10000) 4 = s := rfl
theorem State.clearFrom_ftTime_high : s.clearFrom (.mgmt 0x10004) 4 = s := rfl

/-- The high word of MH_PWR_EVENTS (14 R419). -/
theorem State.bytesAt_pwrEvents_high : s.bytesAt (.mgmt 0xE0024) 4 =
    (s.pwr.throttles + 2 ^ 16 * s.pwr.sheds + 2 ^ 32 * s.pwr.trips + 2 ^ 48 * s.pwr.hwTrips) / 2 ^ 32 % 2 ^ 32 :=
  State.bytesAt_of_base (b := .mgmt 0xE0020) (k := 4) rfl (by decide)

theorem State.clearFrom_pwrEvents_high :
    s.clearFrom (.mgmt 0xE0024) 4 = { s with pwr := { s.pwr with trips := 0, hwTrips := 0 } } := rfl

/-- MH_CTX_LOADS of a partition that is enabled (02 R60). -/
theorem State.bytesAt_ctxLoads {p : Nat} (hp : s.isUp p = true) :
    s.bytesAt (.win p 0x1020) 4 = (s.part p).counts.ctxLoads % 2 ^ 32 := by
  have hreg : s.regAt (.win p 0x1020) = (s.part p).counts.ctxLoads := by
    simp only [State.regAt, State.winReg, hp]
    rfl
  have hword : ∀ i < 4, ((Space.win p 0x1020).plus i).base = .win p 0x1020 ∧
      ((Space.win p 0x1020).plus i).off = 0x1020 + 0 + i := by
    intro i hi
    match i, hi with
    | 0, _ | 1, _ | 2, _ | 3, _ => exact ⟨rfl, rfl⟩
  rewrite [State.bytesAt_of_base (b := .win p 0x1020) rfl hword, hreg, Nat.pow_zero, Nat.div_one]
  rfl

theorem State.clearFrom_ctxLoads {p : Nat} (hp : s.isUp p = true) :
    s.clearFrom (.win p 0x1020) 4 = s.adjCounts p fun c => { c with ctxLoads := 0 } := by
  have hup : (s.adjCounts p fun c => { c with ctxLoads := 0 }).isUp p = true := by
    rw [← hp]
    simp only [State.isUp, State.part, State.adjCounts, State.adjPart, Tbl.getD_set_same]
  simp only [State.clearFrom, State.clearAt, Space.plus, State.winClear, hp, hup, Nat.reduceAdd, Nat.reducePow, Nat.reduceLT,
    Nat.reduceLeDiff, Nat.reduceMod, Nat.reduceEqDiff, Bool.not_true, Bool.false_eq_true, reduceCtorEq, and_false, and_self,
    and_true, ↓reduceIte]

end

/-- Settles O48: each read names one register; what is latched for the reader decides between the three ways of a read. -/
theorem readsClearAndLatch : Obligations.ReadsClearAndLatch := by
  unfold Obligations.ReadsClearAndLatch
  rintro s p hi a b c d e f hs hp rfl rfl rfl rfl rfl rfl
  refine ⟨fun hl => ?late, ?lateByte, fun hl hup => ?ctxLoads, fun hl => ?ftLow, fun hl => ?ftHigh, fun hl => ?pwrLatched,
    fun hl => ?pwrHigh⟩
  case late =>
    refine State.after_live hs (f := fun s => s.regRead _) ?_ rfl rfl rfl rfl
    rw [State.regRead_unlatched (x := .mgmt 0x10030) (n := 4) (spaceOf_pf_mgmt rfl rfl (by decide)) rfl
      (State.latched_of_latches_nil hl) rfl rfl, State.bytesAt_ftLate]
    have hkeep : s.latchAt .pf (.mgmt 0x10030) 4 = s := rfl
    rw [hkeep, State.clearFrom_ftLate]
  case lateByte =>
    refine State.after_live hs (f := fun s => s.regRead _) ?_ rfl rfl rfl rfl
    rewrite [State.regRead_unlatched (x := .mgmt 0x10031) (n := 1) (spaceOf_pf_mgmt rfl rfl (by decide)) rfl rfl rfl rfl,
      State.bytesAt_ftLate_second]
    rfl
  case ctxLoads =>
    refine State.after_live hs (f := fun s => s.regRead _) ?_ rfl rfl rfl rfl
    rw [State.regRead_unlatched (x := .win p 0x1020) (n := 4) (spaceOf_vf rfl hp rfl (by decide)) rfl
      (State.latched_of_latches_nil hl) rfl rfl, State.bytesAt_ctxLoads s hup]
    have hkeep : s.latchAt (.vf p) (.win p 0x1020) 4 = s := rfl
    rewrite [hkeep, State.clearFrom_ctxLoads s hup]
    rfl
  case ftLow =>
    refine State.after_live hs (f := fun s => s.regRead _) ?_ rfl rfl rfl rfl
    have hword : s.ftc % 2 ^ 64 / 2 ^ 32 % 2 ^ 32 = s.ftc / 2 ^ 32 % 2 ^ 32 := by omega
    rewrite [State.regRead_unlatched (x := .mgmt 0x10000) (n := 4) (spaceOf_pf_mgmt rfl rfl (by decide)) rfl
      (State.latched_of_latches_nil hl) rfl rfl, State.bytesAt_ftTime,
      State.latchAt_lowWord (by decide) rfl rfl hl, State.regAt_ftTime, hword, State.clearFrom_ftTime]
    rfl
  case ftHigh =>
    refine State.after_live hs (f := fun s => s.regRead _) ?_ rfl rfl rfl rfl
    rw [State.regRead_of_latched (x := .mgmt 0x10004) (n := 4) (spaceOf_pf_mgmt rfl rfl (by decide)) rfl
      (State.latched_of_latches_singleton hl), State.unlatch_of_latches_singleton hl, State.clearFrom_ftTime_high]
  case pwrLatched =>
    refine State.after_live hs (f := fun s => s.regRead _) ?_ rfl rfl rfl rfl
    rw [State.regRead_of_latched (x := .mgmt 0xE0024) (n := 4) (spaceOf_pf_mgmt rfl rfl (by decide)) rfl
      (State.latched_of_latches_singleton hl), State.unlatch_of_latches_singleton hl, State.clearFrom_pwrEvents_high]
  case pwrHigh =>
    refine State.after_live hs (f := fun s => s.regRead _) ?_ rfl rfl rfl rfl
    rewrite [State.regRead_highWord (x := .mgmt 0xE0024) (n := 4) (spaceOf_pf_mgmt rfl rfl (by decide)) rfl
      (State.latched_of_latches_nil hl) rfl rfl, State.bytesAt_pwrEvents_high]
    rfl

end Sys2Proof.Machine
end

section
/-! PROOFS. How commands answer (01 R20, R24; 14 R412): a step runs the front command; each command but six has its effect under
module power alone; the tick ends at the next multiple of 64 ns. -/
namespace Sys2Proof.Machine

/-- Settles O1: both cases are the two branches of `step`. -/
theorem stepRunsTheFrontCommand : Obligations.StepRunsTheFrontCommand := by
  unfold Obligations.StepRunsTheFrontCommand
  intro s c rest
  refine ⟨fun hq => ?front, fun hq => ?idle⟩
  case front => simp only [step, hq]
  case idle => simp only [step, hq]

/-! ### The three ways in which a command answers -/

/-- The commands that the calendar and the power supply cause: they act whether or not the module has power (01 R49, R50). -/
def actsUnpowered : Instr → Bool
  | .powerOnReset _ | .calendarSecond | .backupCellLow | .crystalStop => true
  | _ => false

/-- The report of an engine that a command brings: whether it is a NODE_DONE, the endpoint, the report (01 R20). -/
def engineReport : Instr → Option (Bool × Nat × SegReport)
  | .segmentDone e r => some (false, e, r)
  | .nodeDone e r => some (true, e, r)
  | _ => none

/-- A command of neither kind answers with its effect under module power. -/
theorem exec_eq_after (c : Instr) (s : State) (hpower : actsUnpowered c = false) (hreport : engineReport c = none) :
    ∃ f, exec c s = s.after f := by
  cases c with
  | powerOnReset | calendarSecond | backupCellLow | crystalStop => cases hpower
  | segmentDone | nodeDone => cases hreport
  | _ => exact ⟨_, rfl⟩

theorem exec_eq_always {c : Instr} (s : State) (hpower : actsUnpowered c = true) : ∃ f, exec c s = s.always f := by
  cases c with
  | powerOnReset | calendarSecond | backupCellLow | crystalStop => exact ⟨_, rfl⟩
  | _ => cases hpower

/-- A report of an engine faults where the machine has power and the report is astray, and else has its effect. -/
theorem exec_engineReport {c : Instr} {node : Bool} {e : Nat} {r : SegReport} (s : State)
    (hreport : engineReport c = some (node, e, r)) :
    exec c s = if s.boot.unpowered = false ∧ s.reportAstray node e r = true then .fault .noDeviceAddress
      else s.after fun s => s.report node e r := by
  cases c with
  | segmentDone | nodeDone => cases hreport; rfl
  | _ => cases hreport

/-- A command that brings the report of an engine is SEGMENT_DONE or NODE_DONE. -/
theorem eq_done_of_engineReport {c : Instr} {node : Bool} {e : Nat} {r : SegReport} {P : Bool → Prop} (hP : P node)
    (hreport : engineReport c = some (node, e, r)) : (c = .segmentDone e r ∧ P false) ∨ (c = .nodeDone e r ∧ P true) := by
  cases c with
  | segmentDone => cases hreport; exact .inl ⟨rfl, hP⟩
  | nodeDone => cases hreport; exact .inr ⟨rfl, hP⟩
  | _ => cases hreport

/-- Whatever its effect, a command leaves the queue as it was and nothing of itself open. -/
theorem State.run_closes (s : State) (f : State → State) :
    GoesTo (.next (s.run f)) fun t => t.pending = s.pending ∧ t.stores = [] ∧ t.cleared = [] :=
  ⟨_, rfl, rfl, rfl, rfl⟩

/-- Settles O2: by the way in which the command answers; a fault is a report astray. -/
theorem everyCommandAnswers : Obligations.EveryCommandAnswers := by
  unfold Obligations.EveryCommandAnswers
  intro c s
  cases hpower : actsUnpowered c with
  | true =>
    obtain ⟨f, hf⟩ := exec_eq_always s hpower
    exact .inl (hf ▸ s.run_closes f)
  | false =>
    cases hreport : engineReport c with
    | none =>
      obtain ⟨f, hf⟩ := exec_eq_after c s hpower hreport
      exact .inl (hf ▸ s.run_closes _)
    | some report =>
      obtain ⟨node, e, r⟩ := report
      rw [exec_engineReport s hreport]
      split
      case isFalse => exact .inl (s.run_closes _)
      case isTrue hastray =>
        obtain ⟨hunpowered, hastray⟩ := hastray
        refine .inr ⟨rfl, hunpowered, ?_⟩
        rcases eq_done_of_engineReport (P := fun b => s.reportAstray b e r = true) hastray hreport with h | h
        · exact .inl ⟨e, r, h⟩
        · exact .inr ⟨e, r, h⟩

/-- Settles O5: without power the two ways in which a command needs it leave the state as it is. -/
theorem nothingHappensWithoutModulePower : Obligations.NothingHappensWithoutModulePower := by
  unfold Obligations.NothingHappensWithoutModulePower
  intro c s hs hunpowered hreset hsecond hcell hcrystal
  have hpower : actsUnpowered c = false := by
    cases c with
    | powerOnReset straps => exact absurd rfl (hreset straps)
    | calendarSecond => exact absurd rfl hsecond
    | backupCellLow => exact absurd rfl hcell
    | crystalStop => exact absurd rfl hcrystal
    | _ => rfl
  cases hreport : engineReport c with
  | none =>
    obtain ⟨f, hf⟩ := exec_eq_after c s hpower hreport
    rw [hf, State.after_unpowered hs hunpowered]
  | some report =>
    obtain ⟨node, e, r⟩ := report
    have hno : ¬ (s.boot.unpowered = false ∧ s.reportAstray node e r = true) := by simp [hunpowered]
    rw [exec_engineReport s hreport, if_neg hno, State.after_unpowered hs hunpowered]

/-! ### The end of a tick -/

/-- With no reset due and boot over, nothing but the tick itself moves the FTC (01 R27, R29). -/
theorem State.tickBoundary_ftc {s : State} (un : List (Nat × Nat × Nat)) (errs : List MemErr) (hdue : s.boot.due = none)
    (hup : s.booting = false) : (s.tickBoundary un errs).ftc = s.nextFtc := by
  simp only [State.tickBoundary, hdue, hup, Bool.false_eq_true, if_false]
  rfl

theorem State.nextFtc_mod (s : State) : s.nextFtc % 64 = 0 := by
  simp only [State.nextFtc, Config.two64]; omega

/-- Settles O38: the FTC is read off the boundary's last step; queue and memory are kept as by every command. -/
theorem theTickEndsAtTheNextMultiple : Obligations.TheTickEndsAtTheNextMultiple := by
  unfold Obligations.TheTickEndsAtTheNextMultiple
  intro s un errs hs hdue hup
  have hftc : (s.run fun s => s.tickBoundary un errs).ftc = s.nextFtc := by
    rw [State.run_eq hs.1]
    exact State.tickBoundary_ftc un errs hdue hup
  exact ⟨_, State.after_eq hs.2 _, hftc, hftc ▸ s.nextFtc_mod, rfl, s.run_settled _ hs.1.1⟩

end Sys2Proof.Machine
end

section
/-! PROOFS. The calendar (01 R46-R50): its seconds and crystal edges, settings, captures and the PTP servo. -/
namespace Sys2Proof.Machine

/-- A command that acts with or without power, whose effect opens no store and leaves memory and the queue alone. -/
theorem State.always_settled {s t : State} (h : s.settled) {f : State → State} (ht : f s = t) (hst : t.stores = s.stores)
    (hcl : t.cleared = s.cleared) (hmem : t.mem = s.mem) (hq : t.pending = s.pending) : s.always f = .next t := by
  subst ht
  rw [State.always, State.run_quiet h (hst.trans h.2.1) (hcl.trans h.2.2) hmem hq]

/-- Raising a source changes the interrupt controller alone. -/
theorem State.raise_eq (s : State) (n : Nat) : ∃ i, s.raise n = { s with ic := i } := by
  simp only [State.raise, State.adjSrc]
  split
  · exact ⟨_, rfl⟩
  · exact ⟨s.ic, rfl⟩

/-- A live command whose effect raises a source at last, after changes outside memory and the queue. -/
theorem State.after_raise {s t : State} (h : s.live) {f : State → State} (n : Nat) (ht : f s = t.raise n)
    (hst : t.stores = s.stores) (hcl : t.cleared = s.cleared) (hmem : t.mem = s.mem) (hq : t.pending = s.pending) :
    s.after f = .next (t.raise n) := by
  obtain ⟨i, hi⟩ := t.raise_eq n
  exact State.after_live h ht (by rw [hi]; exact hst) (by rw [hi]; exact hcl) (by rw [hi]; exact hmem) (by rw [hi]; exact hq)

/-! ### Seconds and crystal edges -/

section
variable {s : State}

/-- A second of the running calendar, with the edge at which a write that waits is taken. -/
theorem State.calendarSecond_powered (hp : s.boot.unpowered = false) : s.calendarSecond =
    let f := s.ftc + Config.pick s.free % 64
    let c : Cal := { s.cal with sec := (s.cal.sec + 1) % 2 ^ 48, sub := 0, capFtc := f, capSec := (s.cal.sec + 1) % 2 ^ 48,
                                edge := f * 32768 + s.cal.gap (Config.pick s.free / 64) }
    { s with
      free := s.free + 1
      cal := match s.cal.pendingSet with
        | some (a, b) => { c with sec := a, sub := b, invalid := false, pendingSet := none }
        | none => c } := by
  simp only [State.calendarSecond, hp, Bool.false_eq_true, if_false]
  rfl

theorem State.calendarSecond_on_cell (hp : s.boot.unpowered = true) : s.calendarSecond =
    if s.cal.invalid then s else { s with cal := { s.cal with sec := (s.cal.sec + 1) % 2 ^ 48, sub := 0 } } := by
  simp only [State.calendarSecond, hp, if_true]
  rfl

theorem Cal.atEdge_of_set {c : Cal} {gap a b : Nat} (h : c.pendingSet = some (a, b)) :
    c.atEdge gap = { c with sec := a, sub := b, invalid := false, pendingSet := none, edge := c.edge + gap } := by
  simp only [Cal.atEdge, h]

theorem Cal.atEdge_of_none {c : Cal} {gap : Nat} (h : c.pendingSet = none) :
    c.atEdge gap = { c with sub := min 32767 (c.sub + 1), edge := c.edge + gap } := by
  simp only [Cal.atEdge, h]

theorem State.calEdge_before (h : s.ftc * 32768 < s.cal.edge) : s.calEdge = s := if_pos h

theorem State.calEdge_at (h : s.cal.edge ≤ s.ftc * 32768) : s.calEdge =
    { s with free := s.free + 1, cal := s.cal.atEdge (s.cal.gap (Config.pick s.free)) } := if_neg (Nat.not_lt.2 h)

end

/-! ### The PTP servo -/

section
variable {s : State} {nx domain ftc sec sub utc : Nat} {err : Int}

/-- What a PTP event sets in the calendar, with a free slew: a step beyond 1 s or where it is INVALID, and else a slew. -/
def Cal.servo (c : Cal) (nx sec sub utc slew : Nat) (err : Int) : Cal :=
  let d : Cal := { c with source := nx + 1, utc := utc % 2 ^ 16, ptpLocked := decide (err.natAbs ≤ 1000) }
  if 1000000000 < err.natAbs ∨ c.invalid = true then
    { d with sec := sec % 2 ^ 48, sub := sub % 2 ^ 15, invalid := false, slew := 0 }
  else { d with slew := err.sign * slew }

theorem State.ptp_elsewhere (h : s.cfg.ptpPort ≠ nx + 1 ∨ domain ≠ s.cfg.ptpDomain) : s.ptp nx domain ftc sec sub utc err = s :=
  if_pos (h.elim .inl fun hd => .inr (.inr (.inl hd)))

/-- An event of the configured port and domain, not later than the tick, is not passed over. -/
theorem ptp_configured (hport : s.cfg.ptpPort = nx + 1) (hnx : nx ≤ 1) (hdom : domain = s.cfg.ptpDomain)
    (hftc : ftc ≤ s.ftc + 63) : ¬ (s.cfg.ptpPort ≠ nx + 1 ∨ 1 < nx ∨ domain ≠ s.cfg.ptpDomain ∨ s.ftc + 63 < ftc) := by
  rintro (h | h | h | h)
  · exact h hport
  · omega
  · exact h hdom
  · omega

theorem State.ptp_unserved (h : ¬ (s.cfg.ptpPort ≠ nx + 1 ∨ 1 < nx ∨ domain ≠ s.cfg.ptpDomain ∨ s.ftc + 63 < ftc))
    (hduty : (s.duty 12).2 = true) : s.ptp nx domain ftc sec sub utc err = s.raise 40 := by
  simp only [State.ptp, if_neg h, hduty, if_true]

theorem State.ptp_served (h : ¬ (s.cfg.ptpPort ≠ nx + 1 ∨ 1 < nx ∨ domain ≠ s.cfg.ptpDomain ∨ s.ftc + 63 < ftc))
    (hduty : (s.duty 12).2 = false) : s.ptp nx domain ftc sec sub utc err =
      ({ s with free := s.free + 1, cal := s.cal.servo nx sec sub utc (Config.pick s.free % 500001) err } : State).raise 40 := by
  simp only [State.ptp, if_neg h, hduty, Bool.false_eq_true, if_false]
  rfl

end

/-- Settles O36: each command of the calendar by the lemma of its operation. -/
theorem theCalendarKeepsTime : Obligations.TheCalendarKeepsTime := by
  unfold Obligations.TheCalendarKeepsTime
  intro s v who nx domain ftc sec sub utc err hs
  refine ⟨⟨s.ftc + Config.pick s.free % 64, Config.pick s.free / 64, by omega, by omega, fun hnone => ?second,
      fun a b hset => ?secondSet⟩, ?write, State.calEdge_before,
      fun hedge => ⟨Config.pick s.free, fun next hnext => ⟨fun a b hset => ?edgeSet, fun hnone => ?edge⟩⟩, ?capture, fun hport hnx hdom hftc herr hval hduty => ?slew, fun hport hnx hdom hftc herr hduty => ?step,
      fun hport hnx hdom hftc hduty => ?unserved, fun h => ?elsewhere, ?cell, ?crystal, fun u hu => ?onCell⟩
  case second =>
    refine State.always_settled hs.1 (f := State.calendarSecond) ?_ rfl rfl rfl rfl
    rw [State.calendarSecond_powered hs.2, hnone]
  case secondSet =>
    refine State.always_settled hs.1 (f := State.calendarSecond) ?_ rfl rfl rfl rfl
    rw [State.calendarSecond_powered hs.2, hset]
  case write =>
    refine State.after_live hs (f := fun s => s.calWrite v.toNat) ?_ rfl rfl rfl rfl
    simp [State.calWrite, State.adjCal, bitsOf]
  case edgeSet => rw [State.calEdge_at hedge, Cal.atEdge_of_set hset, hnext]
  case edge => rw [State.calEdge_at hedge, Cal.atEdge_of_none hnone, hnext]
  case capture => exact State.after_live hs (f := fun s => s.capRead who) rfl rfl rfl rfl rfl
  case slew =>
    have hslew : ¬ (1000000000 < err.natAbs ∨ s.cal.invalid = true) := by simp [hval, herr]
    refine ⟨Config.pick s.free % 500001, by omega, State.after_raise hs 40 (f := fun s => s.ptp nx domain ftc sec sub utc err) ?_
      rfl rfl rfl rfl⟩
    rw [State.ptp_served (ptp_configured hport hnx hdom hftc) hduty, Cal.servo, if_neg hslew]
  case step =>
    refine State.after_raise hs 40 (f := fun s => s.ptp nx domain ftc sec sub utc err) ?_ rfl rfl rfl rfl
    rw [State.ptp_served (ptp_configured hport hnx hdom hftc) hduty, Cal.servo, if_pos herr]
  case unserved =>
    exact State.after_raise hs 40 (f := fun s => s.ptp nx domain ftc sec sub utc err)
      (State.ptp_unserved (ptp_configured hport hnx hdom hftc) hduty) rfl rfl rfl rfl
  case elsewhere =>
    exact State.after_live hs (f := fun s => s.ptp nx domain ftc sec sub utc err) (State.ptp_elsewhere h) rfl rfl rfl rfl
  case cell => exact State.always_settled hs.1 (f := State.cellFalls) rfl rfl rfl rfl rfl
  case crystal =>
    exact State.always_settled hs.1 (f := State.crystalStops) (by simp [State.crystalStops, hs.2]) rfl rfl rfl rfl
  case onCell =>
    have hset : u.settled := hu ▸ hs.1
    have hoff : u.boot.unpowered = true := by rw [hu]
    have hcal : s.cal = u.cal := by rw [hu]
    rw [hcal]
    refine ⟨State.always_settled hset (f := State.crystalStops) (if_pos hoff) rfl rfl rfl rfl, fun hval => ?runs, fun hval => ?stands⟩
    case runs =>
      refine State.always_settled hset (f := State.calendarSecond) ?_ rfl rfl rfl rfl
      rw [State.calendarSecond_on_cell hoff, hval]
      rfl
    case stands =>
      refine State.always_settled hset (f := State.calendarSecond) ?_ rfl rfl rfl rfl
      rw [State.calendarSecond_on_cell hoff, if_pos hval]

end Sys2Proof.Machine
end

section
/-! PROOFS. Control flits (01 R36-R41): how an arriving flit is judged, what a refusal sends, and what becomes of flits for other
chips, of untimed and of timed flits. -/
namespace Sys2Proof.Machine

/-! ### Sending and refusing -/

/-- A flit that is originated carries the next SEQ to its destination; it joins what is sent (01 R36, R41). -/
theorem State.sendFlit_eq (s : State) (kind dst eff : Nat) (w0 w1 w2 : Word) : ∃ f : Flit,
    (s.sendFlit kind dst eff w0 w1 w2).2 = { s with
      fab := { s.fab with seqTo := Tbl.set s.fab.seqTo dst ((Tbl.getD s.fab.seqTo dst 0 + 1) % 2 ^ 16) }
      out := s.out ++ [.flit f] } ∧
    f.kind = kind ∧ f.src = s.fab.chip ∧ f.dst = dst ∧ f.seq = Tbl.getD s.fab.seqTo dst 0 ∧ f.eff = eff ∧
    f.w0 = w0 ∧ f.w1 = w1 :=
  ⟨_, rfl, rfl, rfl, rfl, rfl, rfl, rfl, rfl⟩

theorem State.refuseFlit_refusal {s : State} {f : Flit} (h : f.kind = 0x7E) : s.refuseFlit f = s.discardFlit := if_pos h

theorem State.refuseFlit_other {s : State} {f : Flit} (h : f.kind ≠ 0x7E) : s.refuseFlit f =
    (s.discardFlit.sendFlit 0x7E (flitFrom f) 0 (BitVec.ofNat 64 (leNat ((flitBytes f).take 8)))
      (BitVec.ofNat 64 (leNat (((flitBytes f).drop 8).take 8))) 0).2 := if_neg h

/-- A refusal changes the fabric time unit and what is sent. -/
theorem State.refuseFlit_eq (s : State) (f : Flit) : ∃ x o, s.refuseFlit f = { s with fab := x, out := o } := by
  by_cases h : f.kind = 0x7E
  · exact ⟨_, s.out, State.refuseFlit_refusal h⟩
  · obtain ⟨g, hg, -⟩ := State.sendFlit_eq s.discardFlit 0x7E (flitFrom f) 0 (BitVec.ofNat 64 (leNat ((flitBytes f).take 8)))
      (BitVec.ofNat 64 (leNat (((flitBytes f).drop 8).take 8))) 0
    exact ⟨_, _, (State.refuseFlit_other h).trans hg⟩

theorem State.after_refuses {s t : State} {g : Flit} (hs : s.live) {f : State → State} (ht : f s = t.refuseFlit g)
    (hst : t.stores = s.stores) (hcl : t.cleared = s.cleared) (hmem : t.mem = s.mem) (hq : t.pending = s.pending) :
    s.after f = .next (t.refuseFlit g) := by
  obtain ⟨x, o, hr⟩ := t.refuseFlit_eq g
  exact State.after_live hs ht (by rw [hr]; exact hst) (by rw [hr]; exact hcl) (by rw [hr]; exact hmem) (by rw [hr]; exact hq)

/-! ### The judgement of an arriving flit (01 R41) -/

/-- The acceptance table takes a flit. -/
def State.noteSeen (s : State) (f : Flit) : State :=
  { s with fab := { s.fab with accepted := Tbl.set s.fab.accepted (flitFrom f) (f.inc, f.seq) } }

section
variable {s : State} {f : Flit} {kind : Nat}

theorem State.judgeFlit_bad (hcrc : flitCrcOk f = false) : s.judgeFlit f = (.bad, s.refuseFlit f) := by
  simp only [State.judgeFlit, hcrc, Bool.not_false, if_true]

theorem State.judgeFlit_twin (hcrc : flitCrcOk f = true) (hseen : s.seenFlit f = true) : s.judgeFlit f = (.twin, s) := by
  simp only [State.judgeFlit, hcrc, hseen, Bool.not_true, Bool.false_eq_true, if_false, if_true]

theorem State.judgeFlit_good (hcrc : flitCrcOk f = true) (hseen : s.seenFlit f = false) :
    s.judgeFlit f = (.good, s.noteSeen f) := by
  simp only [State.judgeFlit, hcrc, hseen, Bool.not_true, Bool.false_eq_true, if_false]
  rfl

theorem State.untimedFlit_here (hk : f.kind = kind) (hd : s.isDest f = true) (act : State → State) :
    s.untimedFlit kind f act = match s.judgeFlit f with
      | (.good, t) => if f.eff ≠ 0 then t.refuseFlit f else act t
      | (_, t) => t := by
  have hhere : ¬ (f.kind ≠ kind ∨ s.isDest f = false) := by simp [hk, hd]
  exact if_neg hhere

theorem State.untimedFlit_bad (hk : f.kind = kind) (hd : s.isDest f = true) (hcrc : flitCrcOk f = false) (act : State → State) :
    s.untimedFlit kind f act = s.refuseFlit f := by
  rw [State.untimedFlit_here hk hd, State.judgeFlit_bad hcrc]

theorem State.untimedFlit_twin (hk : f.kind = kind) (hd : s.isDest f = true) (hcrc : flitCrcOk f = true)
    (hseen : s.seenFlit f = true) (act : State → State) : s.untimedFlit kind f act = s := by
  rw [State.untimedFlit_here hk hd, State.judgeFlit_twin hcrc hseen]

/-- At its destination, intact, new and without an effective tick: the flit is used. -/
theorem State.untimedFlit_good (hd : s.isDest f = true) (hcrc : flitCrcOk f = true) (hseen : s.seenFlit f = false)
    (heff : f.eff = 0) (hk : f.kind = kind) (act : State → State) : s.untimedFlit kind f act = act (s.noteSeen f) := by
  rw [State.untimedFlit_here hk hd, State.judgeFlit_good hcrc hseen]
  exact if_neg fun h => h heff

end

/-! ### Flits for others, damaged flits and repeats -/

/-- The commands of a flit without an effective tick look at it through `untimedFlit`. -/
theorem exec_untimed (s : State) (f : Flit) {cmd : Instr} {kind : Nat} (h : (cmd, kind) ∈
      [(Instr.timeReq f 0 0, 0x01), (.timeAnnounce f 0, 0x03), (.linkEcho f, 0x7F), (.refusal f, 0x7E)]) :
    ∃ act : State → State, exec cmd s = s.after fun s => s.untimedFlit kind f act := by
  simp only [List.mem_cons, Prod.mk.injEq, List.not_mem_nil, or_false] at h
  rcases h with ⟨rfl, rfl⟩ | ⟨rfl, rfl⟩ | ⟨rfl, rfl⟩ | ⟨rfl, rfl⟩
  all_goals exact ⟨_, rfl⟩

/-- Settles O30: what `relayFlit`, the judgement of a flit and `refuseFlit` do in each case. -/
theorem relayedAndRefusedFlits : Obligations.RelayedAndRefusedFlits := by
  unfold Obligations.RelayedAndRefusedFlits
  intro s f g hs
  refine ⟨fun hd hh => ?dropped, fun hd hh hg => ?relayed, fun cmd _ kind hcmd hk hd => ⟨fun hcrc => ?damaged,
    fun hcrc hseen => ?repeated⟩, ?counted, fun hk => ?silent, fun hk => ?answered⟩
  case dropped =>
    refine State.after_live hs (f := fun s => s.relayFlit f) ?_ rfl rfl rfl rfl
    simp only [State.relayFlit, hd, hh, Bool.false_eq_true, if_false, if_true]
    rfl
  case relayed =>
    refine State.after_live hs (f := fun s => s.relayFlit f) ?_ rfl rfl rfl rfl
    simp only [State.relayFlit, hd, hh, hg, Bool.false_eq_true, if_false]
    rfl
  case damaged =>
    obtain ⟨act, hact⟩ := exec_untimed s f hcmd
    rw [hact]
    exact State.after_refuses hs (State.untimedFlit_bad hk hd hcrc _) rfl rfl rfl rfl
  case repeated =>
    obtain ⟨act, hact⟩ := exec_untimed s f hcmd
    rw [hact]
    exact State.after_live hs (State.untimedFlit_twin hk hd hcrc hseen _) rfl rfl rfl rfl
  case counted =>
    by_cases hk : f.kind = 0x7E
    · rw [State.refuseFlit_refusal hk]; rfl
    · rw [State.refuseFlit_other hk]; rfl
  case silent => rw [State.refuseFlit_refusal hk]; rfl
  case answered =>
    obtain ⟨r, hr, hkind, hsrc, hdst, hseq, -, hw0, hw1⟩ := State.sendFlit_eq s.discardFlit 0x7E (flitFrom f) 0
      (BitVec.ofNat 64 (leNat ((flitBytes f).take 8))) (BitVec.ofNat 64 (leNat (((flitBytes f).drop 8).take 8))) 0
    exact ⟨r, by rw [State.refuseFlit_other hk, hr]; rfl, hkind, hdst, hsrc, hseq, hw0, hw1⟩

/-! ### Timed flits (01 R38-R40) -/

section
variable {s : State} {f : Flit}

/-- The state that holds a flit, with its count of late flits. -/
def State.holding (s : State) (f : Flit) (late : Nat) : State :=
  { s with fab := { s.fab with
    accepted := Tbl.set s.fab.accepted (flitFrom f) (f.inc, f.seq), late := late, hold := s.fab.hold ++ [(s.tick, f)] } }

theorem State.noteLate_early (h : s.tick < flitTick f) : s.noteLate f = s := if_pos (.inl h)

/-- In a stop a flit for a tick after the cut is not late (11 R343). -/
theorem State.noteLate_stopped (hst : s.stop.stopped = true) (hcut : s.stop.cut < flitTick f) (hk : f.kind ≠ 0x21) :
    s.noteLate f = s := if_pos (.inr ⟨hst, hcut, hk⟩)

theorem State.noteLate_late (h : flitTick f ≤ s.tick) (hst : s.stop.stopped = false) :
    s.noteLate f = if strictKind f.kind
      then ({ s with fab := { s.fab with late := satInc 32 s.fab.late, lateStrict := true } } : State).raise 33
      else { s with fab := { s.fab with late := satInc 32 s.fab.late } } := by
  have hlate : ¬ (s.tick < flitTick f ∨ (s.stop.stopped = true ∧ s.stop.cut < flitTick f ∧ f.kind ≠ 0x21)) := by
    rintro (hearly | ⟨hstopped, -⟩)
    · omega
    · exact Bool.noConfusion (hst.symm.trans hstopped)
  rw [State.noteLate, if_neg hlate]
  rfl

/-- A flit joins the hold queue beside an interrupt. -/
theorem State.holdFlit_raise (s : State) (n : Nat) (f : Flit) : (s.raise n).holdFlit f = (s.holdFlit f).raise n := by
  simp only [State.raise, State.adjSrc]
  split
  · rfl
  · rfl

/-- A timed flit of the kinds that a command takes, where nothing calls for its refusal, is held. -/
theorem State.timedFlit_good {ok : Flit → Bool} (hok : ok f = true) (hd : s.isDest f = true) (hcrc : flitCrcOk f = true)
    (hseen : s.seenFlit f = false) (hsync : s.refusesTimed = false) (hahead : flitTick f ≤ s.tick + 65536)
    (hroom : s.fab.hold.length < 4096) (act : State → State) : s.timedFlit ok f act = act ((s.noteSeen f).noteLate f) := by
  have hhere : ¬ (ok f = false ∨ s.isDest f = false) := by simp [hok, hd]
  have hsync' : (s.noteSeen f).refusesTimed = false := hsync
  have hahead' : ¬ (s.noteSeen f).tick + Config.maxAhead < flitTick f := Nat.not_lt.2 hahead
  have hroom' : ¬ Config.holdFlits ≤ (s.noteSeen f).fab.hold.length := Nat.not_le.2 hroom
  simp only [State.timedFlit, if_neg hhere, State.judgeFlit_good hcrc hseen, hsync', Bool.false_eq_true, if_false,
    if_neg hahead', if_neg hroom']

/-- A command of one of those kinds holds its flit, and counts it where it is late. -/
theorem exec_timed_waits {ok : Flit → Bool} {cmd : Instr} (hs : s.live) (hok : ok f = true) (hd : s.isDest f = true)
    (hcrc : flitCrcOk f = true) (hseen : s.seenFlit f = false) (hsync : s.refusesTimed = false)
    (hahead : flitTick f ≤ s.tick + 65536) (hroom : s.fab.hold.length < 4096) (hk : f.kind ≠ 0x21)
    (hexec : exec cmd s = s.after fun s => s.timedFlit ok f fun s => s.holdFlit f) :
    (s.tick < flitTick f → exec cmd s = .next (s.holding f s.fab.late)) ∧
    (s.stop.stopped = true → s.stop.cut < flitTick f → exec cmd s = .next (s.holding f s.fab.late)) ∧
    (flitTick f ≤ s.tick → s.stop.stopped = false → exec cmd s = .next (if strictKind f.kind
      then ({ s.holding f (satInc 32 s.fab.late) with
        fab := { (s.holding f (satInc 32 s.fab.late)).fab with lateStrict := true } } : State).raise 33
      else s.holding f (satInc 32 s.fab.late))) := by
  have hheld := State.timedFlit_good hok hd hcrc hseen hsync hahead hroom fun s => s.holdFlit f
  have hkeep (h : (s.noteSeen f).noteLate f = s.noteSeen f) : exec cmd s = .next (s.holding f s.fab.late) := by
    rw [hexec]
    exact State.after_live hs (by rw [hheld, h]; rfl) rfl rfl rfl rfl
  refine ⟨fun hearly => hkeep (State.noteLate_early hearly), fun hst hcut => hkeep (State.noteLate_stopped hst hcut hk),
    fun hlate hst => ?_⟩
  rw [State.noteLate_late (s := s.noteSeen f) hlate hst] at hheld
  rw [hexec]
  cases hstrict : strictKind f.kind with
  | false =>
    rw [hstrict, if_neg Bool.false_ne_true] at hheld
    rw [if_neg Bool.false_ne_true]
    exact State.after_live hs hheld rfl rfl rfl rfl
  | true =>
    rw [hstrict, if_pos rfl, State.holdFlit_raise] at hheld
    rw [if_pos rfl]
    exact State.after_raise hs 33 hheld rfl rfl rfl rfl

end

/-- The commands of the epoch flits hold a flit of their OP. -/
theorem exec_epochFlit (s : State) (f : Flit) {cmd : Instr} {op : Nat} (h : (cmd, op) ∈
      [(Instr.epochFlitRequest f, 1), (.epochFlitPrepare f, 2), (.epochFlitReady f, 3), (.epochFlitFlip f, 4), (.epochFlitClear f, 5),
        (.epochFlitRetire f, 6), (.epochFlitCancel f, 7)]) : exec cmd s = s.after fun s => s.epochFlit op f := by
  simp only [List.mem_cons, Prod.mk.injEq, List.not_mem_nil, or_false] at h
  rcases h with ⟨rfl, rfl⟩ | ⟨rfl, rfl⟩ | ⟨rfl, rfl⟩ | ⟨rfl, rfl⟩ | ⟨rfl, rfl⟩ | ⟨rfl, rfl⟩ | ⟨rfl, rfl⟩
  all_goals rfl

/-- Settles O31: every command of a timed flit holds it; a strict kind that is late raises its interrupt too. -/
theorem timedFlitsWaitForTheirTick : Obligations.TimedFlitsWaitForTheirTick := by
  unfold Obligations.TimedFlitsWaitForTheirTick
  intro s f hs hd hcrc hseen hsync hahead hroom seen held waits
  have waits_of {cmd : Instr} {ok : Flit → Bool} (hok : ok f = true) (hk : f.kind ≠ 0x21)
      (hexec : exec cmd s = s.after fun s => s.timedFlit ok f fun s => s.holdFlit f) : waits cmd := by
    obtain ⟨hearly, hstopped, hlate⟩ := exec_timed_waits hs hok hd hcrc hseen hsync hahead hroom hk hexec
    refine ⟨hearly, hstopped, fun hl hst hstrict => ?_⟩
    have hcount := hlate hl hst
    rwa [hstrict] at hcount
  refine ⟨fun hk => ?signal, fun hk => ?fail, fun hk => ?cancel, fun hk cmd op hcmd hop => ?epoch⟩
  case signal => exact waits_of (ok := fun g => g.kind == 0x10) (by simp [hk]) (by simp [hk]) rfl
  case fail => exact waits_of (ok := fun g => g.kind == 0x11) (by simp [hk]) (by simp [hk]) rfl
  case cancel => exact waits_of (ok := fun g => g.kind == 0x40) (by simp [hk]) (by simp [hk]) rfl
  case epoch =>
    have hexec := exec_epochFlit s f hcmd
    have hok : (f.kind == 0x30 && (epochOpOf f == op || epochOpOf f == 0 || decide (7 < epochOpOf f))) = true := by simp [hk, hop]
    have hk' : f.kind ≠ 0x21 := by simp [hk]
    have hstrict : strictKind f.kind = true := by rw [hk]; rfl
    refine ⟨waits_of (ok := fun g => g.kind == 0x30 && (epochOpOf g == op || epochOpOf g == 0 || decide (7 < epochOpOf g))) hok
      hk' hexec, fun hlate hst => ?_⟩
    have hraised := (exec_timed_waits hs hok hd hcrc hseen hsync hahead hroom hk' hexec).2.2 hlate hst
    rwa [hstrict] at hraised

/-! ### Untimed flits (01 R30-R32, R37) -/

/-- A change of the synchronisation state waits for the boundary. -/
theorem State.toSync_eq (s : State) (st : SyncState) : ∃ l, s.toSync st = { s with later := l } := by
  simp only [State.toSync]
  split
  · exact ⟨s.later, rfl⟩
  · exact ⟨_, rfl⟩

section
variable {s : State} {f : Flit}

/-- With boot over the FTC is not stepped by an answer of the parent. -/
theorem State.timeRespIn_steers {t4 : Nat} {asym : Int} (hd : s.isDest f = true) (hcrc : flitCrcOk f = true)
    (hseen : s.seenFlit f = false) (heff : f.eff = 0) (hk : f.kind = 0x02) (hparent : s.fab.parent = some (flitFrom f))
    (hwaits : s.fab.waitingResp = true) (hup : s.booting = false) : s.timeRespIn f t4 asym =
      let off := offset16 f.w0.toNat f.w1.toNat f.w2.toNat t4 asym
      let good := if off.natAbs ≤ 32 then s.fab.good + 1 else 0
      ({ s.noteSeen f with fab := { (s.noteSeen f).fab with offset := off, good := good, missed := 0, waitingResp := false } } :
        State).toSync (s.fab.next off good false) := by
  have hasked : ¬ ((s.noteSeen f).fab.parent ≠ some (flitFrom f) ∨ (s.noteSeen f).fab.waitingResp = false) := by
    rintro (h | h)
    · exact h hparent
    · exact Bool.noConfusion (hwaits.symm.trans h)
  have hup' : (s.noteSeen f).booting = false := hup
  rw [State.timeRespIn, State.untimedFlit_good hd hcrc hseen heff hk, if_neg hasked]
  simp only [hup', Bool.and_false, Bool.false_and, Bool.false_eq_true, if_false]
  rfl

/-- A root or parent other than before, with no boot of a root under way: the exchange begins anew. -/
theorem State.chooseRoot_new {root hops p : Nat} {cal : Bool} (hbest : s.fab.best s.cfg.rootCand = some (root, hops, p, cal))
    (hnew : s.fab.parent ≠ some p ∨ s.fab.rootChip ≠ root) (hroot : s.fab.isRoot = false ∨ s.booting = false) :
    s.chooseRoot = { s with fab := { s.fab with
      isRoot := false, noRoot := false, rootChip := root, parent := some p, hopsToRoot := hops, calValid := cal, good := 0,
      missed := 0, waitingResp := false } } := by
  have hsame : (s.fab.parent == some p && s.fab.rootChip == root) = false := by
    rcases hnew with h | h
    · simp [h]
    · simp [h]
  have hboot : (s.fab.isRoot && s.booting) = false := by
    rcases hroot with h | h
    · simp [h]
    · simp [h]
  simp only [State.chooseRoot, hbest, hsame, hboot, Bool.false_and, Bool.false_eq_true, if_false]
  rfl

/-- Without a root a chip that is no candidate has none. -/
theorem State.chooseRoot_none (hbest : s.fab.best s.cfg.rootCand = none) (hcand : s.cfg.rootCand = false) :
    s.chooseRoot = { s with fab := { s.fab with
      isRoot := false, noRoot := true, rootChip := 0, parent := none, hopsToRoot := 0, waitingResp := false } } := by
  simp only [State.chooseRoot, hbest]
  rw [hcand]
  rfl

/-- An announcement is kept for its neighbour, and the choice of a root is made again. -/
theorem State.timeAnnounceIn_heard {nb : Nat} (hd : s.isDest f = true) (hcrc : flitCrcOk f = true) (hseen : s.seenFlit f = false)
    (heff : f.eff = 0) (hk : f.kind = 0x03) (hsync : s.fab.sync ≠ .free) : s.timeAnnounceIn f nb =
      let said := (bitsOf f.w0.toNat 0 15, bitsOf f.w0.toNat 16 8, bitOf f.w0.toNat 24)
      ({ s.noteSeen f with fab := { (s.noteSeen f).fab with heard := Tbl.set s.fab.heard nb said } } : State).chooseRoot := by
  rw [State.timeAnnounceIn, State.untimedFlit_good hd hcrc hseen heff hk]
  exact if_neg hsync

end

/-- Settles O29: an accepted flit is noted as seen, and then its kind's operation acts. -/
theorem untimedFlitsAreAnswered : Obligations.UntimedFlitsAreAnswered := by
  unfold Obligations.UntimedFlitsAreAnswered
  rintro s f t2 t3 t4 nb asym y hs hd hcrc hseen rfl
  have hgood := fun (heff : f.eff = 0) {kind : Nat} (hk : f.kind = kind) =>
    State.untimedFlit_good hd hcrc hseen heff hk
  refine ⟨fun heff => ⟨fun hk => ?request, fun hk hother => ?echo, fun hk hours => ⟨Config.pick s.free, ?path⟩,
    fun hk k p hkey hp => ?refusal, fun hk hparent hwaits hup off good hoff hgoodN => ?response,
    fun hk hsync z hz => ⟨fun root hops p cal hbest hnew hroot => ?root, fun hbest hcand => ?noRoot⟩⟩, fun hk => ?unknown⟩
  case request => exact State.after_live hs (f := fun s => s.timeReqIn f t2 t3) (hgood heff hk _) rfl rfl rfl rfl
  case echo =>
    refine State.after_live hs (f := fun s => s.echoIn f) ((hgood heff hk _).trans (if_neg ?_)) rfl rfl rfl rfl
    exact hother
  case path =>
    refine State.after_live hs (f := fun s => s.echoIn f) ((hgood heff hk _).trans (if_pos ?_)) rfl rfl rfl rfl
    exact hours
  case refusal =>
    refine State.after_live hs (f := fun s => s.refusalIn f) ?_ rfl rfl rfl rfl
    rw [State.refusalIn, hgood heff hk]
    subst hkey
    have hp' : Tbl.get? (s.noteSeen f).fab.origin (bitsOf f.w0.toNat 32 16 * 2 ^ 16 + bitsOf f.w0.toNat 48 16) = some p := hp
    simp only [hp', State.adjCounts, State.adjPart, State.adjFab]
    rfl
  case response =>
    subst hoff hgoodN
    obtain ⟨l, hl⟩ := State.toSync_eq _ _
    exact State.after_live hs (f := fun s => s.timeRespIn f t4 asym)
      (State.timeRespIn_steers hd hcrc hseen heff hk hparent hwaits hup) (by rw [hl]) (by rw [hl]) (by rw [hl]) (by rw [hl])
  case root =>
    subst hz
    refine State.after_live hs (f := fun s => s.timeAnnounceIn f nb) ?_ rfl rfl rfl rfl
    rw [State.timeAnnounceIn_heard hd hcrc hseen heff hk hsync]
    exact State.chooseRoot_new hbest hnew hroot
  case noRoot =>
    subst hz
    refine State.after_live hs (f := fun s => s.timeAnnounceIn f nb) ?_ rfl rfl rfl rfl
    rw [State.timeAnnounceIn_heard hd hcrc hseen heff hk hsync]
    exact State.chooseRoot_none hbest hcand
  case unknown =>
    refine State.after_refuses hs (f := fun s => s.unknownFlit f) ?_ rfl rfl rfl rfl
    simp only [State.unknownFlit, hk, hd, Bool.not_true, Bool.or_false, Bool.false_eq_true, if_false,
      State.judgeFlit_good hcrc hseen]
    rfl

end Sys2Proof.Machine
end

section
/-! PROOFS. Links and synchronisation (01 R30, R34, R35; 02 R74; 14 R409): results that wait for the boundary, what they do there,
and the exchange of a child with its parent. -/
namespace Sys2Proof.Machine

/-! ### A mask with a bit cleared -/

theorem bitOf_succ (v i : Nat) : bitOf v (i + 1) = bitOf (v / 2) i := by
  rw [bitOf, bitOf, Nat.pow_succ', Nat.div_div_eq_div_mul]

theorem two_pow_le_of_bitOf {m i : Nat} (h : bitOf m i = true) : 2 ^ i ≤ m := by
  refine Nat.le_of_not_lt fun hlt => ?_
  simp [bitOf, Nat.div_eq_of_lt hlt] at h

theorem bitOf_sub_two_pow {m i : Nat} (l : Nat) (h : bitOf m i = true) : bitOf (m - 2 ^ i) l = (bitOf m l && l != i) := by
  induction i generalizing m l with
  | zero =>
    have hodd : m % 2 = 1 := by simpa [bitOf] using h
    cases l with
    | zero =>
      have heven : (m - 1) % 2 = 0 := by omega
      simp [bitOf, heven]
    | succ l =>
      have hhalf : (m - 2 ^ 0) / 2 = m / 2 := by omega
      rw [bitOf_succ, bitOf_succ, hhalf]
      simp
  | succ i ih =>
    have hle : 2 * 2 ^ i ≤ m := Nat.pow_succ' ▸ two_pow_le_of_bitOf h
    rw [Nat.pow_succ']
    cases l with
    | zero =>
      have hsame : (m - 2 * 2 ^ i) % 2 = m % 2 := by omega
      simp [bitOf, hsame]
    | succ l =>
      have hhalf : (m - 2 * 2 ^ i) / 2 = m / 2 - 2 ^ i := by omega
      rw [bitOf_succ, bitOf_succ, hhalf, ih l (bitOf_succ m i ▸ h)]
      simp

theorem bitOf_clearBit (m i l : Nat) : bitOf (clearBit m i) l = (bitOf m l && l != i) := by
  cases h : bitOf m i with
  | true => rw [clearBit, if_pos h, bitOf_sub_two_pow l h]
  | false =>
    rw [clearBit, h, if_neg Bool.false_ne_true]
    by_cases hl : l = i
    · subst hl; simp [h]
    · simp [hl]

/-! ### A link that is gone -/

theorem State.rootLocked_eq (s : State) : ∃ l, s.rootLocked = { s with later := l } := by
  rw [State.rootLocked]
  split
  · exact ⟨s.later, rfl⟩
  · exact State.toSync_eq s .locked

/-- The choice of a root leaves the links and what neighbours announced; a synchronisation state that it calls for waits. -/
theorem State.chooseRoot_eq (s : State) : ∃ x l, s.chooseRoot = { s with fab := x, later := l } ∧ x.linksUp = s.fab.linksUp ∧
    x.linkWentDown = s.fab.linkWentDown ∧ x.heard = s.fab.heard := by
  simp only [State.chooseRoot]
  split
  case h_1 =>
    split
    case isTrue => exact ⟨_, s.later, rfl, rfl, rfl, rfl⟩
    case isFalse =>
      split
      case isTrue =>
        obtain ⟨l, hl⟩ := State.toSync_eq _ SyncState.acquiring
        exact ⟨_, l, hl, rfl, rfl, rfl⟩
      case isFalse => exact ⟨_, s.later, rfl, rfl, rfl, rfl⟩
  case h_2 =>
    by_cases hroot : (s.cfg.rootCand && !s.fab.isRoot) = true
    · rw [if_pos hroot]
      obtain ⟨l, hl⟩ := State.rootLocked_eq _
      exact ⟨_, l, hl, rfl, rfl, rfl⟩
    · rw [if_neg hroot]
      exact ⟨_, s.later, rfl, rfl, rfl, rfl⟩

/-- Does another link that is up lead to the chip behind a link? -/
def State.otherLinkTo (s : State) (link : Nat) : Bool :=
  (List.range 8).any fun l => bitOf (clearBit s.fab.linksUp link) l &&
    (Tbl.getD s.fab.links l (0, 0)).1 == (Tbl.getD s.fab.links link (0, 0)).1

theorem State.otherLinkTo_eq_false {s : State} {link : Nat} (h : ∀ l < 8, l ≠ link → bitOf s.fab.linksUp l = true →
    (Tbl.getD s.fab.links l (0, 0)).1 ≠ (Tbl.getD s.fab.links link (0, 0)).1) : s.otherLinkTo link = false := by
  rw [State.otherLinkTo, List.any_eq_false]
  intro l hl
  rw [bitOf_clearBit]
  simp only [Bool.and_eq_true, bne_iff_ne, beq_iff_eq, not_and]
  exact fun ⟨hup, hne⟩ => h l (List.mem_range.1 hl) hne hup

/-- The state in which a link has gone down and its unacknowledged flits are sent again. -/
def State.linkLost (s : State) (link : Nat) (unacked : List (Nat × Nat × Nat)) : State :=
  { ({ s with fab := { s.fab with linksUp := clearBit s.fab.linksUp link, linkWentDown := true } } : State).raise 33 with
    out := s.out ++ unackedFlits s.out unacked }

theorem State.linkGone_eq (s : State) (link : Nat) (unacked : List (Nat × Nat × Nat)) :
    s.linkGone link unacked = if s.otherLinkTo link || s.fab.sync == .free then s.linkLost link unacked
      else ((s.linkLost link unacked).adjFab fun x =>
        { x with heard := Tbl.erase x.heard (Tbl.getD s.fab.links link (0, 0)).1 }).chooseRoot := rfl

/-- What a link that goes down leaves for certain. -/
theorem State.linkGone_fab_out (s : State) (link : Nat) (unacked : List (Nat × Nat × Nat)) :
    (s.linkGone link unacked).fab.linksUp = clearBit s.fab.linksUp link ∧ (s.linkGone link unacked).fab.linkWentDown = true ∧
      (s.linkGone link unacked).out = s.out ++ unackedFlits s.out unacked := by
  rw [State.linkGone_eq]
  split
  · exact ⟨rfl, rfl, rfl⟩
  · obtain ⟨x, l, hx, hup, hdown, -⟩ := State.chooseRoot_eq _
    rw [hx]
    exact ⟨hup, hdown, rfl⟩

/-- The last link to a neighbour: what it announced is void. -/
theorem State.linkGone_heard {s : State} {link : Nat} (unacked : List (Nat × Nat × Nat)) (hsync : s.fab.sync ≠ .free)
    (hlast : s.otherLinkTo link = false) :
    (s.linkGone link unacked).fab.heard = Tbl.erase s.fab.heard (Tbl.getD s.fab.links link (0, 0)).1 := by
  have hfree : ¬ (s.otherLinkTo link || s.fab.sync == .free) = true := by simp [hlast, hsync]
  obtain ⟨x, l, hx, -, -, hheard⟩ := State.chooseRoot_eq _
  rw [State.linkGone_eq, if_neg hfree, hx]
  exact hheard

/-! ### The exchange with the parent (01 R30, R34) -/

/-- A stamped flit goes out, with an instant within the tick. -/
theorem State.sendStamped_eq (s : State) (kind dst : Nat) : ∃ (k : Nat) (f : Flit), k < 64 ∧ s.sendStamped kind dst =
    (s.ftc + k, { s with
      free := s.free + 1
      fab := { s.fab with seqTo := Tbl.set s.fab.seqTo dst ((Tbl.getD s.fab.seqTo dst 0 + 1) % 2 ^ 16) }
      out := s.out ++ [.flit f] }) ∧
    f.kind = kind ∧ f.dst = dst ∧ f.eff = 0 ∧ f.w0 = BitVec.ofNat 64 (s.ftc + k) :=
  ⟨Config.pick s.free % 64, _, Nat.mod_lt _ (by decide), rfl, rfl, rfl, rfl, rfl⟩

/-- Is a message a LINK_ECHO to a chip from which flits have come, stamped within the tick, whose stamp `x` keeps? -/
def State.echoes (s : State) (x : Fab) (o : Out) : Prop :=
  ∃ g k, o = .flit g ∧ g.kind = 0x7F ∧ g.dst ∈ Tbl.keys s.fab.accepted ∧ k < 64 ∧ g.w0 = BitVec.ofNat 64 (s.ftc + k) ∧
    Tbl.get? x.echoes g.dst = some (s.ftc + k)

/-- The measurement of a path sends at most one LINK_ECHO, and leaves the exchange with the parent alone. -/
theorem State.measurePath_eq (s : State) : ∃ x n rest, s.measurePath = { s with fab := x, free := n, out := s.out ++ rest } ∧
    x.waitingResp = s.fab.waitingResp ∧ x.missed = s.fab.missed ∧ x.sync = s.fab.sync ∧ x.ftc = s.fab.ftc ∧
    rest.length ≤ 1 ∧ ∀ o ∈ rest, s.echoes x o := by
  simp only [State.measurePath]
  split
  case h_1 => exact ⟨s.fab, s.free, [], by simp, rfl, rfl, rfl, rfl, by simp, by simp⟩
  case h_2 c hc =>
    obtain ⟨k, f, hk, hsend, hkind, hdst, -, hw⟩ := s.sendStamped_eq 0x7F c
    rw [hsend]
    refine ⟨_, _, [.flit f], rfl, rfl, rfl, rfl, rfl, Nat.le_refl 1, fun o ho => ?_⟩
    rw [List.mem_singleton.1 ho]
    refine ⟨f, k, rfl, hkind, hdst ▸ List.mem_of_getElem? hc, hk, hw, ?_⟩
    rw [hdst]
    exact Tbl.get?_set_same _ _ _

theorem State.exchangeDue_first {s : State} (h : s.once.contains 3 = false) :
    s.exchangeDue = { s.timeExchange with once := 3 :: s.once } := by
  rw [State.exchangeDue, State.onceInTick, h, if_neg Bool.false_ne_true]

theorem State.timeExchange_due {s : State} (hperiod : s.tick % 2 ^ s.fab.syncPeriod = 0) (hsync : s.fab.sync ≠ .free) :
    s.timeExchange = State.measurePath (match s.fab.parent with
      | none => if s.fab.isRoot then s else s.missPeriod
      | some p => ((if s.fab.waitingResp then s.missPeriod else s).sendStamped 0x01 p).2.adjFab fun x =>
          { x with waitingResp := true }) := by
  have hdue : ¬ (s.tick % s.fab.period ≠ 0 ∨ s.fab.sync = .free) := by
    rintro (h | h)
    · exact h hperiod
    · exact hsync h
  exact if_neg hdue

/-- Settles O37: results join those that wait, `linkGone` and `linkBack` act at the boundary, and a child sends TIME_REQ. -/
theorem linksAndSynchronisation : Obligations.LinksAndSynchronisation := by
  unfold Obligations.LinksAndSynchronisation
  intro s link chip lat gen unacked hs later down
  obtain ⟨hup, hwent, hout⟩ := s.linkGone_fab_out link unacked
  refine ⟨fun hl hbit => ?fails, fun hl hc hfab => ?trains, ⟨fun hgen => ?retrains, fun hgen => ?tooFast⟩,
    fun hphase hfab hsync htime => ?timeout, fun par hpar hperiod hsync honce hwait _ => ?child,
    fun hpar hroot hacc hperiod hsync honce => ?root, hup, hwent, hout,
    fun hsync hlast => State.linkGone_heard unacked hsync (State.otherLinkTo_eq_false hlast), rfl, Tbl.get?_set_same _ _ _⟩
  case fails => exact State.after_live hs (f := fun s => s.linkFails link unacked) (if_pos ⟨hl, hbit⟩) rfl rfl rfl rfl
  case trains =>
    refine State.after_live hs (f := fun s => s.linkTrains link chip lat) (if_pos ?_) rfl rfl rfl rfl
    simp only [hl, hc, hfab, decide_true, Bool.and_self]
  case retrains => exact State.after_live hs (f := fun s => s.hostLinkTrains gen) (if_pos hgen) rfl rfl rfl rfl
  case tooFast =>
    exact State.after_live hs (f := fun s => s.hostLinkTrains gen) (if_neg (Nat.not_le.2 hgen)) rfl rfl rfl rfl
  case timeout =>
    exact State.after_live hs (f := State.alignTimeout) (if_pos ⟨hphase, hfab, hsync, htime⟩) rfl rfl rfl rfl
  case child =>
    obtain ⟨k, f, hk, hsend, hkind, hdst, heff, hw⟩ := s.sendStamped_eq 0x01 par
    obtain ⟨x, n, rest, hpath, hxw, hxm, hxs, hxf, hlen, hechoes⟩ := State.measurePath_eq
      ((s.sendStamped 0x01 par).2.adjFab fun x => { x with waitingResp := true })
    have hdone := s.exchangeDue_first honce
    rw [State.timeExchange_due hperiod hsync, hpar, hwait] at hdone
    simp only [Bool.false_eq_true, if_false] at hdone
    rw [hpath, hsend] at hdone
    rw [hsend] at hxm hxs hxf hechoes
    refine ⟨_, State.after_live hs (f := State.exchangeDue) hdone rfl rfl rfl rfl, rfl, hxw, hxm, hxs, hxf, f, rest,
      List.append_assoc _ _ _, hkind, hdst, heff, ⟨k, hk, hw⟩, hlen, hechoes⟩
  case root =>
    refine State.after_live hs (f := State.exchangeDue) ?_ rfl rfl rfl rfl
    rw [State.exchangeDue_first honce, State.timeExchange_due hperiod hsync, hpar]
    simp only [hroot, if_true, State.measurePath, hacc, Tbl.keys, List.map_nil, List.getElem?_nil]

end Sys2Proof.Machine
end

section
/-! PROOFS. Engine endpoints (01 R20-R22; 04 R123; 07 R222; 11 R341, R342; 15 R424, R431): what a message to or from an endpoint
does to it, and what a report stores. -/
namespace Sys2Proof.Machine

/-! ### Changes of one endpoint -/

theorem Tbl.set_set {α : Type} (t : Tbl α) (n : Nat) (u v : α) : Tbl.set (Tbl.set t n u) n v = Tbl.set t n v := by
  induction t with
  | nil => simp [Tbl.set]
  | cons e t ih =>
    obtain ⟨k, w⟩ := e
    by_cases hlt : n < k
    · simp [Tbl.set, hlt]
    · by_cases heq : k = n
      · simp [Tbl.set, heq]
      · simp [Tbl.set, hlt, heq, ih]

theorem State.adjEp_adjEp (s : State) (e : Nat) (f g : Ep → Ep) : (s.adjEp e f).adjEp e g = s.adjEp e fun x => g (f x) := by
  simp only [State.adjEp, State.ep, Tbl.getD_set_same, Tbl.set_set]

/-! ### The BUSY pair (15 R424) -/

/-- The BUSY pair of an endpoint with more running time. -/
def Ep.addBusy (x : Ep) (ns cyc : Nat) : Ep :=
  { x with busyNs := (x.busyNs + ns) % 2 ^ 64, busyCyc := (x.busyCyc + cyc) % 2 ^ 69 }

/-- Counts of an endpoint's work change its BUSY pair and the counters of the chip and of a partition. -/
theorem State.addCounts_eq (s : State) (e : Nat) (p : Option Nat) (ops : List (Nat × Nat)) (ns cyc : Nat) :
    ∃ gc pc, s.addCounts e p ops ns cyc = { s.adjEp e fun x => x.addBusy ns cyc with gcnt := gc, pcnt := pc } := by
  cases p with
  | none => exact ⟨_, s.pcnt, rfl⟩
  | some p => exact ⟨_, _, rfl⟩

/-- A segment of an endpoint whose running time is counted up to an instant. -/
def Ep.counted (x : Ep) (g : Seg) (stopped : Bool) (now : Nat) : Ep :=
  let d := x.busyNow stopped now
  ({ x with seg := some { g with busy := g.busy + d, busyFrom := max g.busyFrom now } } : Ep).addBusy d (d * x.step * 3)

theorem State.countBusy_eq {s : State} {e : Nat} {g : Seg} (now : Nat) (hseg : (s.ep e).seg = some g) :
    ∃ gc pc, s.countBusy e now = { s.adjEp e fun x => x.counted g s.stop.stopped now with gcnt := gc, pcnt := pc } := by
  obtain ⟨gc, pc, hc⟩ := State.addCounts_eq (s.adjEp e fun x => { x with seg := some { g with
    busy := g.busy + (s.ep e).busyNow s.stop.stopped now, busyFrom := max g.busyFrom now } }) e g.part []
    ((s.ep e).busyNow s.stop.stopped now) ((s.ep e).busyNow s.stop.stopped now * (s.ep e).step * 3)
  refine ⟨gc, pc, ?_⟩
  simp only [State.countBusy, hseg, hc, State.adjEp_adjEp]
  rfl

/-! ### Reports (01 R20-R22; 04 R123) -/

/-- An endpoint that has reported: unless with a fatal error, its segment has ended and is counted. -/
def Ep.reported (x : Ep) (fatal stopped : Bool) (now : Nat) : Ep :=
  match x.seg with
  | none => { x with ended := false }
  | some g => if fatal then { x with ended := false } else { x.counted g stopped now with ended := true }

theorem Ep.reported_quiet {x : Ep} {fatal : Bool} (stopped : Bool) (now : Nat) (h : fatal = true ∨ x.seg = none) :
    x.reported fatal stopped now = { x with ended := false } := by
  rcases h with h | h
  · cases hx : x.seg with
    | none => simp only [Ep.reported, hx]
    | some g => simp only [Ep.reported, hx, h, if_true]
  · simp only [Ep.reported, h]

theorem Ep.reported_seg {x : Ep} {g : Seg} (stopped : Bool) (now : Nat) (h : x.seg = some g) :
    x.reported false stopped now = { x.counted g stopped now with ended := true } := by
  simp only [Ep.reported, h, Bool.false_eq_true, if_false]

section
variable {s : State} {node : Bool} {e now : Nat} {r : SegReport}

/-- A report that Mahorn takes, from the state in which the BUSY pair is counted up to the end of the segment. -/
theorem State.report_taken (h : s.takesReport node e r = true) (hnow : now = min (s.tick * 64 + 63) (r.stamp.getD s.ftc)) :
    s.report node e r =
      let s0 := if r.fatal then s else s.countBusy e now
      { s0.adjEp e fun x => { x with ended := !r.fatal && x.seg.isSome } with
        stores := (s.kept e r.writes).reverse ++ s0.stores, msgs := s0.msgs ++ [{ ep := e, node := node, r := r }] } := by
  rw [State.report, if_pos h, hnow]
  cases r.stamp with
  | none => rfl
  | some t => rfl

theorem State.adjEp_congr {f g : Ep → Ep} (h : f (s.ep e) = g (s.ep e)) : s.adjEp e f = s.adjEp e g := by
  simp only [State.adjEp, h]

/-- What the report leaves: the endpoint, the counters, the stores of its kernel, and the message that waits. -/
theorem State.report_eq (h : s.takesReport node e r = true) (hnow : now = min (s.tick * 64 + 63) (r.stamp.getD s.ftc)) :
    ∃ gc pc, s.report node e r = { s.adjEp e fun x => x.reported r.fatal s.stop.stopped now with
      gcnt := gc, pcnt := pc, stores := (s.kept e r.writes).reverse ++ s.stores
      msgs := s.msgs ++ [{ ep := e, node := node, r := r }] } := by
  rw [State.report_taken h hnow]
  by_cases hquiet : r.fatal = true ∨ (s.ep e).seg = none
  · have hs0 : (if r.fatal then s else s.countBusy e now) = s := by
      rcases hquiet with hf | hseg
      · rw [if_pos hf]
      · simp only [State.countBusy, hseg, ite_self]
    have hended : (!r.fatal && (s.ep e).seg.isSome) = false := by
      rcases hquiet with hf | hseg
      · rw [hf]; rfl
      · rw [hseg]; simp
    have hep : (s.adjEp e fun x => { x with ended := !r.fatal && x.seg.isSome }) =
        s.adjEp e fun x => x.reported r.fatal s.stop.stopped now :=
      State.adjEp_congr (by simp only [Ep.reported_quiet _ _ hquiet, hended])
    refine ⟨s.gcnt, s.pcnt, ?_⟩
    rw [hs0, ← hep]
    rfl
  · obtain ⟨hf, hseg⟩ := not_or.1 hquiet
    obtain ⟨g, hg⟩ := Option.ne_none_iff_exists'.1 hseg
    obtain ⟨gc, pc, hc⟩ := State.countBusy_eq now hg
    refine ⟨gc, pc, ?_⟩
    rw [Bool.not_eq_true] at hf
    have hep : ((s.adjEp e fun x => x.counted g s.stop.stopped now).adjEp e fun x => { x with ended := !r.fatal && x.seg.isSome }) =
        s.adjEp e fun x => x.reported r.fatal s.stop.stopped now := by
      rw [State.adjEp_adjEp]
      refine State.adjEp_congr ?_
      simp only [hf, Ep.reported_seg _ _ hg]
      rfl
    rw [if_neg (Bool.not_eq_true _ ▸ hf), hc, ← hep]
    rfl

/-! ### Which reports Mahorn takes -/

theorem State.takesReport_hub (hst : s.stop.stopped = false) (hsent : s.sentBy e < 2) (hclk : (s.ep e).clockStopped = false)
    (hlo : 512 ≤ e) (hhi : e < 526) (hpart : s.hubPart e r.part = true) : s.takesReport node e r = true := by
  simp [State.takesReport, hst, hsent, hclk, hlo, hhi, hpart]

theorem State.takesReport_core {g : Seg} (hst : s.stop.stopped = false) (hsent : s.sentBy e < 2)
    (hclk : (s.ep e).clockStopped = false) (he : e < 512) (hfenced : s.isFenced (e / 4) = false) (hhung : (s.ep e).hung = false)
    (hended : (s.ep e).ended = false) (hseg : (s.ep e).seg = some g) (hbegun : g.begun.isSome = true)
    (hfits : r.fatal = true ∨ s.reportFits node e g r = true) : s.takesReport node e r = true := by
  have hhi : e < 526 := by omega
  have hends : (r.fatal || s.reportFits node e g r) = true := by rw [Bool.or_eq_true]; exact hfits
  simp [State.takesReport, hst, hsent, hclk, he, hhi, hfenced, hhung, hended, hseg, hbegun, hends]

/-- An endpoint reports at most the items that it was given: a failed segment, or one that ends as R123 says. -/
theorem State.reportFits_of {g : Seg} (hle : r.items ≤ g.count)
    (h : r.code ≠ 0 ∨ (s.endsItems e g r.items = true ∧ s.kindFits node g r.items = true)) : s.reportFits node e g r = true := by
  rcases h with hcode | ⟨hends, hkind⟩
  · simp [State.reportFits, hle, hcode]
  · simp [State.reportFits, hle, hends, hkind]

theorem State.endsItems_all {g : Seg} {n : Nat} (h : n = g.count) : s.endsItems e g n = true := by
  simp [State.endsItems, h]

theorem Ep.busyNow_running {x : Ep} {g : Seg} {b : Nat} (hseg : x.seg = some g) (hbegun : g.begun = some b)
    (hclk : x.clockStopped = false) (hended : x.ended = false) (now : Nat) : x.busyNow false now = now - max b g.busyFrom := by
  simp [Ep.busyNow, hseg, hbegun, hclk, hended]

/-- A segment may end once one of its items is done and its time has passed (04 R123). -/
theorem State.endsItems_time {g : Seg} {b n : Nat} (hst : s.stop.stopped = false) (hseg : (s.ep e).seg = some g)
    (hbegun : g.begun = some b) (hclk : (s.ep e).clockStopped = false) (hended : (s.ep e).ended = false) (hn : 1 ≤ n)
    (htime : g.segNs ≤ g.busy + (s.tick * 64 + 63 - max b g.busyFrom)) : s.endsItems e g n = true := by
  simp [State.endsItems, hst, Ep.busyNow_running hseg hbegun hclk hended, hn, hbegun, htime]

/-! ### What a report leaves -/

theorem engineReport_of_mem {cmd : Instr} (h : (cmd, node) ∈ [(Instr.segmentDone e r, false), (.nodeDone e r, true)]) :
    engineReport cmd = some (node, e, r) := by
  simp only [List.mem_cons, Prod.mk.injEq, List.not_mem_nil, or_false] at h
  rcases h with ⟨rfl, rfl⟩ | ⟨rfl, rfl⟩
  · rfl
  · rfl

/-- A report of bytes that all lie in device memory has its effect. -/
theorem exec_report {cmd : Instr} (hcmd : engineReport cmd = some (node, e, r))
    (hdev : ∀ c ∈ r.writes, deviceAddr s.cfg c.1 = true) : exec cmd s = s.after fun s => s.report node e r := by
  have hall : (r.writes.all fun w => deviceAddr s.cfg w.1) = true := List.all_eq_true.2 hdev
  rw [exec_engineReport s hcmd, State.reportAstray, hall, Bool.not_true, Bool.and_false, if_neg (fun h => Bool.false_ne_true h.2)]

/-- One of a byte outside the device address map faults. -/
theorem exec_report_astray {cmd : Instr} {c : Host.Cell} (hs : s.live) (hcmd : engineReport cmd = some (node, e, r))
    (htakes : s.takesReport node e r = true) (hc : c ∈ r.writes) (hout : deviceAddr s.cfg c.1 = false) :
    exec cmd s = .fault .noDeviceAddress := by
  have hall : (r.writes.all fun w => deviceAddr s.cfg w.1) = false := List.all_eq_false.2 ⟨c, hc, by simp [hout]⟩
  rw [exec_engineReport s hcmd, State.reportAstray, htakes, hall, if_pos ⟨hs.2, rfl⟩]

/-- The state that a report leaves: its endpoint, the counters, its message, and in memory what its kernel stored. -/
theorem State.after_report (hs : s.live) (htakes : s.takesReport node e r = true)
    (hnow : now = min (s.tick * 64 + 63) (r.stamp.getD s.ftc)) : GoesTo (s.after fun s => s.report node e r) fun t =>
      t = { s with mem := t.mem, eps := t.eps, gcnt := t.gcnt, pcnt := t.pcnt, msgs := s.msgs ++ [{ ep := e, node := node, r := r }] } ∧
      t.ep e = (s.ep e).reported r.fatal s.stop.stopped now ∧ (∀ k, e ≠ k → t.ep k = s.ep k) ∧
      ∀ a, t.readByte a = match newest (s.kept e r.writes).reverse a with | some b => b | none => s.readByte a := by
  obtain ⟨gc, pc, hrep⟩ := State.report_eq htakes hnow
  obtain ⟨-, hst, hcl⟩ := hs.1
  rw [hst, List.append_nil] at hrep
  refine ⟨_, State.after_eq hs.2 _, ?_, ?_, fun k hk => ?_, fun a => ?_⟩
  · rw [State.run_eq hs.1, hrep]
    simp only [State.adjEp, hst, hcl]
  · rw [State.run_eq hs.1, hrep]
    exact State.ep_adjEp_same s e fun x => x.reported r.fatal s.stop.stopped now
  · rw [State.run_eq hs.1, hrep]
    exact State.ep_adjEp_other s (fun x => x.reported r.fatal s.stop.stopped now) hk
  · rw [State.readByte_run hs.1 (by rw [hrep]; rfl), hrep]
    simp only [State.readByte, State.adjEp, hst, hcl]
    rfl

end

/-! ### Fence messages (01 R20) -/

theorem State.after_fenceMessage {s : State} {p f : Nat} (hs : s.live) (v : Nat) (hlive : s.fenceLive p f = true)
    (hmay : s.maySignal p f = true) (hhome : s.isRemote (pkey p f) = false) (hst : s.stop.stopped = false) :
    exec (.fenceSignalMessage p f v) s =
      .next { s with sigs := s.sigs ++ [{ src := .message, fence := pkey p f, value := some (v % 2 ^ 64) }] } :=
  State.after_live hs (f := fun s => s.fenceMessage p f v) (if_pos (by simp only [hlive, hmay, hhome, hst, Bool.not_false, Bool.and_self]))
    rfl rfl rfl rfl

/-- Settles O33: the clauses say which reports `takesReport` lets through; `after_report` says what they leave. -/
theorem reportsAndMessagesReachMahorn : Obligations.ReportsAndMessagesReachMahorn := by
  unfold Obligations.ReportsAndMessagesReachMahorn
  rintro s ep p f v now r cmd node x hs rfl hnow
  refine ⟨fun hcmd hmay => ?_, State.after_fenceMessage hs v⟩
  have hrep := engineReport_of_mem hcmd
  have htakes : s.takesReport node ep r = true := by
    rcases hmay with htakes | ⟨hst, hsent, hclk, ⟨hlo, hhi, hpart⟩ | ⟨g, b, he, hfenced, hhung, hended, hseg, hbegun, hends⟩⟩
    · exact htakes
    · exact State.takesReport_hub hst hsent hclk hlo hhi hpart
    · refine State.takesReport_core hst hsent hclk he hfenced hhung hended hseg (by rw [hbegun]; rfl) (hends.imp_right ?_)
      rintro ⟨hle, hcode | ⟨hall | ⟨hn, htime⟩, hkind⟩⟩
      · exact State.reportFits_of hle (.inl hcode)
      · exact State.reportFits_of hle (.inr ⟨State.endsItems_all hall, hkind⟩)
      · exact State.reportFits_of hle (.inr ⟨State.endsItems_time hst hseg hbegun hclk hended hn htime, hkind⟩)
  refine ⟨fun hdev => ?_, fun c hc hout => exec_report_astray hs hrep htakes hc hout⟩
  obtain ⟨t, ht, hstate, hep, hothers, hbytes⟩ := State.after_report hs htakes hnow
  refine ⟨t, (exec_report hrep hdev).trans ht, hstate, fun hquiet => ?_, fun g d hf hseg hd => ?_, hothers, hbytes⟩
  · rw [hep, Ep.reported_quiet _ _ hquiet]
  · rw [hep, hf, Ep.reported_seg _ _ hseg, hd]
    rfl

end Sys2Proof.Machine
end

section
/-! PROOFS. Messages to endpoints (01 R20; 07 R222; 11 R341, R342; 14 R417; 15 R430, R431): the begin of a segment, an ABORT, a
stop, and the trace of a report. -/
namespace Sys2Proof.Machine

/-! ### DISPATCH (01 R20; 09 R292) -/

section
variable {s : State} {e stamp w i : Nat} {g : Seg}

/-- A segment that begins, with what its walker has reached. -/
def Ep.begun (x : Ep) (g : Seg) (stamp walked : Nat) : Ep := { x with seg := some { g with begun := some stamp, walked := walked } }

theorem State.beginSeg_eq (hseg : (s.ep e).seg = some g) (hnew : g.begun = none) (hst : s.stop.stopped = false)
    (hclk : (s.ep e).clockStopped = false) (hhung : (s.ep e).hung = false) (hfrom : g.from_ ≤ s.tick)
    (hlo : (s.ep e).mayBegin g ≤ stamp) (hhi : stamp ≤ (s.ep e).mayBegin g + twoPeriods (s.ep e).step) :
    s.beginSeg e stamp = (s.adjEp e fun x => x.begun g stamp g.walked).walkSeg e 1 := by
  have hbegins : s.begins e = true := by simp [State.begins, hseg, hnew, hst, hclk, hhung, hfrom]
  simp only [State.beginSeg, hseg, hbegins, hlo, hhi, decide_true, Bool.and_self, if_true]
  rfl

/-- A segment that is not of a GROUPED_MM has no walker. -/
theorem State.walkSeg_other (n : Nat) (hseg : (s.ep e).seg = some g)
    (h : ∀ w i, g.owner = .work w i → ∃ y, s.work? w = some y ∧ opcodeOf y.cmd ≠ 0x05) : s.walkSeg e n = s := by
  cases howner : g.owner with
  | task t i => simp only [State.walkSeg, hseg, howner]
  | gather n => simp only [State.walkSeg, hseg, howner]
  | work w i =>
    obtain ⟨y, hy, hop⟩ := h w i howner
    simp only [State.walkSeg, hseg, howner, hy, if_pos hop]

/-- The walker of a GROUPED_MM goes on by one item. -/
theorem State.walkSeg_one {y : Work} (hseg : (s.ep e).seg = some g) (howner : g.owner = .work w i) (hy : s.work? w = some y)
    (hop : opcodeOf y.cmd = 0x05) (hleft : g.walked < g.count) : s.walkSeg e 1 =
      (s.adjEp e fun x => { x with seg := some { g with walked := g.walked + 1 } }).mmReach w i (g.first + g.walked) := by
  have hone : min 1 (g.count - g.walked) = 1 := by omega
  simp only [State.walkSeg, hseg, howner, hy, hop, ne_eq, not_true_eq_false, if_false, hone]
  rfl

end

/-- The effect of a command that begins with a quiet change is run from the changed state. -/
theorem State.after_run {s u : State} {f k : State → State} (hs : s.live) (hf : f s = k u) (hmem : u.mem = s.mem)
    (hst : u.stores = s.stores) (hcl : u.cleared = s.cleared) (hq : u.pending = s.pending) : s.after f = .next (u.run k) := by
  obtain ⟨hwf, hst0, hcl0⟩ := hs.1
  have hu : u.settled := ⟨hmem ▸ hwf, hst.trans hst0, hcl.trans hcl0⟩
  rw [State.after_eq hs.2, State.run_eq hs.1, State.run_eq hu, hf, hmem, hq]

/-! ### ABORT (07 R222; 14 R417) -/

section
variable {s : State} {e b : Nat} {u : Bool} {g : Seg}

/-- The state port's end of a segment: a report of free amounts joins the messages. -/
theorem State.cutSeg_eq (s : State) (e n : Nat) : s.cutSeg e n = { s.adjEp e fun x => { x with ended := true } with
    free := s.free + 129, msgs := s.msgs ++ [{ ep := e, node := false, r := SegReport.cut e n s.free }] } := rfl

theorem State.abortArrives_eq (habort : (s.ep e).abort = some (u, b)) (hseg : (s.ep e).seg = some g)
    (hnew : (s.ep e).abortAt = none) (hended : (s.ep e).ended = false) (hst : s.stop.stopped = false)
    (hdue : b + (if (s.ep e).clockStopped then 0 else 1) ≤ s.tick) : s.abortArrives e =
      let t := s.adjEp e fun x => { x with abortAt := some s.tick }
      if (s.ep e).clockStopped then t.cutSeg e g.count else t := by
  have htakes : ¬ (s.tick < b + (if (s.ep e).clockStopped then 0 else 1) ∨ (s.ep e).abortAt.isSome = true ∨ (s.ep e).ended = true ∨
      s.stop.stopped = true) := by
    simp [hnew, hended, hst, hdue]
  simp only [State.abortArrives, habort, hseg, if_neg htakes]

end

/-! ### Trace (15 R430, R431) -/

section
variable {s : State} {m : TraceMsg}

/-- A source that holds a slot sends its event. -/
theorem State.trace1_sends (hon : s.trace.onTick = true) (hen : s.trace.enabled m.src = true) (hpass : s.trace.passes m = true)
    (hslot : s.trace.holders.contains m.src = true) (hfree : (s.trace.sent.any fun y => y.msg.src == m.src) = false) :
    s.trace1 m = { s with trace := { s.trace with
      sent := s.trace.sent ++ [{ msg := m, loss := s.trace.owed.contains m.src }], owed := s.trace.owed.filter fun y => y != m.src } } := by
  simp only [State.trace1, hon, hen, hpass, hslot, hfree, Bool.and_self, Bool.not_false, if_true]

/-- Of one that holds none the event is lost and counted. -/
theorem State.trace1_loses (hon : s.trace.onTick = true) (hen : s.trace.enabled m.src = true) (hpass : s.trace.passes m = true)
    (hslot : s.trace.holders.contains m.src = false) : s.trace1 m = { s with trace := { s.trace with
      lost := satInc 32 s.trace.lost
      owed := if s.trace.owed.contains m.src then s.trace.owed else m.src :: s.trace.owed } } := by
  simp only [State.trace1, hon, hen, hpass, hslot, Bool.and_self, Bool.false_and, Bool.false_eq_true, if_true, if_false]

/-- The first report of a source that has not been traced raises its SEG_END. -/
theorem State.traceMessage_first {src k : Nat} {y : EpMsg} {u : State}
    (hk : s.msgs.findIdx? (fun m => m.ep == src && !m.traced) = some k) (hy : s.msgs[k]? = some y) (hfatal : y.r.fatal = false)
    (hu : u = { s with msgs := s.msgs.set k { y with traced := true } }) (hm : u.segEndMsg y = m) :
    s.traceMessage src = { u.trace1 m with free := s.free + 2 } := by
  subst hu hm
  simp only [State.traceMessage, hk, hy, State.traceEnd, hfatal, Bool.false_eq_true, if_false]

/-- The SEG_END of a report on a segment that Mahorn dispatched. -/
theorem State.segEndMsg_seg {y : EpMsg} {g : Seg} (hseg : (s.ep y.ep).seg = some g) : s.segEndMsg y =
    { src := y.ep, event := 2, offset := y.r.stamp.getD 0 % 64, deferred := y.r.stamp.isNone, part := g.part
      d0 := y.r.items % 2 ^ 32, d1 := g.seq % 2 ^ 32
      d2 := g.ring % 2 ^ 16 + 2 ^ 16 * natOfBool y.node + 2 ^ 24 * (y.r.code % 256) } := by
  simp only [State.segEndMsg, hseg]

theorem State.traceMessage_none {src : Nat} (h : ∀ y ∈ s.msgs, y.ep = src → y.traced = true) : s.traceMessage src = s := by
  have hnone : s.msgs.findIdx? (fun m => m.ep == src && !m.traced) = none := by
    rw [List.findIdx?_eq_none_iff]
    intro y hy
    by_cases hsrc : y.ep = src
    · simp [h y hy hsrc]
    · simp [hsrc]
  simp only [State.traceMessage, hnone]

end

/-- Settles O32: each message by the lemma of its operation. -/
theorem endpointsTakeTheirMessages : Obligations.EndpointsTakeTheirMessages := by
  unfold Obligations.EndpointsTakeTheirMessages
  rintro s ep stamp x g words hs rfl
  refine ⟨fun hseg hnew hst hclk hhung hfrom hlo hhi => ?dispatch,
    fun he hst hfenced hhung hclk hended hseg hbegun hsent cmd node r now d hcmd hcode hfatal hwrites hitems hkind hnow hd => ?done,
    fun p f v y hy hlive hmay hhome hst => ?fence, fun u b habort hseg hnew hended hst => ?abort, fun he hcut => ?stop,
    fun hst hsent hnew hhung he => ?freeze,
    fun a k y m z hk hy hep hfatal hseg hm hz hon hen hpass => ?trace, fun a hall => ?silent⟩
  case dispatch =>
    have hbegin := State.beginSeg_eq hseg hnew hst hclk hhung hfrom hlo hhi
    have hep := State.ep_adjEp_same s ep fun x => x.begun g stamp g.walked
    refine ⟨fun hother => ?_, fun w i y howner hy hop hleft => ?_⟩
    · refine State.after_live hs (f := fun s => s.beginSeg ep stamp) (hbegin.trans ?_) rfl rfl rfl rfl
      rw [State.walkSeg_other 1 (congrArg Ep.seg hep) hother]
      rfl
    · refine State.after_run hs (f := fun s => s.beginSeg ep stamp) (hbegin.trans ?_) rfl rfl rfl rfl
      rw [State.walkSeg_one (congrArg Ep.seg hep) howner hy hop hleft, State.adjEp_adjEp]
      rfl
  case done =>
    have hfits := State.reportFits_of (s := s) (node := node) (e := ep) (r := r) (Nat.le_of_eq hitems)
      (.inr ⟨State.endsItems_all hitems, hkind⟩)
    have htakes : s.takesReport node ep r = true :=
      State.takesReport_core hst hsent hclk he hfenced hhung hended hseg hbegun (.inr hfits)
    obtain ⟨gc, pc, hrep⟩ := State.report_eq htakes hnow
    have hkept : s.kept ep r.writes = [] := by simp [State.kept, hseg, hwrites]
    rw [hkept, hfatal, hst] at hrep
    rw [exec_report (engineReport_of_mem hcmd) (by simp [hwrites])]
    refine ⟨_, State.after_live hs hrep rfl rfl rfl rfl, rfl, (State.ep_adjEp_same s ep fun x => x.reported false false now).trans ?_,
      fun k hk => State.ep_adjEp_other s (fun x => x.reported false false now) hk⟩
    rw [Ep.reported_seg _ _ hseg, hd]
    rfl
  case fence =>
    exact State.after_fenceMessage hs v hlive (by rw [State.maySignal, hy]; exact hmay) hhome hst
  case abort =>
    refine ⟨fun hclk hb => ?_, fun hclk hb => ?_⟩
    · have htaken := State.abortArrives_eq habort hseg hnew hended hst (by rw [hclk]; exact hb)
      rw [hclk, if_neg Bool.false_ne_true] at htaken
      exact State.after_live hs (f := fun s => s.abortArrives ep) htaken rfl rfl rfl rfl
    · have hcut := State.abortArrives_eq habort hseg hnew hended hst (by rw [hclk]; exact hb)
      rw [hclk, if_pos rfl, State.cutSeg_eq, State.adjEp_adjEp] at hcut
      exact ⟨_, State.after_live hs (f := fun s => s.abortArrives ep) hcut rfl rfl rfl rfl, rfl,
        State.ep_adjEp_same s ep fun x => { x with abortAt := some s.tick, ended := true },
        fun k hk => State.ep_adjEp_other s (fun x => { x with abortAt := some s.tick, ended := true }) hk⟩
  case stop => exact State.after_live hs (f := fun s => s.stopArrives ep) (if_pos (by simp [he, hcut])) rfl rfl rfl rfl
  case freeze =>
    refine ⟨s.ftc + Config.pick s.free % 64, by omega, by omega, ?_⟩
    refine State.after_live hs (f := fun s => s.freeze ep words) (if_pos ?_) rfl rfl rfl rfl
    simp [hst, hsent, hnew, hhung, Nat.not_lt.2 he]
  case trace =>
    obtain rfl := hep
    obtain ⟨u, hu⟩ : ∃ u : State, u = { s with msgs := s.msgs.set k { y with traced := true } } := ⟨_, rfl⟩
    have htrace : s.trace = u.trace := by rw [hu]
    have hend : u.segEndMsg y = m := (State.segEndMsg_seg (by rw [hu]; exact hseg)).trans hm.symm
    have hfirst := State.traceMessage_first hk hy hfatal hu hend
    have hsrc : y.ep = m.src := by rw [hm]
    rw [hsrc] at hen
    rw [hsrc, hz]
    refine ⟨fun hslot hfree => ?_, fun hslot => ?_⟩
    · rw [State.trace1_sends (htrace ▸ hon) (htrace ▸ hen) (htrace ▸ hpass) (htrace ▸ hslot) (htrace ▸ hfree), ← htrace,
        hu] at hfirst
      exact State.after_live hs (f := fun s => s.traceMessage a.src) hfirst rfl rfl rfl rfl
    · rw [State.trace1_loses (htrace ▸ hon) (htrace ▸ hen) (htrace ▸ hpass) (htrace ▸ hslot), ← htrace, hu] at hfirst
      exact State.after_live hs (f := fun s => s.traceMessage a.src) hfirst rfl rfl rfl rfl
  case silent =>
    exact State.after_live hs (f := fun s => s.traceMessage a.src) (State.traceMessage_none hall) rfl rfl rfl rfl

end Sys2Proof.Machine
end

section
/-! PROOFS. Partitions and contexts (02 R53-R56, R65, R66; 14 R400, R408): requests of the host that wait for the boundary, the
clear of a context's fault state, what is enabled, and translations. -/
namespace Sys2Proof.Machine

/-! ### Requests of the host that wait for the boundary (01 R23) -/

section
variable {s : State} {f : State → State}

/-- A live command whose effect queues a host write adds it and changes nothing else. -/
theorem State.after_hostOp {o : HostOp} (hs : s.live) (hf : f s = s.hostOp o) :
    s.after f = .next { s with hostOps := s.hostOps ++ [o] } :=
  State.after_live hs hf rfl rfl rfl rfl

theorem State.after_unchanged (hs : s.live) (hf : f s = s) : s.after f = .next s :=
  State.after_live hs hf rfl rfl rfl rfl

end

/-- Configuration requests are answered once the boot is over, and in recovery (14 R400, R408). -/
theorem State.answersConfig_iff (s : State) : s.answersConfig = true ↔ s.boot.phase = .up ∨ s.boot.phase = .recovery := by
  cases h : s.boot.phase <;> simp [State.answersConfig, h]

/-- Settles O7: each command queues its request under one condition, of which each clause decides one way. -/
theorem partitionRequestsAreQueued : Obligations.PartitionRequestsAreQueued := by
  unfold Obligations.PartitionRequestsAreQueued
  intro s p hs
  refine ⟨fun hp => ⟨State.after_hostOp hs (if_pos hp), State.after_hostOp hs (if_pos hp), State.after_hostOp hs (if_pos hp),
    fun hphase => ?answered⟩, fun hphase cmd hcmd => ?retry, fun hp cmd hcmd => ?noPartition⟩
  case answered =>
    have hmay : p < Config.partitions ∧ s.answersConfig = true := ⟨hp, s.answersConfig_iff.2 hphase⟩
    exact ⟨State.after_hostOp hs (if_pos hmay), State.after_hostOp hs (if_pos hmay), State.after_hostOp hs (if_pos hmay)⟩
  case retry =>
    have hno : ¬ (p < Config.partitions ∧ s.answersConfig = true) := fun h =>
      (s.answersConfig_iff.1 h.2).elim hphase.1 hphase.2
    simp only [List.mem_cons, List.not_mem_nil, or_false] at hcmd
    rcases hcmd with rfl | rfl | rfl
    all_goals exact State.after_unchanged hs (if_neg hno)
  case noPartition =>
    have hno : ¬ p < Config.partitions := Nat.not_lt.2 hp
    have hnoVf : ¬ (p < Config.partitions ∧ s.answersConfig = true) := fun h => hno h.1
    simp only [List.mem_cons, List.not_mem_nil, or_false] at hcmd
    rcases hcmd with rfl | rfl | rfl | rfl | rfl | rfl
    case inl | inr.inl | inr.inr.inr.inr.inr => exact State.after_unchanged hs (if_neg hno)
    all_goals exact State.after_unchanged hs (if_neg hnoVf)

/-! ### The fault state of a context (02 R64, R65) -/

/-- A context whose fault state has been cleared. -/
def Ctx.faultCleared (x : Ctx) : Ctx := { x with faulted := false, faultStatus := 0, faultCount := 0 }

section
variable {s : State} {k : Nat} {x : Ctx}

@[simp] theorem State.ctx?_msix (s : State) (p v k : Nat) : (s.msix p v).ctx? k = s.ctx? k := by
  simp only [State.msix]
  split
  case isTrue => rfl
  case isFalse => split <;> rfl

@[simp] theorem State.ctx?_adjPart (s : State) (p : Nat) (f : Part → Part) (k : Nat) : (s.adjPart p f).ctx? k = s.ctx? k := rfl

theorem State.adjStop_self {f : Stop → Stop} (h : f s.stop = s.stop) : s.adjStop f = s := by rw [State.adjStop, h]

/-- The first fault of a context sets its status; the partition and its message take no part in it. -/
theorem State.ctx?_ctxFault_first (st op a : Nat) (hk : s.ctx? k = some x) (hclear : x.faulted = false) :
    (s.ctxFault k st op a).ctx? k =
      some { x with faulted := true, faultCount := satInc 16 x.faultCount, faultStatus := st } := by
  simp only [State.ctxFault, hk, hclear, Bool.false_eq_true, if_false, State.ctx?_msix]
  rw [State.ctx?_adjPart, State.ctx?_adjCtx_same, hk, Option.map_some, hclear]
  rfl

/-- At a boundary outside a stop a clear that waits alone is applied, and waits no more. -/
theorem State.applyClears_one {p c : Nat} (un : List (Nat × Nat × Nat)) (hst : s.stop.stopped = false) (hheld : s.stop.held = [])
    (hops : s.hostOps = [.clearFault p c]) :
    s.applyClears un = ({ s with hostOps := [] } : State).adjCtx (pkey p c) Ctx.faultCleared := by
  have hone : (s.stop.held ++ s.hostOps).filter HostOp.clears = [.clearFault p c] := by rw [hheld, hops]; rfl
  have hrest : s.hostOps.filter (fun o => !o.clears) = [] := by rw [hops]; rfl
  have hin : ¬ (s.stop.stopped && !s.endsStop) = true := by rw [hst]; exact Bool.false_ne_true
  refine (if_neg hin).trans ((State.adjStop_self ?stop).trans ?clear)
  case stop =>
    rw [hone]
    change { s.stop with held := s.stop.held.filter fun o => !o.clears } = s.stop
    rw [hheld, List.filter_nil, ← hheld]
  case clear =>
    rw [hone]
    change ({ s.adjCtx (pkey p c) Ctx.faultCleared with hostOps := s.hostOps.filter fun o => !o.clears } : State) = _
    rw [hrest]
    rfl

/-- A first fault that waits alone for the boundary. -/
theorem State.ctx?_applyLaters_first {st op a : Nat} (hl : s.later = [.ctxFault k st op a]) (hk : s.ctx? k = some x)
    (hclear : x.faulted = false) : s.applyLaters.ctx? k =
      some { x with faulted := true, faultCount := satInc 16 x.faultCount, faultStatus := st } := by
  simp only [State.applyLaters, hl, foldS, List.foldl_cons, List.foldl_nil, State.applyLater]
  exact State.ctx?_ctxFault_first (s := { s with later := [] }) st op a hk hclear

end

/-- Settles O10: the clear is applied first, so the fault finds the fault state cleared and counts from 0. -/
theorem faultClearComesBeforeTheFault : Obligations.FaultClearComesBeforeTheFault := by
  unfold Obligations.FaultClearComesBeforeTheFault
  intro s un p c st op a x hx
  refine ⟨fun hs hup => State.after_hostOp hs (if_pos hup), fun hst hheld hops t ht => ?_⟩
  have hcleared := State.applyClears_one un hst hheld hops
  subst ht
  have hctx : (s.applyClears un).ctx? (pkey p c) = some x.faultCleared := by
    rw [hcleared, State.ctx?_adjCtx_same]
    exact congrArg (Option.map Ctx.faultCleared) hx
  refine ⟨hctx, by rw [hcleared]; rfl, fun hlater => ?_⟩
  have hfault : (s.applyClears un).later = [.ctxFault (pkey p c) st op a] := by rw [hcleared]; exact hlater
  exact State.ctx?_applyLaters_first hfault hctx rfl

/-! ### Cached translations (02 R55) -/

/-- Which pages segments use does not depend on what is cached. -/
theorem State.pageUsed_transl (s : State) (l : List Transl) (k page n : Nat) :
    ({ s with transl := l } : State).pageUsed k page n = s.pageUsed k page n := rfl

section
variable {s : State} {p c page : Nat} {x : Ctx}

theorem State.atsInvalidate_unused (hon : s.atsOn = true) (hx : s.ctx? (pkey p c) = some x)
    (hused : s.pageUsed (pkey p c) page s.tick = false) : s.atsInvalidate p c page = { s with
      transl := s.transl.filter fun t => !(t.ctx == pkey p c && t.page == page && !t.closing)
      out := s.out ++ [.atsDone p c page] } := by
  have hcached : ¬ (!s.atsOn || (s.ctx? (pkey p c)).isNone) = true := by simp [hon, hx]
  exact (if_neg hcached).trans (if_neg (by rw [State.pageUsed_transl]; exact ne_true_of_eq_false hused))

theorem State.atsInvalidate_used (hon : s.atsOn = true) (hx : s.ctx? (pkey p c) = some x)
    (hused : s.pageUsed (pkey p c) page s.tick = true) : s.atsInvalidate p c page = { s with
      transl := (s.transl.filter fun t => !(t.ctx == pkey p c && t.page == page && !t.closing)) ++
        [{ ctx := pkey p c, page := page, closing := true, at_ := s.tick }] } := by
  have hcached : ¬ (!s.atsOn || (s.ctx? (pkey p c)).isNone) = true := by simp [hon, hx]
  exact (if_neg hcached).trans (if_pos ((State.pageUsed_transl ..).trans hused))

/-- With one translation of the page closing, its answer is looked for at that one alone. -/
theorem State.atsAnswer_eq {d : Transl}
    (hd : s.transl.filter (fun t => t.ctx == pkey p c && t.page == page && t.closing) = [d]) :
    s.atsAnswer p c page = if s.pageUsed (pkey p c) page d.at_ then s
      else { s with transl := s.transl.erase d, out := s.out ++ [.atsDone p c page] } := by
  have hfind : (s.transl.find? fun t => t.ctx == pkey p c && t.page == page && t.closing && !s.pageUsed (pkey p c) page t.at_) =
      [d].find? fun t => !s.pageUsed (pkey p c) page t.at_ := by
    rw [← hd, List.find?_filter]
    simp only [Bool.decide_and, Bool.decide_eq_true]
  simp only [State.atsAnswer, hfind]
  cases hused : s.pageUsed (pkey p c) page d.at_ with
  | true => simp [hused]
  | false => simp [hused, State.send]

end

/-- Settles O28: by whether a segment uses the page, at the request and again when its answer is looked for. -/
theorem translationsAreInvalidated : Obligations.TranslationsAreInvalidated := by
  unfold Obligations.TranslationsAreInvalidated
  rintro s p c page n x used kept closing hs hx rfl rfl rfl
  refine ⟨?unused, ?used, fun hone hfree => ?answered, fun hone hused => ?heldBack,
    State.after_live hs (f := fun s => s.atsEnable true) rfl rfl rfl rfl rfl,
    State.after_live hs (f := fun s => s.atsEnable false) rfl rfl rfl rfl rfl⟩
  case unused =>
    rintro hon rfl hfree
    exact State.after_live hs (f := fun s => s.atsInvalidate p c page) (State.atsInvalidate_unused hon hx hfree) rfl rfl rfl rfl
  case used =>
    rintro hon rfl hused
    exact State.after_live hs (f := fun s => s.atsInvalidate p c page) (State.atsInvalidate_used hon hx hused) rfl rfl rfl rfl
  case answered =>
    exact State.after_live hs (f := fun s => s.atsAnswer p c page)
      ((State.atsAnswer_eq hone).trans (if_neg (by simp [hfree]))) rfl rfl rfl rfl
  case heldBack =>
    exact State.after_unchanged hs (f := fun s => s.atsAnswer p c page) ((State.atsAnswer_eq hone).trans (if_pos hused))

/-! ### Free numbers (02 R51) -/

section
variable {limit n i m : Nat} {used : List Nat}

theorem not_mem_of_probe (h : probe limit used n i = some m) : m ∉ used := by
  induction n generalizing i with
  | zero => cases h
  | succ n ih =>
    simp only [probe] at h
    split at h
    · cases h
    · split at h
      case isTrue => exact ih h
      case isFalse hfree =>
        cases h
        simpa using hfree

/-- Where nothing is found, every number that was looked at is used. -/
theorem mem_of_probe_none (hlimit : limit ≠ 0) (h : probe limit used n i = none) : ∀ j < n, (i + j) % limit ∈ used := by
  induction n generalizing i with
  | zero => exact fun j hj => absurd hj (Nat.not_lt_zero j)
  | succ n ih =>
    simp only [probe, if_neg hlimit] at h
    split at h
    case isFalse => cases h
    case isTrue hused =>
      rintro (_ | j) hj
      · simpa using hused
      · rw [show i + (j + 1) = i + 1 + j by omega]
        exact ih h j (by omega)

theorem add_mod_ne_of_lt {j l : Nat} (hjl : j < l) (hl : l < limit) : (i + j) % limit ≠ (i + l) % limit := by
  intro heq
  have hdiff : (i + l - (i + j)) % limit = 0 := Nat.sub_mod_eq_zero_of_mod_eq heq.symm
  rw [Nat.add_sub_add_left, Nat.mod_eq_of_lt (by omega)] at hdiff
  omega

/-- The numbers that are looked at, at most all of them, are different. -/
theorem nodup_looked_at (hn : n ≤ limit) : ((List.range n).map fun j => (i + j) % limit).Nodup := by
  refine List.pairwise_map.2 (List.pairwise_lt_range.imp_of_mem fun _ hl hjl => ?_)
  exact add_mod_ne_of_lt hjl (Nat.lt_of_lt_of_le (List.mem_range.1 hl) hn)

/-- As many different numbers as are looked at cannot all be used, when they are more than those used. -/
theorem probe_ne_none (hn : n ≤ limit) (hused : used.length < n) : probe limit used n i ≠ none := by
  intro hnone
  have hall := mem_of_probe_none (by omega) hnone
  have hsub : ((List.range n).map fun j => (i + j) % limit) ⊆ used := by
    intro m hm
    obtain ⟨j, hj, rfl⟩ := List.mem_map.1 hm
    exact hall j (List.mem_range.1 hj)
  have hlength := (nodup_looked_at hn).length_le_of_subset hsub
  rw [List.length_map, List.length_range] at hlength
  omega

end

/-- Free numbers have been drawn, and pages that were given have been cleared. -/
def State.given (s : State) (free : Nat) (st : List Host.Cell) (cl : List (Nat × Nat)) : State :=
  { s with free := free, stores := st, cleared := cl }

@[simp] theorem State.ringNos_given (s : State) (free : Nat) (st : List Host.Cell) (cl : List (Nat × Nat)) :
    (s.given free st cl).ringNos = s.ringNos := rfl

/-- While not all numbers are used, one that is not is taken. -/
theorem State.takeNumber_given (s : State) (free : Nat) (st : List Host.Cell) (cl : List (Nat × Nat)) {limit : Nat}
    {used : List Nat} (h : used.length < limit) :
    ∃ m, m ∉ used ∧ (s.given free st cl).takeNumber limit used = (some m, s.given (free + 1) st cl) := by
  obtain ⟨m, hm⟩ := Option.ne_none_iff_exists'.1 (probe_ne_none (i := Config.pick free) h (Nat.lt_succ_self used.length))
  exact ⟨m, not_mem_of_probe hm, by simp only [State.takeNumber, State.takeFree, State.given, hm]⟩

/-! ### What may be enabled (02 R66) -/

theorem sumNat_eq_sum (l : List Nat) : sumNat l = l.sum := List.sum_eq_foldl.symm

theorem State.enableFits_iff (s : State) (p : Nat) : s.enableFits p = true ↔
    ((s.enabledWith p).map fun q => q.quota.resMin).sum ≤ 256 ∧
    ((s.enabledWith p).map fun q => q.quota.mem0).sum + s.leavingPages 0 ≤ s.tierPages 0 ∧
    ((s.enabledWith p).map fun q => q.quota.mem1).sum + s.leavingPages 1 ≤ s.tierPages 1 ∧
    s.ctxNos.length + s.aside (oneOf [0xC0]) < Config.contexts ∧ s.ringNos.length + s.aside (oneOf [0xC2]) < Config.hardRings := by
  simp only [State.enableFits, Bool.and_eq_true, decide_eq_true_eq, sumNat_eq_sum, Config.residentSlots, and_assoc]

/-! ### A partition comes up (02 R53, R56) -/

section
variable {s : State} {p : Nat}

theorem State.part_bringUp : (s.bringUp p).part p =
    { s.part p with up := true, admin := AdminRegs.zero, credit := 0, ready := [] } :=
  State.part_adjPart_same _ p _

theorem State.ctx?_bringUp : (s.bringUp p).ctx? (pkey p 0) = some (Ctx.fresh (s.part p).ctx0No 0 false) :=
  Tbl.get?_set_same s.ctxs _ _

theorem State.ring?_bringUp : (s.bringUp p).ring? (pkey p 0) =
    some { Ring.fresh (s.part p).ring0No (pkey p 0) with slice := s.sliceOf 0 } :=
  Tbl.get?_set_same s.rings _ _

theorem State.tryUp_brings (hen : (s.part p).enable = true) (hvf : (s.part p).vf = true) (hup : (s.part p).up = false)
    (htear : (s.part p).teardown = none) (hboot : s.booting = false) : s.tryUp p = s.bringUp p := by
  simp only [State.tryUp, hen, hvf, hup, htear, hboot, Option.isNone_none, Bool.not_false, Bool.and_self, if_true]

/-- Whether or not it comes up, a partition keeps what its enable and its quota say. -/
theorem State.part_tryUp_keeps : ((s.tryUp p).part p).enable = (s.part p).enable ∧
    ((s.tryUp p).part p).reserved = (s.part p).reserved ∧ ((s.tryUp p).part p).overcommit = (s.part p).overcommit ∧
    ((s.tryUp p).part p).quota = (s.part p).quota := by
  simp only [State.tryUp]
  split
  case isTrue => rw [State.part_bringUp]; exact ⟨rfl, rfl, rfl, rfl⟩
  case isFalse => exact ⟨rfl, rfl, rfl, rfl⟩

end

/-! ### ENABLE takes effect (02 R66) -/

theorem State.foldS_clearBytes (rs : List (Nat × Nat)) (s : State) :
    ∃ st cl, foldS rs (fun s r => s.clearBytes r.1 (r.2 * Config.pageBytes)) s = s.given s.free st cl := by
  induction rs generalizing s with
  | nil => exact ⟨s.stores, s.cleared, rfl⟩
  | cons r rs ih => exact ih (s.clearBytes r.1 (r.2 * Config.pageBytes))

/-- Giving pages clears them; which they are takes a free number. -/
theorem State.givePages_given (s : State) (free : Nat) (st : List Host.Cell) (cl : List (Nat × Nat)) (tier n : Nat) :
    ∃ rs st' cl', (s.given free st cl).givePages tier n = (rs, s.given (free + 1) st' cl') := by
  simp only [State.givePages, State.takeFree]
  obtain ⟨st', cl', h⟩ := State.foldS_clearBytes _ _
  rw [h]
  exact ⟨_, _, _, rfl⟩

/-- A partition that holds its reservations: two records and its pages. -/
def Part.reserving (q : Part) (c r : Nat) (pages0 pages1 : List (Nat × Nat)) : Part :=
  { q with enable := true, reserved := true, ctx0No := c, ring0No := r, pages0 := pages0, pages1 := pages1 }

section
variable {s : State} {p : Nat}

theorem State.enablePart_booting (hboot : s.booting = true) : s.enablePart p = s.noteEnable p true := if_pos hboot

theorem State.enablePart_overcommits (hen : (s.part p).enable = false) (htear : (s.part p).teardown = none)
    (hboot : s.booting = false) (hfits : s.enableFits p = false) :
    s.enablePart p = s.adjPart p fun q => { q with overcommit := true } := by
  simp only [State.enablePart, hen, htear, hboot, hfits, Option.isSome_none, Bool.or_self, Bool.false_eq_true, if_false]

/-- What fits takes two records that were free, and pages; then the partition may come up. -/
theorem State.enablePart_reserves (hen : (s.part p).enable = false) (htear : (s.part p).teardown = none)
    (hboot : s.booting = false) (hfits : s.enableFits p = true) : ∃ c r pages0 pages1 free st cl, c ∉ s.ctxNos ∧ r ∉ s.ringNos ∧
      s.enablePart p = ((s.given free st cl).adjPart p fun q => q.reserving c r pages0 pages1).tryUp p := by
  obtain ⟨-, -, -, hctxs, hrings⟩ := (s.enableFits_iff p).1 hfits
  obtain ⟨c, hc, hctx : s.takeNumber Config.contexts s.ctxNos = _⟩ :=
    s.takeNumber_given s.free s.stores s.cleared (Nat.lt_of_le_of_lt (Nat.le_add_right _ _) hctxs)
  obtain ⟨r, hr, hring⟩ :=
    s.takeNumber_given (s.free + 1) s.stores s.cleared (Nat.lt_of_le_of_lt (Nat.le_add_right _ _) hrings)
  obtain ⟨pages0, st0, cl0, h0⟩ := s.givePages_given (s.free + 1 + 1) s.stores s.cleared 0 (s.part p).quota.mem0
  obtain ⟨pages1, st1, cl1, h1⟩ := s.givePages_given (s.free + 1 + 1 + 1) st0 cl0 1 (s.part p).quota.mem1
  refine ⟨c, r, pages0, pages1, s.free + 1 + 1 + 1 + 1, st1, cl1, hc, hr, ?_⟩
  have hfree : ¬ ((s.part p).enable || (s.part p).teardown.isSome) = true := by simp [hen, htear]
  refine (if_neg (ne_true_of_eq_false hboot)).trans ((if_neg hfree).trans ((if_pos hfits).trans ?_))
  simp only [hctx, State.ringNos_given, hring, h0, h1]
  rfl

theorem mem_enables_noteEnable (q : Nat) : q ∈ (s.noteEnable p true).boot.enables ↔ q = p ∨ q ∈ s.boot.enables := by
  simp only [State.noteEnable, State.adjBoot, if_true, List.mem_append, List.mem_filter, List.mem_singleton, decide_eq_true_eq]
  rcases Nat.lt_trichotomy q p with h | rfl | h
  · simp [h, Nat.ne_of_lt h, Nat.lt_asymm h]
  · simp
  · simp [h, Nat.ne_of_gt h, Nat.lt_asymm h]

end

/-- Settles O21: the three ways of `enablePart`, and what a partition that comes up holds. -/
theorem partitionsAreEnabledOnlyIfTheyFit : Obligations.PartitionsAreEnabledOnlyIfTheyFit := by
  unfold Obligations.PartitionsAreEnabledOnlyIfTheyFit
  intro s p hen htear
  refine ⟨s.enableFits_iff p, fun hboot hfits => ?overcommit, fun hboot hfits => ?reserve, fun hboot => ?note⟩
  case overcommit =>
    rw [State.enablePart_overcommits hen htear hboot hfits]
    exact ⟨s.part_adjPart_same p _, fun q hq => s.part_adjPart_other _ hq.symm⟩
  case reserve =>
    obtain ⟨c, r, pages0, pages1, free, st, cl, hc, hr, heq⟩ := State.enablePart_reserves hen htear hboot hfits
    rw [heq]
    obtain ⟨u, hu⟩ : ∃ u, u = (s.given free st cl).adjPart p fun q => q.reserving c r pages0 pages1 := ⟨_, rfl⟩
    have hpart : u.part p = (s.part p).reserving c r pages0 pages1 := by rw [hu]; exact State.part_adjPart_same _ p _
    have hubooting : u.booting = false := by rw [hu]; exact hboot
    rw [← hu]
    obtain ⟨kenable, kreserved, kovercommit, kquota⟩ := State.part_tryUp_keeps (s := u) (p := p)
    rw [kenable, kreserved, kovercommit, kquota, hpart]
    refine ⟨rfl, rfl, rfl, rfl, fun hvf hup => ?_⟩
    have hbrings : u.tryUp p = u.bringUp p :=
      State.tryUp_brings (by rw [hpart]; rfl) (by rw [hpart]; exact hvf) (by rw [hpart]; exact hup) (by rw [hpart]; exact htear)
        hubooting
    rw [hbrings]
    refine ⟨⟨_, _, State.ctx?_bringUp, ?_, State.ring?_bringUp, ?_, rfl, rfl⟩, by rw [State.part_bringUp]⟩
    · rw [hpart]; exact hc
    · rw [hpart]; exact hr
  case note =>
    rw [State.enablePart_booting hboot]
    exact ⟨rfl, rfl, mem_enables_noteEnable⟩

end Sys2Proof.Machine
end

section
/-! PROOFS. Writes of the host to a ring's registers (02 R53, R65; 03 R78, R79, R89-R92; 06 R178, R191): how they arrive, what PI
takes, and what a doorbell does to a ring that is not ACTIVE. -/
namespace Sys2Proof.Machine

/-! ### A write arrives at a partition window (02 R53) -/

section
variable {s : State} {p r cmd : Nat} {o : HostOp}

theorem State.winOp_up (hup : s.isUp p = true) : s.winOp p o = s.hostOp o := if_pos hup

theorem State.winOp_down (hup : s.isUp p = false) : s.winOp p o = s := if_neg (ne_true_of_eq_false hup)

theorem State.ringCmd_there (hr : (s.ring? (pkey p r)).isSome = true) : s.ringCmd p r cmd = s.winOp p (.stateCmd p r cmd) :=
  if_pos hr

theorem State.ringCmd_absent (hr : s.ring? (pkey p r) = none) : s.ringCmd p r cmd = s := by
  simp only [State.ringCmd, hr, Option.isSome_none, Bool.false_eq_true, if_false]

theorem State.ringCmd_down (hup : s.isUp p = false) : s.ringCmd p r cmd = s := by
  rw [State.ringCmd, State.winOp_down hup, ite_self]

end

/-- Settles O6: a state command looks for its ring and a fence write at its number; then ENABLE of the partition decides. -/
theorem hostRingWritesAreQueued : Obligations.HostRingWritesAreQueued := by
  unfold Obligations.HostRingWritesAreQueued
  intro s p r c f v bytes hs
  refine ⟨fun hup => ⟨?pi, ?doorbell, ?clear, fun hf => ⟨?signal, ?fail⟩, fun hr => ⟨?enable, ?disable, ?resume⟩⟩,
    fun hf cmd hcmd => ?noFence, fun hr cmd hcmd => ?noRing, fun hup cmd hcmd => ?down⟩
  case pi | doorbell | clear => exact State.after_hostOp hs (State.winOp_up hup)
  case signal | fail => exact State.after_hostOp hs ((if_pos hf).trans (State.winOp_up hup))
  case enable | disable | resume =>
    exact State.after_hostOp hs ((State.ringCmd_there hr).trans (State.winOp_up hup))
  case noFence =>
    have hno : ¬ f < 8192 := Nat.not_lt.2 hf
    simp only [List.mem_cons, List.not_mem_nil, or_false] at hcmd
    rcases hcmd with rfl | rfl
    all_goals exact State.after_unchanged hs (if_neg hno)
  case noRing =>
    simp only [List.mem_cons, List.not_mem_nil, or_false] at hcmd
    rcases hcmd with rfl | rfl | rfl
    all_goals exact State.after_unchanged hs (State.ringCmd_absent hr)
  case down =>
    simp only [List.mem_cons, List.not_mem_nil, or_false] at hcmd
    rcases hcmd with rfl | rfl | rfl | rfl | rfl | rfl | rfl | rfl
    case inl | inr.inl | inr.inr.inl => exact State.after_unchanged hs (State.winOp_down hup)
    case inr.inr.inr.inl | inr.inr.inr.inr.inl =>
      exact State.after_unchanged hs ((congrArg (fun t => ite _ t s) (State.winOp_down hup)).trans (ite_self s))
    all_goals exact State.after_unchanged hs (State.ringCmd_down hup)

/-! ### A write of PI takes effect (03 R78) -/

theorem satInc_eq_min {w n : Nat} : satInc w n = min (n + 1) (2 ^ w - 1) := by
  have hpos := Nat.two_pow_pos w
  unfold satInc; split <;> omega

/-- The saturating counters of 16 bits. -/
theorem satInc_16 (n : Nat) : satInc 16 n = min (n + 1) 65535 := satInc_eq_min

theorem State.hostOp1_pi {s : State} {p : Nat} (hp : s.resetting p = false) (un : List (Nat × Nat × Nat)) (r v : Nat) :
    s.hostOp1 un (.pi p r v) = s.adjRing (pkey p r) fun x => x.writePi v := if_neg (ne_true_of_eq_false hp)

/-- Settles O8: the write adjusts its ring by `Ring.writePi`, whose two cases are those of the statement. -/
theorem piWriteNeverOverfillsTheRing : Obligations.PiWriteNeverOverfillsTheRing := by
  unfold Obligations.PiWriteNeverOverfillsTheRing
  intro s un p r v x hp hx
  dsimp only
  rw [State.hostOp1_pi hp]
  refine ⟨rfl, fun k hk => State.ring?_adjRing_other s _ hk, ?_⟩
  rw [State.ring?_adjRing_same, hx, Option.map_some, Ring.writePi, satInc_16]
  rfl

/-! ### A doorbell on a ring that is not ACTIVE (03 R92; 11 R330; 13 R392) -/

theorem keyLocal_pkey {p r : Nat} (hr : r < 2 ^ 20) : keyLocal (pkey p r) = r := by
  unfold keyLocal pkey; omega

theorem keyPart_pkey {p r : Nat} (hr : r < 2 ^ 20) : keyPart (pkey p r) = p := by
  unfold keyPart pkey; omega

section
variable {s : State} {n m : Nat}

/-- Each partition has its ADMIN_DB source. -/
theorem icReset_adminDb {p : Nat} (hp : p < 128) : (icReset (64 + p)).isSome = true :=
  have hall : ∀ p < 128, (icReset (64 + p)).isSome = true := by decide
  hall p hp

theorem State.icSrc_raise_same (h : (icReset n).isSome = true) : (s.raise n).icSrc n = { s.icSrc n with pending := true } := by
  rw [State.raise, State.adjSrc, if_pos h]
  exact Tbl.getD_set_same s.ic.srcs n _ _

theorem State.icSrc_raise_other (h : m ≠ n) : (s.raise n).icSrc m = s.icSrc m := by
  rw [State.raise, State.adjSrc]
  split
  · exact Tbl.getD_set_other s.ic.srcs _ _ h.symm
  · rfl

end

section
variable {s : State} {p k : Nat} {x : Ring}

theorem State.hostOp1_doorbell (hp : s.resetting p = false) (un : List (Nat × Nat × Nat)) (r : Nat) :
    s.hostOp1 un (.doorbell p r) = s.doorbell (pkey p r) := if_neg (ne_true_of_eq_false hp)

theorem State.doorbell_disabled (hx : s.ring? k = some x) (hst : x.state = .disabled) : s.doorbell k =
    if s.ctxLost x.ctx then s.adjRing k fun r => { r with dbPending := true }
    else s.adjRing k fun r => { r with dbIgnored := satInc 16 r.dbIgnored } := by
  simp only [State.doorbell, hx, hst, ne_eq, not_true_eq_false, and_false, if_false]

/-- A ring that waits keeps the doorbell; one on ring 0 is told to the firmware. -/
theorem State.doorbell_waiting (hx : s.ring? k = some x) (hst : x.state = .blocked ∨ x.state = .faulted ∨ x.state = .stopped) :
    s.doorbell k = (if keyLocal k = 0 then s.raiseAdminDb (keyPart k) else s).adjRing k fun r => { r with dbPending := true } := by
  rcases hst with hst | hst | hst
  all_goals simp [State.doorbell, hx, hst]

theorem State.sampleOrLoad_resident (hx : s.ring? k = some x) (hres : s.ringResident x = true) : s.sampleOrLoad k =
    s.adjRing k fun r => { r with sampled := r.pi, scanStop := false, wantSample := false, dbPending := false } := by
  simp only [State.sampleOrLoad, hx, hres, if_true]

theorem State.ring?_adjRing_of {s : State} {f : Ring → Ring} (hx : s.ring? k = some x) : (s.adjRing k f).ring? k = some (f x) := by
  rw [State.ring?_adjRing_same, hx, Option.map_some]

end

/-- Settles O9: by the ring's state, and for a ring that waits by whether it is ring 0. -/
theorem doorbellOnAnInactiveRing : Obligations.DoorbellOnAnInactiveRing := by
  unfold Obligations.DoorbellOnAnInactiveRing
  intro s un p r x hp hx
  dsimp only
  rw [State.hostOp1_doorbell hp]
  refine ⟨fun hst hlost => ?ignored, fun hst hlost => ?lost, fun hst hpart hr => ?waiting, fun hres => ?sample⟩
  case ignored =>
    rw [State.doorbell_disabled hx hst, hlost, if_neg Bool.false_ne_true]
    exact ⟨rfl, (State.ring?_adjRing_of hx).trans (by rw [satInc_16])⟩
  case lost =>
    rw [State.doorbell_disabled hx hst, hlost, if_pos rfl]
    exact ⟨rfl, State.ring?_adjRing_of hx⟩
  case waiting =>
    rw [State.doorbell_waiting hx hst, keyLocal_pkey hr, keyPart_pkey hr]
    by_cases h0 : r = 0
    · rw [if_pos h0, State.raiseAdminDb]
      obtain ⟨i, hi⟩ := s.raise_eq (64 + p)
      refine ⟨by rw [hi]; rfl, State.ring?_adjRing_of (by rw [hi]; exact hx), fun h => absurd h0 h, fun _ => ⟨?_, fun n hn => ?_⟩⟩
      · exact congrArg IcSrc.pending (State.icSrc_raise_same (s := s) (icReset_adminDb hpart))
      · exact State.icSrc_raise_other (s := s) hn
    · rw [if_neg h0]
      exact ⟨rfl, State.ring?_adjRing_of hx, fun _ => rfl, fun h => absurd h h0⟩
  case sample =>
    rw [State.sampleOrLoad_resident hx hres, State.ring?_adjRing_of hx]

end Sys2Proof.Machine
end

section
/-! PROOFS. Fetched entries and context loads (02 R62, R63; 03 R80, R81, R84, R91; 11 R330): what arrives for a ring's fetch, and
how a context's load begins and ends. -/
namespace Sys2Proof.Machine

section
variable {s : State} {k i : Nat} {x : Ring}

/-! ### What arrives for a fetch -/

theorem State.entryArrives_stale (hx : s.ring? k = some x) (hstale : x.stale ≠ 0) (host : List Word) :
    s.entryArrives k (.ok host) = s.adjRing k fun r => { r with stale := r.stale - 1 } := by
  simp only [State.entryArrives, hx, if_pos hstale]

theorem State.fetchFails_stale (hx : s.ring? k = some x) (hstale : x.stale ≠ 0) (why : IoFail) :
    s.fetchFails k why = s.adjRing k fun r => { r with stale := r.stale - 1 } := by
  simp only [State.fetchFails, hx, if_pos hstale]

/-- A failure is counted in the fault unit alone. -/
theorem State.noteStatus_eq (s : State) (st : Status) (d : Nat) : ∃ f, s.noteStatus st d = { s with flt := f } := by
  simp only [State.noteStatus]
  split
  · exact ⟨_, rfl⟩
  · split
    · exact ⟨_, rfl⟩
    · exact ⟨s.flt, rfl⟩

theorem State.fetchFails_taken (hst : s.stop.stopped = false) (hx : s.ring? k = some x) (hstale : x.stale = 0)
    (hfetch : x.fetch = some i) (why : IoFail) : ∃ f, s.fetchFails k why = { s with
      flt := f
      rings := Tbl.adjust s.rings k (fun y => { y with fetch := none })
      later := s.later ++ [.fetchFault k (ioStatus why).code i (x.granule i)] } := by
  obtain ⟨f, hf⟩ := s.noteStatus_eq (ioStatus why) (ioDetail why)
  refine ⟨f, ?_⟩
  simp only [State.fetchFails, hx, hstale, hfetch, hst, ne_eq, not_true_eq_false, if_false, Bool.false_eq_true, State.noteFail, hf]
  rfl

/-- Reading a place in host memory for a ring changes the cached translations alone. -/
theorem State.useHost_eq (s : State) (ck a : Nat) : ∃ tr, s.useHost ck a = { s with transl := tr } := State.useLoc_eq ck s (.host a)

/-- An entry that arrives changes its ring, and of a host ring the cached translations. -/
theorem State.entryArrives_taken (hst : s.stop.stopped = false) (hx : s.ring? k = some x) (hstale : x.stale = 0)
    (hfetch : x.fetch = some i) {host : List Word} {head words : Cmd} (hhead : head = if x.loc then host else s.entryWords x i 1)
    (hwords : words = if x.loc then (host ++ List.replicate 512 0).take (2 * lenOf head) else s.entryWords x i (lenOf head)) :
    ∃ tr, (x.loc = false → tr = s.transl) ∧ s.entryArrives k (.ok host) = { s with
      transl := tr
      rings := Tbl.adjust s.rings k fun y =>
        if sub32 x.sampled i < lenOf head then { y with fetch := none, scanStop := true }
        else { y with fetch := none, staged := some { idx := i, words := words, since := s.tick + 1 } } } := by
  subst hwords
  cases hloc : x.loc with
  | false =>
    simp only [hloc, Bool.false_eq_true, if_false] at hhead ⊢
    subst hhead
    refine ⟨s.transl, fun _ => rfl, ?_⟩
    simp only [State.entryArrives, hx, hstale, hfetch, hst, hloc, ne_eq, not_true_eq_false, if_false, Bool.false_eq_true]
    split <;> rfl
  | true =>
    simp only [hloc, if_true] at hhead ⊢
    subst hhead
    obtain ⟨tr, htr⟩ := s.useHost_eq x.ctx (x.granule i)
    refine ⟨tr, nofun, ?_⟩
    simp only [State.entryArrives, hx, hstale, hfetch, hst, hloc, ne_eq, not_true_eq_false, if_false, Bool.false_eq_true,
      if_true, htr]
    split <;> rfl

end

/-! ### Context loads -/

section
variable {s : State} {k : Nat}

/-- A load for which a slot is free can have it. -/
theorem State.canLoad_of_slot (hslots : s.slotsUsed < 256) : s.canLoad k = true := by
  have hfree : s.slotsUsed < Config.residentSlots := hslots
  simp only [State.canLoad, hfree, decide_true, Bool.true_or]

/-- The first load that waited has its turn; with a slot free it evicts nothing. -/
theorem State.waitingLoad_first {l : CtxLoad} {rest : List CtxLoad} (hst : s.stop.stopped = false) (hl : s.loads = l :: rest)
    (hwaited : l.waited = true) (hload : l.loading = false) (hk : l.key = k) (hunits : s.loading < 16)
    (hslots : s.slotsUsed < 256) : s.waitingLoad k = { s.present 4 16 with
      loads := s.loads.map fun l => if l.key = k then { l with loading := true } else l } := by
  have hunit : ¬ Config.loadsAtOnce ≤ s.loading := Nat.not_le.2 hunits
  have hfree : s.slotsUsed < Config.residentSlots := hslots
  have hfirst : (s.loads.find? fun l => l.waited && !l.loading && s.canLoad l.key) = some l := by
    rw [hl]
    exact List.find?_cons_of_pos (by simp only [hwaited, hload, State.canLoad_of_slot hslots, Bool.not_false, Bool.and_self])
  simp only [State.waitingLoad, hst, hunit, decide_false, Bool.or_self, Bool.false_eq_true, if_false, hfirst, hk, if_true,
    State.startLoad, hfree]

theorem State.loadEnds_loading (hload : (s.loads.any fun l => l.key == k && l.loading) = true) (hlater : s.later = []) :
    s.loadEnds k = { s with later := [.ctxLoaded k] } := by
  simp only [State.loadEnds, hload, hlater, List.contains_nil, Bool.not_false, Bool.and_self, if_true, State.defer, List.nil_append]

theorem State.ctxReadFails_loading (hload : (s.loads.any fun l => l.key == k && l.loading) = true) (hlater : s.later = []) :
    ∃ f, s.ctxReadFails k = { s with later := [.ctxLost k], flt := f } := by
  obtain ⟨f, hf⟩ := s.noteStatus_eq .memDetected 0x02E1
  refine ⟨f, ?_⟩
  simp only [State.ctxReadFails, hload, hlater, List.contains_nil, Bool.not_false, Bool.and_self, if_true, hf, List.nil_append]

end

/-- Settles O22: what arrives is judged by the ring's stale fetches and then by its fetch; a load by the list of loads. -/
theorem fetchedEntriesAndContextLoads : Obligations.FetchedEntriesAndContextLoads := by
  unfold Obligations.FetchedEntriesAndContextLoads
  intro s p r c i x why host hs hst
  refine ⟨fun hx hstale hfetch head words hhead hwords => ?arrives, fun hx hstale hfetch => ?fails,
    fun hx hstale => ⟨?dropped, ?droppedFault⟩,
    fun l rest hl hwaited hload hk hunits hslots => ?load, fun hload hlater => ⟨?loaded, ?lost⟩⟩
  case arrives =>
    obtain ⟨tr, hkeep, harr⟩ := State.entryArrives_taken hst hx hstale hfetch hhead hwords
    exact ⟨_, State.after_live hs (f := fun s => s.entryArrives (pkey p r) (.ok host)) harr rfl rfl rfl rfl, rfl, hkeep, rfl⟩
  case fails =>
    obtain ⟨f, hfail⟩ := State.fetchFails_taken hst hx hstale hfetch why
    exact ⟨_, State.after_live hs (f := fun s => s.fetchFails (pkey p r) why) hfail rfl rfl rfl rfl, rfl, rfl, rfl⟩
  case dropped =>
    exact State.after_live hs (f := fun s => s.entryArrives (pkey p r) (.ok host)) (State.entryArrives_stale hx hstale host) rfl rfl
      rfl rfl
  case droppedFault =>
    exact State.after_live hs (f := fun s => s.fetchFails (pkey p r) why) (State.fetchFails_stale hx hstale why) rfl rfl rfl rfl
  case load =>
    exact State.after_live hs (f := fun s => s.waitingLoad (pkey p c))
      (State.waitingLoad_first hst hl hwaited hload hk hunits hslots) rfl rfl rfl rfl
  case loaded =>
    exact State.after_live hs (f := fun s => s.loadEnds (pkey p c)) (State.loadEnds_loading hload hlater) rfl rfl rfl rfl
  case lost =>
    obtain ⟨f, hlost⟩ := State.ctxReadFails_loading hload hlater
    exact ⟨_, State.after_live hs (f := fun s => s.ctxReadFails (pkey p c)) hlost rfl rfl rfl rfl, rfl⟩

end Sys2Proof.Machine
end

section
/-! PROOFS. The start of an entry (03 R80-R85, R98, R99): its acceptance, the routine that it runs, and what a failed check
decides. -/
namespace Sys2Proof.Machine

/-! ### The acceptance of a staged entry -/

section
variable {s : State}

/-- Between commands an effect runs like the state that it reaches. -/
theorem State.run_const (h : s.settled) (f : State → State) : s.run f = s.run fun _ => f s :=
  (State.run_eq h f).trans (State.run_eq h fun _ => f s).symm

theorem State.takeSeqr_free (h : s.freeSeqrs ≠ []) : ∃ q ∈ s.freeSeqrs,
    s.takeSeqr none = (some q, { s with free := s.free + 1, accepted := q :: s.accepted }) := by
  have hpos : 0 < s.freeSeqrs.length := List.length_pos_iff.2 h
  have hlt : Config.pick s.free % s.freeSeqrs.length < s.freeSeqrs.length := Nat.mod_lt _ hpos
  refine ⟨s.freeSeqrs[Config.pick s.free % s.freeSeqrs.length], List.getElem_mem hlt, ?_⟩
  simp only [State.takeSeqr, State.takeOne, State.takeFree, List.getElem?_eq_getElem hlt]

section
variable {k i : Nat} {y : Ring}

theorem State.issueFetch_none (hk : s.ring? k = some y) (hf : y.fetch = none) : s.issueFetch k = s := by
  simp only [State.issueFetch, hk, hf]

/-- A fetch of a host ring goes out on PP0, one of a device ring to the memory port (03 R75). -/
theorem State.issueFetch_some (hk : s.ring? k = some y) (hf : y.fetch = some i) : (s.issueFetch k).out =
      (if y.loc then s.out ++ [.hostRead (keyPart k) (s.pasidOf y.ctx) (y.granule i) (s.fetchBytes y i)] else s.out) ∧
    (y.loc = true → (s.issueFetch k).arb = s.arb) := by
  simp only [State.issueFetch, hk, hf]
  cases y.loc with
  | true => exact ⟨rfl, fun _ => rfl⟩
  | false => exact ⟨rfl, nofun⟩

end

/-- The command that a staged entry starts as, a query with its report (03 R83, R105). -/
def State.entryStarts (s : State) (x : Ring) (p r : Nat) (st : Staged) : Work :=
  { x.entryWork p r s.tick st with report := if isQuery (opcodeOf st.words) then s.queryReport p st.words else [] }

/-- The ring goes on behind its staged entry, which sequencer `q` takes. -/
def State.ringGoesOn (s : State) (k q len : Nat) : State :=
  State.adjRing { s with free := s.free + 1, accepted := q :: s.accepted } k fun r => r.accept len

/-- The state in which sequencer `q` has accepted the staged entry of a ring; `u` is that in which the ring's next fetch has been
issued. -/
def State.entryTaken (s : State) (p r : Nat) (x : Ring) (st : Staged) (q : Nat) (u : State) (tr : TraceUnit) : State :=
  State.adjRing { s with
    out := u.out
    arb := u.arb
    works := Tbl.set s.works s.nextWork (s.entryStarts x p r st)
    nextWork := s.nextWork + 1
    free := s.free + 2
    trace := tr
    accepted := q :: s.accepted } (pkey p r) fun r => r.accept (lenOf st.words)

variable {p r w : Nat} {x : Ring} {st : Staged} {s0 : State}

theorem State.ring?_ringGoesOn {k : Nat} (q len : Nat) (hx : s.ring? k = some x) :
    (s.ringGoesOn k q len).ring? k = some (x.accept len) :=
  (State.ring?_adjRing_same _ _ _).trans (congrArg _ hx)

section
variable (q : Nat) (u : State) (tr : TraceUnit)

theorem State.ring?_entryTaken_same (hx : s.ring? (pkey p r) = some x) :
    (s.entryTaken p r x st q u tr).ring? (pkey p r) = some (x.accept (lenOf st.words)) :=
  (State.ring?_adjRing_same _ _ _).trans (congrArg _ hx)

theorem State.ring?_entryTaken_other {k : Nat} (hk : k ≠ pkey p r) : (s.entryTaken p r x st q u tr).ring? k = s.ring? k :=
  State.ring?_adjRing_other _ _ hk

theorem State.work?_entryTaken_same : (s.entryTaken p r x st q u tr).work? s.nextWork = some (s.entryStarts x p r st) :=
  Tbl.get?_set_same s.works _ _

theorem State.work?_entryTaken_other {v : Nat} (hv : v ≠ s.nextWork) : (s.entryTaken p r x st q u tr).work? v = s.work? v :=
  Tbl.get?_set_other s.works _ hv.symm

end

/-- A free sequencer accepts a ready entry in its turn, and the fetch that its ring goes on with is issued. -/
theorem State.takeEntry_issues (hs : s.stop.stopped = false) (hx : s.ring? (pkey p r) = some x) (hst : x.staged = some st)
    (hready : s.entryReady (pkey p r) x = true) (hturn : s.turn x.rank = true) : ∃ q ∈ s.freeSeqrs, ∃ tr,
      s.takeEntry p r none = some (s.nextWork, s.entryTaken p r x st q
        ((s.ringGoesOn (pkey p r) q (lenOf st.words)).issueFetch (pkey p r)) tr) := by
  obtain ⟨q, hq, hseqr⟩ := State.takeSeqr_free (State.freeSeqrs_of_turn hturn)
  obtain ⟨o, a, hf⟩ := State.issueFetch_eq (s.ringGoesOn (pkey p r) q (lenOf st.words)) (pkey p r)
  obtain ⟨tr, ht⟩ := State.event_eq _ (768 + q) 0x03 (some p) (x.no + 2 ^ 16 * opcodeOf st.words + 2 ^ 24 * classOf st.words)
    ((x.lastSeq + 1) % 2 ^ 32) ((x.lastSeq + 1) / 2 ^ 32)
  refine ⟨q, hq, tr, ?_⟩
  rw [hf]
  rw [State.ringGoesOn] at hf
  simp only [State.takeEntry, hx, hst, hs, hready, hturn, hseqr, Bool.not_true, Bool.or_self, Bool.false_eq_true, if_false, hf]
  rw [ht]
  rfl

/-- Only a ready entry in its turn is accepted. -/
theorem State.takeEntry_some (h : s.takeEntry p r none = some (w, s0)) : ∃ x st, s.stop.stopped = false ∧
    s.ring? (pkey p r) = some x ∧ x.staged = some st ∧ s.entryReady (pkey p r) x = true ∧ s.turn x.rank = true := by
  simp only [State.takeEntry] at h
  split at h
  case h_1 => cases h
  case h_2 x hx =>
    split at h
    case h_1 => cases h
    case h_2 st hst =>
      split at h
      case isTrue => cases h
      case isFalse hmay =>
        simp only [Bool.or_eq_true, Bool.not_eq_true', not_or, Bool.not_eq_true, Bool.not_eq_false] at hmay
        obtain ⟨⟨hs, hready⟩, hturn⟩ := hmay
        exact ⟨x, st, hs, hx, hst, hready, hturn⟩

theorem State.startEntry_of_takeEntry (h : s.takeEntry p r none = some (w, s0)) :
    s.startEntry p r none = (s0.noteRun w).runRoutine w .notNeeded := by
  simp only [State.startEntry, h, State.runOrPark]

end

/-- A ring whose entry is accepted goes on behind it; CI and state wait for its completion (03 R80, R81). -/
theorem Ring.accept_keeps (x : Ring) (len : Nat) : (x.accept len).staged = none ∧
    (x.accept len).nextCi = (x.nextCi + len) % 2 ^ 32 ∧ (x.accept len).lastSeq = x.lastSeq + 1 ∧
    (x.accept len).ci = x.ci ∧ (x.accept len).state = x.state := by
  simp only [Ring.accept, Ring.fetchNext]
  split
  · exact ⟨rfl, rfl, rfl, rfl, rfl⟩
  · exact ⟨rfl, rfl, rfl, rfl, rfl⟩

theorem Ring.accept_place (x : Ring) (len : Nat) : (x.accept len).loc = x.loc ∧ (x.accept len).ctx = x.ctx ∧
    ∀ i, (x.accept len).granule i = x.granule i := by
  simp only [Ring.accept, Ring.fetchNext]
  split
  · exact ⟨rfl, rfl, fun _ => rfl⟩
  · exact ⟨rfl, rfl, fun _ => rfl⟩

theorem Ring.accept_fetch (x : Ring) (len : Nat) : (x.accept len).fetch =
    if (x.accept len).nextCi ≠ x.sampled ∧ 0 < x.sliceLeft ∧ x.slot.isSome = true then some (x.accept len).nextCi else x.fetch := by
  obtain ⟨-, hnext, -⟩ := x.accept_keeps len
  rw [hnext]
  simp only [Ring.accept, Ring.fetchNext]
  split
  · rfl
  · rfl

/-- Settles O12: the acceptance with the fetch that it issues; that fetch is read off the ring's `fetch`. -/
theorem readyEntryIsAccepted : Obligations.ReadyEntryIsAccepted := by
  unfold Obligations.ReadyEntryIsAccepted
  intro s p r x st hs hstop hx hst hready hturn
  obtain ⟨q, hq, tr, htake⟩ := State.takeEntry_issues hstop hx hst hready hturn
  obtain ⟨hstaged, hnext, hseq, hci, hstate⟩ := x.accept_keeps (lenOf st.words)
  obtain ⟨hloc, hctx, hgranule⟩ := x.accept_place (lenOf st.words)
  have hring := State.ring?_ringGoesOn q (lenOf st.words) hx
  refine ⟨_, htake, ?runs, rfl, rfl, State.work?_entryTaken_same .., fun w hw => State.work?_entryTaken_other _ _ _ hw, ⟨q, hq, rfl⟩,
    fun k hk => State.ring?_entryTaken_other _ _ _ hk, _, State.ring?_entryTaken_same _ _ _ hx, hstaged, hnext, hseq, hci, hstate,
    x.accept_fetch _, fun hf => ?noFetch, fun i hf => ?fetch⟩
  case runs =>
    rw [← State.startEntry_of_takeEntry htake]
    exact (State.after_eq hs.2 _).trans (congrArg _ (State.run_const hs.1 _))
  case noFetch =>
    rw [State.issueFetch_none hring hf]
    exact ⟨rfl, rfl⟩
  case fetch =>
    obtain ⟨hout, harb⟩ := State.issueFetch_some hring hf
    rw [hloc, hctx, hgranule] at hout
    rw [hloc] at harb
    exact ⟨hout, harb⟩

/-! ### What a start leaves unchanged -/

section
variable {s t u s1 : State} {w : Nat}

theorem State.keepsRest_refl (s : State) (w : Nat) : s.keepsRest s w := ⟨⟨rfl, fun _ _ => rfl, fun _ _ => rfl⟩, rfl, rfl⟩

/-- What a start does to its own command is no change of anything else. -/
theorem State.keepsWorks_adjWork (h : s.keepsWorks t w) (f : Work → Work) : s.keepsWorks (t.adjWork w f) w := by
  obtain ⟨hrings, hworks, hlaunches⟩ := h
  exact ⟨hrings, fun v hv => (State.work?_adjWork_other t f hv).trans (hworks v hv), hlaunches⟩

theorem State.keepsRest_adjWork (h : s.keepsRest t w) (f : Work → Work) : s.keepsRest (t.adjWork w f) w := by
  obtain ⟨hworks, hout, harb⟩ := h
  exact ⟨State.keepsWorks_adjWork hworks f, hout, harb⟩

theorem State.keepsRest_hold (h : s.keepsRest t w) (ls : List Loc) : s.keepsRest (t.hold w ls) w := by
  obtain ⟨tr, hh⟩ := t.hold_eq w ls
  rw [hh]
  exact State.keepsRest_adjWork (t := { t with transl := tr }) h fun x => { x with locs := ls, pins := x.pins ++ locNums ls }

@[simp] theorem State.aroundStart_hold (s : State) (w : Nat) (ls : List Loc) : (s.hold w ls).aroundStart = s.aroundStart := by
  obtain ⟨tr, h⟩ := s.hold_eq w ls
  rw [h]
  rfl

/-- A start opens no store and leaves memory and the queue alone. -/
theorem State.frame_of_aroundStart (h : t.aroundStart = s.aroundStart) :
    t.mem = s.mem ∧ t.stores = s.stores ∧ t.cleared = s.cleared ∧ t.pending = s.pending := by
  have hmem := congrArg State.mem h
  have hstores := congrArg State.stores h
  have hcleared := congrArg State.cleared h
  have hpending := congrArg State.pending h
  exact ⟨hmem, hstores, hcleared, hpending⟩

theorem State.after_starts (hs : s.live) {f : State → State} (hf : f s = t) (ht : t.aroundStart = s.aroundStart) :
    s.after f = .next t := by
  obtain ⟨hmem, hst, hcl, hq⟩ := State.frame_of_aroundStart ht
  exact State.after_live hs hf hst hcl hmem hq

end

/-! ### Failed checks (03 R83, R98) -/

section
variable {s : State} {w : Nat} {x : Work} {d : DescSt} {res : Res}

/-- A check of R83 that fails decides the end before any other is made. -/
theorem State.runRoutine_entryFails (hx : s.work? w = some x) (h : s.entryChk x = some res) :
    s.runRoutine w d = s.decideEnd w res := by
  simp only [State.runRoutine, hx, h]

/-- The checks of R83 of an entry: where it stands in the buffer, then its header. -/
theorem State.entryChk_ring {p r : Nat} {y : Ring} (hsite : x.site = .ring p r) (hy : s.ring? (pkey p r) = some y) :
    s.entryChk x = firstOf (need (!wraps y x.idx (lenOf x.cmd)) (mal 0x0101) :: s.headChk r x.cmd) := by
  simp only [State.entryChk, hsite, hy]

end

/-- Settles O18: the routine runs the checks in their order, and a failed one decides the end. -/
theorem failedCheckDecidesTheEnd : Obligations.FailedCheckDecidesTheEnd := by
  unfold Obligations.FailedCheckDecidesTheEnd
  intro s p r w s0 x y res hs htake s1 hx hsite hy op fails wrap
  have haround : s1.aroundStart = s.aroundStart := (State.noteRun_around s0 w).trans (State.takeEntry_around htake)
  have hfails {res : Res} (h : s1.runRoutine w .notNeeded = s1.decideEnd w res) : fails res := by
    refine ⟨_, State.after_starts hs (f := fun s => s.startEntry p r none) ((State.startEntry_of_takeEntry htake).trans h) haround,
      ?_, State.keepsRest_adjWork (s1.keepsRest_refl w) _, haround⟩
    rw [State.work?_decideEnd, hx]
    rfl
  have hentry {res : Res} (h : firstOf [need (!decide wrap) (mal 0x0101), need (headerOk x.cmd) (mal 0x0102),
      need (s1.inDispatch op) (Res.of .badOpcode 0x0106), need (r == 0 || !isAdmin op) (Res.of .badOpcode 0x0107),
      need (r != 0 || isAdmin op || op == 0) (Res.of .badOpcode 0x0108), need (lenOk x.cmd) (mal 0x0103)] = some res) : fails res :=
    hfails (State.runRoutine_entryFails hx ((State.entryChk_ring hsite hy).trans h))
  refine ⟨fun hw => hentry ?wrap, fun hw hh => hentry ?header, fun hw hh hop => hentry ?opcode,
    fun hw hh hop hr ha => hentry ?admin, fun hw hh hop hr ha h0 => hentry ?notAdmin,
    fun hw hh hop ha h0 hl => hentry ?len, fun hnone hown hcore => ?own⟩
  case wrap => rw [decide_eq_true hw]; rfl
  case header => rw [decide_eq_false hw, hh]; rfl
  case opcode => rw [decide_eq_false hw, hh, hop]; rfl
  case admin =>
    have hring : (r == 0 || !isAdmin op) = false := by simp [hr, ha]
    rw [decide_eq_false hw, hh, hop, hring]
    rfl
  case notAdmin =>
    have hring : (r == 0 || !isAdmin op) = true := by simp [hr]
    have hring0 : (r != 0 || isAdmin op || op == 0) = false := by simp [hr, ha, h0]
    rw [decide_eq_false hw, hh, hop, hring, hring0]
    rfl
  case len =>
    have hring : (r == 0 || !isAdmin op) = true := by
      by_cases hr : r = 0
      · simp [hr]
      · simp [ha hr]
    have hring0 : (r != 0 || isAdmin op || op == 0) = true := by
      by_cases hr : r = 0
      · rcases h0 hr with h | h
        · simp [h]
        · simp [h]
      · simp [hr]
    rw [decide_eq_false hw, hh, hop, hring, hring0, hl]
    rfl
  case own => exact hfails (State.runRoutine_fails hx hcore (by rw [hnone, hown]; rfl))

end Sys2Proof.Machine
end

section
/-! PROOFS. How commands begin that pass every check (03 R97, R99, R105; 04 R141-R147; 06 R190): what a begin does to its own
command, the small commands, and the admin commands. -/
namespace Sys2Proof.Machine

/-! ### The begin of a command that passes its checks -/

section
variable {s s1 t : State} {at_ : Site} {op w : Nat} {e : Cmd} {x : Work} {d : DescSt} {c : Instr} {ph : Phase}

/-- A command that is accepted and passes its checks answers with the state in which it has begun. -/
theorem State.after_begins (hs : s.live) (h : s.accepts at_ op e w s1 x d) (hp : s1.passes x)
    (hc : exec c s = s.after fun s => s.startAt at_ op e) (hbegin : s1.begin_ w x d = t)
    (hmem : t.mem = s1.mem) (hst : t.stores = s1.stores) (hcl : t.cleared = s1.cleared) (hq : t.pending = s1.pending) :
    exec c s = .next t := by
  obtain ⟨hmem1, hst1, hcl1, hq1⟩ := State.frame_of_aroundStart (State.accepts_around h)
  rw [hc]
  exact State.after_live hs (f := fun s => s.startAt at_ op e) ((State.startAt_passes h hp).trans hbegin) (hst.trans hst1)
    (hcl.trans hcl1) (hmem.trans hmem1) (hq.trans hq1)

/-- One that does nothing outside its own command. -/
theorem State.begins_keeping (hs : s.live) (h : s.accepts at_ op e w s1 x d) (hp : s1.passes x)
    (hc : exec c s = s.after fun s => s.startAt at_ op e) (hbegin : s1.begin_ w x d = t)
    (hph : (t.work? w).map (fun y => y.phase) = some ph) (hrest : s1.keepsRest t w) (haround : t.aroundStart = s1.aroundStart) :
    GoesTo (exec c s) fun t =>
      (t.work? w).map (fun y => y.phase) = some ph ∧ s1.keepsRest t w ∧ t.aroundStart = s.aroundStart := by
  obtain ⟨hmem, hst, hcl, hq⟩ := State.frame_of_aroundStart haround
  exact ⟨t, State.after_begins hs h hp hc hbegin hmem hst hcl hq, hph, hrest, haround.trans (State.accepts_around h)⟩

theorem State.accepts_work (h : s.accepts at_ op e w s1 x d) : s1.work? w = some x ∧ opcodeOf x.cmd = op := h.2

/-- The phase that a command takes at its begin, after its places are held. -/
theorem State.phase_of_phase (hx : (s.work? w).isSome = true) : ((s.phase w ph).work? w).map (fun y => y.phase) = some ph := by
  obtain ⟨y, hy⟩ := Option.isSome_iff_exists.1 hx
  rw [State.work?_phase, hy]
  rfl

theorem State.phase_of_decideEnd {res : Res} (hx : (s.work? w).isSome = true) :
    ((s.decideEnd w res).work? w).map (fun y => y.phase) = some (.decided res (s.tick + 1)) := State.phase_of_phase hx

theorem State.isSome_work?_hold (hx : s.work? w = some x) (ls : List Loc) : ((s.hold w ls).work? w).isSome = true := by
  rw [State.work?_hold, hx]
  rfl

end

/-! ### FENCE_WAIT and FENCE_SIGNAL (04 R141-R143) -/

section
variable {s : State} {w : Nat} {x : Work}

/-- The first check of a wait is made at its start: a FAILED fence, then the threshold. -/
theorem State.beginFenceWait_eq (hx : s.work? w = some x) (habort : x.abort = none) : s.beginFenceWait w x =
    let v := s.fenceView (pkey x.part (fenceNo x.cmd))
    let u := s.phase w (.fenceWait (s.homeOf (pkey x.part (fenceNo x.cmd))) (thresholdOf x.cmd) false)
    if v.2 then u.decideEnd w (Res.of .fenceFailed 0) else if thresholdOf x.cmd ≤ v.1 then u.decideEnd w Res.ok else u := by
  have hview (ph : Phase) (k : Nat) : (s.phase w ph).fenceView k = s.fenceView k := rfl
  simp only [State.beginFenceWait, State.waitCheck, State.work?_phase, hx, Option.map_some, habort, Option.isSome_none,
    Bool.false_eq_true, if_false, hview]

/-- So a wait is decided at once, or waits on the home record; nothing else changes. -/
theorem State.beginFenceWait_starts (hx : s.work? w = some x) (habort : x.abort = none) :
    let v := s.fenceView (pkey x.part (fenceNo x.cmd))
    ((s.beginFenceWait w x).work? w).map (fun y => y.phase) = some
      (if v.2 then .decided (Res.of .fenceFailed 0) (s.tick + 1)
       else if thresholdOf x.cmd ≤ v.1 then .decided Res.ok (s.tick + 1)
       else .fenceWait (s.homeOf (pkey x.part (fenceNo x.cmd))) (thresholdOf x.cmd) false) ∧
      s.keepsRest (s.beginFenceWait w x) w ∧ (s.beginFenceWait w x).aroundStart = s.aroundStart := by
  have hsome : (s.work? w).isSome = true := by rw [hx]; rfl
  have hwaits (ph : Phase) : s.keepsRest (s.phase w ph) w := State.keepsRest_adjWork (s.keepsRest_refl w) _
  have hphased (ph : Phase) : ((s.phase w ph).work? w).isSome = true := by rw [State.work?_phase, hx]; rfl
  rw [State.beginFenceWait_eq hx habort]
  dsimp only
  split
  case isTrue => exact ⟨State.phase_of_decideEnd (hphased _), State.keepsRest_adjWork (hwaits _) _, rfl⟩
  case isFalse =>
    split
    case isTrue => exact ⟨State.phase_of_decideEnd (hphased _), State.keepsRest_adjWork (hwaits _) _, rfl⟩
    case isFalse => exact ⟨State.phase_of_phase hsome, hwaits _, rfl⟩

/-- A fence flit changes the fabric time unit and what is sent. -/
theorem State.sendFenceFlit_eq (s : State) (p kind dst eff : Nat) (w0 w1 w2 : Word) :
    ∃ f o, s.sendFenceFlit p kind dst eff w0 w1 w2 = { s with fab := f, out := o } := by
  obtain ⟨g, hg, -⟩ := s.sendFlit_eq kind dst eff w0 w1 w2
  simp only [State.sendFenceFlit, hg]
  split
  · exact ⟨s.fab, s.out, rfl⟩
  · exact ⟨_, _, rfl⟩

/-- A signal to a fence of another chip: its flit and the mirror's change. -/
theorem State.signalRemote_eq (s : State) (p k : Nat) (v : Option Nat) (eff : Nat) :
    ∃ f o m, s.signalRemote p k v eff = { s with fab := f, out := o, mirrors := m } := by
  simp only [State.signalRemote]
  split
  case h_2 => exact ⟨s.fab, s.out, s.mirrors, rfl⟩
  case h_1 =>
    split
    case h_2 => exact ⟨s.fab, s.out, s.mirrors, rfl⟩
    case h_1 chip part key _ =>
      cases v with
      | none =>
        obtain ⟨f, o, h⟩ := s.sendFenceFlit_eq p 0x11 chip eff 0 (BitVec.ofNat 64 key) (fenceFlitWord p part 0)
        exact ⟨f, o, s.mirrors ++ [(eff, k, none)], by simp only [h]⟩
      | some v =>
        obtain ⟨f, o, h⟩ := s.sendFenceFlit_eq p 0x10 chip eff (BitVec.ofNat 64 v) (BitVec.ofNat 64 key) (fenceFlitWord p part 0)
        exact ⟨f, o, s.mirrors ++ [(eff, k, some v)], by simp only [h]⟩

/-- A signal on this chip waits for its tick, or for the first one allowed. -/
theorem State.beginFenceSignal_here (hhome : s.isRemote (pkey x.part (fenceNo x.cmd)) = false) : s.beginFenceSignal w x =
    s.phase w (.signal (if sigTick x.cmd ≠ 0 then sigTick x.cmd else s.tick + 1)) := by
  simp only [State.beginFenceSignal, hhome, State.sigFirst, Bool.false_eq_true, if_false, ite_not]

theorem State.beginFenceSignal_remote (hhome : s.isRemote (pkey x.part (fenceNo x.cmd)) = true) : ∃ f o m, s.beginFenceSignal w x =
    State.phase { s with fab := f, out := o, mirrors := m } w
      (.signal (if sigTick x.cmd ≠ 0 then sigTick x.cmd else s.tick + s.lead)) := by
  obtain ⟨f, o, m, h⟩ := s.signalRemote_eq x.part (pkey x.part (fenceNo x.cmd))
    (if sigMode x.cmd = 2 then none else some (sigValue x.cmd)) (if sigTick x.cmd = 0 then s.tick + s.lead else sigTick x.cmd)
  refine ⟨f, o, m, ?_⟩
  simp only [State.beginFenceSignal, hhome, State.sigFirst, if_true, h, ite_not]

end

/-- Settles O14: each command by what its begin does to its own command; a remote fence adds the flit and the mirror. -/
theorem simpleCommandsBegin : Obligations.SimpleCommandsBegin := by
  unfold Obligations.SimpleCommandsBegin
  intro s at_ e w s1 x d op hs h hp begins
  obtain ⟨hx, hcmd⟩ := State.accepts_work h
  have hsome : (s1.work? w).isSome = true := by rw [hx]; rfl
  refine ⟨fun hop => ?nop, fun hop habort => ?wait, fun hop hhome => ?signal, fun hop hhome => ?remote, fun hop => ?write,
    fun hop => ?stamp⟩
  all_goals subst hop
  case nop =>
    have hbegin : s1.begin_ w x d = s1.beginNop w := by simp only [State.begin_, hcmd]
    exact State.begins_keeping hs h hp rfl hbegin (State.phase_of_phase hsome) (State.keepsRest_adjWork (s1.keepsRest_refl w) _) rfl
  case wait =>
    have hbegin : s1.begin_ w x d = s1.beginFenceWait w x := by simp only [State.begin_, hcmd]
    obtain ⟨hph, hrest, haround⟩ := State.beginFenceWait_starts hx habort
    exact State.begins_keeping hs h hp rfl hbegin hph hrest haround
  case signal =>
    have hbegin : s1.begin_ w x d = s1.beginFenceSignal w x := by simp only [State.begin_, hcmd]
    exact State.begins_keeping hs h hp rfl (hbegin.trans (State.beginFenceSignal_here hhome)) (State.phase_of_phase hsome)
      (State.keepsRest_adjWork (s1.keepsRest_refl w) _) rfl
  case remote =>
    have hbegin : s1.begin_ w x d = s1.beginFenceSignal w x := by simp only [State.begin_, hcmd]
    obtain ⟨f, o, m, hremote⟩ := State.beginFenceSignal_remote (w := w) hhome
    refine ⟨_, State.after_begins hs h hp rfl (hbegin.trans hremote) rfl rfl rfl rfl, State.phase_of_phase hsome,
      State.keepsWorks_adjWork ⟨rfl, fun _ _ => rfl, fun _ _ => rfl⟩ _, rfl, ?_⟩
    rw [← State.accepts_around h]
    rfl
  case write =>
    have hbegin : s1.begin_ w x d = s1.beginWriteValue w x := by simp only [State.begin_, hcmd]
    exact State.begins_keeping hs h hp rfl hbegin (State.phase_of_phase (State.isSome_work?_hold hx _))
      (State.keepsRest_adjWork (State.keepsRest_hold (s1.keepsRest_refl w) _) _) (State.aroundStart_hold ..)
  case stamp =>
    have hbegin : s1.begin_ w x d = s1.beginTimestamp w x := by simp only [State.begin_, hcmd]
    exact State.begins_keeping hs h hp rfl hbegin (State.phase_of_phase (State.isSome_work?_hold hx _))
      (State.keepsRest_adjWork (State.keepsRest_hold (s1.keepsRest_refl w) _) _) (State.aroundStart_hold ..)

/-! ### Admin commands (03 R97, R105) -/

/-- The command that has been accepted from a ring is its staged entry, a query with the report of that boundary. -/
theorem State.accepts_entry {s s1 : State} {p r op w : Nat} {e : Cmd} {x : Work} {d : DescSt}
    (h : s.accepts (.ring p r) op e w s1 x d) : ∃ y st, x = s.entryStarts y p r st := by
  obtain ⟨⟨-, s0, htake, rfl, -⟩, hx, -⟩ := h
  obtain ⟨y, st, hs, hy, hst, hready, hturn⟩ := State.takeEntry_some htake
  obtain ⟨q, -, tr, htaken⟩ := State.takeEntry_issues hs hy hst hready hturn
  obtain ⟨rfl, rfl⟩ := Prod.mk.inj (Option.some.inj (htake.symm.trans htaken))
  rw [State.work?_noteRun, State.work?_entryTaken_same] at hx
  exact ⟨y, st, (Option.some.inj hx).symm⟩

theorem State.accepts_report {s s1 : State} {p r op w : Nat} {e : Cmd} {x : Work} {d : DescSt}
    (h : s.accepts (.ring p r) op e w s1 x d) (hq : isQuery op = true) : x.report = s.queryReport p x.cmd := by
  obtain ⟨hx, hcmd⟩ := State.accepts_work h
  obtain ⟨y, st, rfl⟩ := State.accepts_entry h
  have hquery : isQuery (opcodeOf st.words) = true := (congrArg isQuery hcmd).trans hq
  exact if_pos hquery

section
variable {s : State} {w op : Nat} {x : Work} {d : DescSt}

theorem State.begin_admin (hop : 0xC0 ≤ opcodeOf x.cmd) : s.begin_ w x d = s.beginAdmin w x := by
  rw [State.begin_]
  split
  case h_16 => rfl
  all_goals omega

theorem State.beginAdmin_query (hq : isQuery (opcodeOf x.cmd) = true) :
    s.beginAdmin w x = s.phase w (.io (.report x.report) s.tick) := if_pos hq

theorem State.beginAdmin_abort (hop : opcodeOf x.cmd = 0xC6) : s.beginAdmin w x = s.phase w (.aborting (s.tick + 1)) := by
  simp only [State.beginAdmin, hop]
  rfl

/-- EXPERT_BIAS_SET reads its vector at once (09 R273). -/
theorem State.beginAdmin_bias (hop : opcodeOf x.cmd = 0xEA) : s.beginAdmin w x =
    ((s.hold w [s.mrefLoc (pkey x.part 0) x.cmd 16]).issueRead (pkey x.part 0) 4 (s.mrefLoc (pkey x.part 0) x.cmd 16)
      (4 * s.nexpOf (layerKey x.part x.cmd))).phase w (.io .bias s.tick) := by
  simp only [State.beginAdmin, hop]
  rfl

/-- Every other one is in progress, with its places held. -/
theorem State.beginAdmin_works (hx : s.work? w = some x) (hq : isQuery (opcodeOf x.cmd) = false) (habort : opcodeOf x.cmd ≠ 0xC6)
    (hbias : opcodeOf x.cmd ≠ 0xEA) : ∃ u, (u.work? w).isSome = true ∧ s.keepsRest u w ∧ u.aroundStart = s.aroundStart ∧
      s.beginAdmin w x = u.phase w (.io .admin s.tick) := by
  have hsome : (s.work? w).isSome = true := by rw [hx]; rfl
  have hheld (ls : List Loc) : ((s.hold w ls).work? w).isSome = true ∧ s.keepsRest (s.hold w ls) w ∧
      (s.hold w ls).aroundStart = s.aroundStart :=
    ⟨State.isSome_work?_hold hx ls, State.keepsRest_hold (s.keepsRest_refl w) ls, s.aroundStart_hold w ls⟩
  simp only [State.beginAdmin, hq, Bool.false_eq_true, if_false]
  split
  case h_1 hop => exact absurd hop habort
  case h_2 | h_4 =>
    obtain ⟨h1, h2, h3⟩ := hheld _
    exact ⟨_, h1, h2, h3, rfl⟩
  case h_3 =>
    split
    case isTrue => exact ⟨s, hsome, s.keepsRest_refl w, rfl, rfl⟩
    case isFalse =>
      obtain ⟨h1, h2, h3⟩ := hheld _
      exact ⟨_, h1, h2, h3, rfl⟩
  case h_5 => exact ⟨_, by rw [State.work?_adjWork_same, hx]; rfl, State.keepsRest_adjWork (s.keepsRest_refl w) _, rfl, rfl⟩
  case h_6 hop => exact absurd hop hbias
  case h_7 => exact ⟨s, hsome, s.keepsRest_refl w, rfl, rfl⟩

/-- The read of a command that holds its places is issued as if it held none. -/
theorem State.issueRead_hold (s : State) (w ck k n : Nat) (l : Loc) (ls : List Loc) : (s.hold w ls).issueRead ck k l n =
    { s.hold w ls with out := (s.issueRead ck k l n).out, arb := (s.issueRead ck k l n).arb } := by
  obtain ⟨tr, h⟩ := s.hold_eq w ls
  rw [h]
  cases l with
  | host a => rfl
  | dev o a => rfl

end

section
variable {p : Nat} {e : Cmd} {c : Instr} {op : Nat}

/-- The admin commands that have work to do. -/
theorem adminWork_of_mem (s : State) (h : (c, op) ∈ [(Instr.ctxCreate p e, 0xC0), (.ctxDestroy p e, 0xC1), (.ringCreate p e, 0xC2),
      (.ringConfig p e, 0xC3), (.ringDestroy p e, 0xC4), (.graphLoad p e, 0xC8), (.graphPatch p e, 0xC9), (.graphUnload p e, 0xCA),
      (.fenceAlloc p e, 0xD0), (.fenceFree p e, 0xD1), (.fenceExport p e, 0xD2), (.fenceImport p e, 0xD3), (.memAlloc p e, 0xD8),
      (.memFree p e, 0xD9), (.tableCreate p e, 0xE0), (.tableStage p e, 0xE1), (.tableCommit p e, 0xE2), (.tableDestroy p e, 0xE3),
      (.expertLayerCreate p e, 0xE8), (.expertLayerDestroy p e, 0xE9)]) :
    (exec c s = s.after fun s => s.startAt (.ring p 0) op e) ∧ 0xC0 ≤ op ∧ isQuery op = false ∧ op ≠ 0xC6 ∧ op ≠ 0xEA := by
  simp only [List.mem_cons, Prod.mk.injEq, List.not_mem_nil, or_false] at h
  rcases h with ⟨rfl, rfl⟩ | ⟨rfl, rfl⟩ | ⟨rfl, rfl⟩ | ⟨rfl, rfl⟩ | ⟨rfl, rfl⟩ | ⟨rfl, rfl⟩ | ⟨rfl, rfl⟩ | ⟨rfl, rfl⟩ | ⟨rfl, rfl⟩ |
    ⟨rfl, rfl⟩ | ⟨rfl, rfl⟩ | ⟨rfl, rfl⟩ | ⟨rfl, rfl⟩ | ⟨rfl, rfl⟩ | ⟨rfl, rfl⟩ | ⟨rfl, rfl⟩ | ⟨rfl, rfl⟩ | ⟨rfl, rfl⟩ | ⟨rfl, rfl⟩ |
    ⟨rfl, rfl⟩
  all_goals exact ⟨rfl, by decide, rfl, by decide, by decide⟩

theorem adminQuery_of_mem (s : State) (h : (c, op) ∈ [(Instr.ringQuery p e, 0xC5), (.graphQuery p e, 0xCB), (.fenceQuery p e, 0xD4),
      (.tableQuery p e, 0xE4), (.expertLayerQuery p e, 0xEB)]) :
    (exec c s = s.after fun s => s.startAt (.ring p 0) op e) ∧ 0xC0 ≤ op ∧ isQuery op = true := by
  simp only [List.mem_cons, Prod.mk.injEq, List.not_mem_nil, or_false] at h
  rcases h with ⟨rfl, rfl⟩ | ⟨rfl, rfl⟩ | ⟨rfl, rfl⟩ | ⟨rfl, rfl⟩ | ⟨rfl, rfl⟩
  all_goals exact ⟨rfl, by decide, rfl⟩

end

/-- Settles O17: by the four kinds of admin command that `beginAdmin` tells apart. -/
theorem adminCommandsBegin : Obligations.AdminCommandsBegin := by
  unfold Obligations.AdminCommandsBegin
  intro s p e w s1 x d c op hs h hp begins
  obtain ⟨hx, hcmd⟩ := State.accepts_work h
  have hsome : (s1.work? w).isSome = true := by rw [hx]; rfl
  refine ⟨fun hmem => ?work, fun hmem => ?query, fun hc => ?abort, fun hc => ?bias⟩
  case work =>
    obtain ⟨hexec, hop, hq, hna, hnb⟩ := adminWork_of_mem s hmem
    rw [← hcmd] at hop hq hna hnb
    obtain ⟨u, hu, hrest, haround, hbegin⟩ := State.beginAdmin_works hx hq hna hnb
    exact State.begins_keeping hs h hp hexec ((State.begin_admin hop).trans hbegin) (State.phase_of_phase hu)
      (State.keepsRest_adjWork hrest _) haround
  case query =>
    obtain ⟨hexec, hop, hq⟩ := adminQuery_of_mem s hmem
    have hreport := State.accepts_report h hq
    rw [← hcmd] at hop hq
    rw [← hreport]
    exact State.begins_keeping hs h hp hexec ((State.begin_admin hop).trans (State.beginAdmin_query hq)) (State.phase_of_phase hsome)
      (State.keepsRest_adjWork (s1.keepsRest_refl w) _) rfl
  case abort =>
    obtain ⟨rfl, rfl⟩ := Prod.mk.inj hc
    exact State.begins_keeping hs h hp rfl ((State.begin_admin (by rw [hcmd]; decide)).trans (State.beginAdmin_abort hcmd))
      (State.phase_of_phase hsome) (State.keepsRest_adjWork (s1.keepsRest_refl w) _) rfl
  case bias =>
    obtain ⟨rfl, rfl⟩ := Prod.mk.inj hc
    have hbegin := (State.begin_admin (s := s1) (w := w) (d := d) (by rw [hcmd]; decide)).trans (State.beginAdmin_bias hcmd)
    rw [State.issueRead_hold] at hbegin
    have hheld := State.isSome_work?_hold hx [s1.mrefLoc (pkey x.part 0) x.cmd 16]
    obtain ⟨hworks, -, -⟩ := State.keepsRest_hold (s1.keepsRest_refl w) [s1.mrefLoc (pkey x.part 0) x.cmd 16]
    have haround := s1.aroundStart_hold w [s1.mrefLoc (pkey x.part 0) x.cmd 16]
    generalize s1.hold w [s1.mrefLoc (pkey x.part 0) x.cmd 16] = u at hbegin hheld hworks haround
    obtain ⟨hmem, hst, hcl, hq⟩ := State.frame_of_aroundStart haround
    exact ⟨_, State.after_begins hs h hp rfl hbegin hmem hst hcl hq, State.phase_of_phase hheld, ⟨rfl, rfl⟩,
      State.keepsWorks_adjWork hworks _, haround.trans (State.accepts_around h)⟩

end Sys2Proof.Machine
end

section
/-! PROOFS. What completed admin commands change (03 R97, R100-R104; 06 R183, R184, R197): contexts, rings, fences and handles. -/
namespace Sys2Proof.Machine

/-! ### Free numbers (02 R51) -/

/-- A number that is found is below the limit. -/
theorem lt_of_probe {limit n i m : Nat} {used : List Nat} (h : probe limit used n i = some m) : m < limit := by
  induction n generalizing i with
  | zero => cases h
  | succ n ih =>
    simp only [probe] at h
    split at h
    case isTrue => cases h
    case isFalse hlimit =>
      split at h
      case isTrue => exact ih h
      case isFalse =>
        cases h
        exact Nat.mod_lt _ (Nat.pos_of_ne_zero hlimit)

/-- While not all numbers are used, one below the limit that is not used is taken. -/
theorem State.takeNumber_free (s : State) {limit : Nat} {used : List Nat} (h : used.length < limit) :
    ∃ m, m < limit ∧ m ∉ used ∧ s.takeNumber limit used = (some m, { s with free := s.free + 1 }) := by
  obtain ⟨m, hm⟩ := Option.ne_none_iff_exists'.1 (probe_ne_none (i := Config.pick s.free) h (Nat.lt_succ_self used.length))
  exact ⟨m, lt_of_probe hm, not_mem_of_probe hm, by simp only [State.takeNumber, State.takeFree, hm]⟩

/-! ### Contexts and rings (03 R100-R104) -/

section
variable {s : State} {p : Nat} {e : Cmd}

theorem State.effCtxCreate_eq (hroom : s.ctxNos.length < Config.contexts) : ∃ no, no < Config.contexts ∧ no ∉ s.ctxNos ∧
    s.effCtxCreate p e = { s with
      free := s.free + 1
      ctxs := Tbl.set s.ctxs (pkey p (fld e 8 0 12)) (Ctx.fresh no (fld e 12 0 20) (flag e 10 0)) } := by
  obtain ⟨no, hlt, hfree, htake⟩ := s.takeNumber_free hroom
  exact ⟨no, hlt, hfree, by simp only [State.effCtxCreate, htake]⟩

/-- The ring that RING_CREATE makes on a hardware ring: the command's fields, and DISABLED. -/
def State.createdRing (s : State) (p : Nat) (e : Cmd) (no : Nat) : Ring :=
  { Ring.fresh no (pkey p (fld e 10 0 12)) with
    base := fld e 16 0 64, sizeLog2 := fld e 12 0 8, loc := flag e 13 0, cseq := fld e 24 0 64,
    cseqLoc := flag e 13 1, err := fld e 32 0 64, errLoc := flag e 13 2, errLog2 := fld e 40 0 8,
    vector := fld e 14 0 8, slice := s.sliceOf (fld e 15 0 8), timeoutUs := fld e 44 0 32 }

theorem State.effRingCreate_eq (hroom : s.ringNos.length < Config.hardRings) : ∃ no, no ∉ s.ringNos ∧
    s.effRingCreate p e = { s with
      free := s.free + 1
      rings := Tbl.set s.rings (pkey p (fld e 8 0 14)) (s.createdRing p e no) } := by
  obtain ⟨no, -, hfree, htake⟩ := s.takeNumber_free hroom
  exact ⟨no, hfree, by simp only [State.effRingCreate, htake]; rfl⟩

/-! ### Fences (06 R183, R184) -/

theorem State.effFenceAlloc_eq (hroom : s.fences.length < Config.fenceRecords) : ∃ no, (∀ x ∈ s.fences, x.2.no ≠ no) ∧
    s.effFenceAlloc p e = { s with
      free := s.free + 1
      fences := Tbl.set s.fences (pkey p (fenceNo e)) {
        no := no, kind := .own, value := fld e 16 0 64, failed := false, signal := true, synced := false, draining := false,
        low := 0, sat := 0, last := 0, changed := false } } := by
  obtain ⟨no, -, hfree, htake⟩ := s.takeNumber_free (used := s.fences.map fun x => x.2.no) (by rw [List.length_map]; exact hroom)
  exact ⟨no, fun x hx heq => hfree (heq ▸ List.mem_map_of_mem hx), by simp only [State.effFenceAlloc, htake]⟩

section
variable {f : Fence}

theorem State.effFenceFree_own (hf : s.fence? (pkey p (fenceNo e)) = some f) (hkind : f.kind = .own) : s.effFenceFree p e =
    State.adjFence { (s.mark (.record (pkey p (fenceNo e)))).loseExports (pkey p (fenceNo e)) with
      mirrors := s.mirrors.filter fun m => m.2.1 != pkey p (fenceNo e) }
      (pkey p (fenceNo e)) fun f => { f with draining := true } := by
  simp only [State.effFenceFree, hf, hkind]
  rfl

theorem State.effFenceFree_import (hf : s.fence? (pkey p (fenceNo e)) = some f) (hkind : f.kind ≠ .own) : s.effFenceFree p e =
    State.adjFence { s.mark (.imported (pkey p (fenceNo e))) with
      mirrors := s.mirrors.filter fun m => m.2.1 != pkey p (fenceNo e) }
      (pkey p (fenceNo e)) fun f => { f with draining := true } := by
  cases h : f.kind with
  | own => exact absurd h hkind
  | localImport | remoteImport =>
    simp only [State.effFenceFree, hf, h]
    rfl

end

/-! ### Handles (06 R197) -/

/-- A freed handle changes in its context; objects that nothing keeps go with it. -/
theorem State.ctx?_effMemFree {c : Ctx} (hc : s.ctx? (pkey p (fld e 8 0 12)) = some c) :
    (s.effMemFree p e).ctx? (pkey p (fld e 8 0 12)) =
      some { c with handles := Tbl.adjust c.handles (fld e 12 0 20) Handle.freed } :=
  (State.ctx?_adjCtx_same s _ fun c => { c with handles := Tbl.adjust c.handles (fld e 12 0 20) Handle.freed }).trans
    (congrArg _ hc)

end

/-- Settles O19: each opcode names the family's effect, whose equation the clause reads off. -/
theorem adminEffectsOnTheirObjects : Obligations.AdminEffectsOnTheirObjects := by
  unfold Obligations.AdminEffectsOnTheirObjects
  intro s w p e locs bound
  refine ⟨fun hop hroom => ?ctxCreate, fun hop hroom => ?ringCreate, fun r hop hr => ?ringConfig, fun hop => ?ringDestroy,
    fun hop => ?ctxDestroy, fun hop hroom => ?fenceAlloc, fun f hop hf => ?fenceFree, fun c h hop hc hh => ?memFree⟩
  all_goals simp only [State.adminEffect, hop]
  case ctxCreate =>
    obtain ⟨no, hlt, hfree, heq⟩ := State.effCtxCreate_eq (p := p) (e := e) hroom
    exact ⟨no, hlt, hfree, by rw [heq]⟩
  case ringCreate =>
    obtain ⟨no, hfree, heq⟩ := State.effRingCreate_eq (p := p) (e := e) hroom
    rw [heq]
    exact ⟨_, no, Tbl.get?_set_same s.rings _ _, hfree, rfl, rfl, rfl, rfl, rfl, rfl, rfl, rfl, rfl, rfl⟩
  case ringConfig => exact (State.ring?_adjRing_same s _ _).trans (congrArg _ hr)
  case ringDestroy => exact Tbl.get?_erase_same s.rings _
  case ctxDestroy => exact Tbl.get?_erase_same s.ctxs _
  case fenceAlloc =>
    obtain ⟨no, hfree, heq⟩ := State.effFenceAlloc_eq (p := p) (e := e) hroom
    rw [heq]
    exact ⟨_, Tbl.get?_set_same s.fences _ _, rfl, rfl, rfl, rfl, hfree⟩
  case fenceFree =>
    by_cases hkind : f.kind = .own
    · rw [State.effFenceFree_own hf hkind]
      refine ⟨(State.fence?_adjFence_same _ _ _).trans (congrArg _ hf), fun _ => ⟨?_, fun x hx => ?_⟩, fun h => absurd hkind h⟩
      · exact List.mem_append_left _ (List.mem_append_right _ (List.mem_singleton.2 rfl))
      · simpa using (List.mem_filter.1 hx).2
    · rw [State.effFenceFree_import hf hkind]
      exact ⟨(State.fence?_adjFence_same _ _ _).trans (congrArg _ hf), fun h => absurd h hkind,
        fun _ => List.mem_append_right _ (List.mem_singleton.2 rfl)⟩
  case memFree =>
    exact ⟨_, State.ctx?_effMemFree hc, (Tbl.get?_adjust_same c.handles _ Handle.freed).trans (congrArg _ hh)⟩

end Sys2Proof.Machine
end

section
/-! PROOFS. Signals on the home record of a fence (04 R144; 06 R176-R179, R191). -/
namespace Sys2Proof.Machine

/-- The saturating counters of 32 bits, as the fence counters are read. -/
theorem satInc_32 (n : Nat) : satInc 32 n = min (2 ^ 32 - 1) (n + 1) := satInc_eq_min.trans (Nat.min_comm _ _)

section
variable {s : State} {p k h v : Nat} {f : Fence}

/-- The trace event of a change leaves every fence as it is. -/
@[simp] theorem State.fence?_fenceEvent (s : State) (f : Fence) (h : Nat) : (s.fenceEvent f).fence? h = s.fence? h := by
  obtain ⟨tr, ht⟩ := State.event_eq s 801 0x05 none (f.no % 2 ^ 20 + 2 ^ 20 * natOfBool f.failed) (f.value % 2 ^ 32)
    (f.value / 2 ^ 32)
  rw [State.fenceEvent, ht]
  rfl

/-- Counting against a partition leaves every fence as it is. -/
@[simp] theorem State.fence?_adjCounts (s : State) (p : Nat) (g : PartCounts → PartCounts) (h : Nat) :
    (s.adjCounts p g).fence? h = s.fence? h := rfl

@[simp] theorem State.counts_adjCounts (s : State) (p : Nat) (g : PartCounts → PartCounts) :
    ((s.adjCounts p g).part p).counts = g (s.part p).counts := by
  rw [State.adjCounts, State.part_adjPart_same]

/-- The record of a fence that takes the value `v`. -/
def Fence.setTo (ftc v : Nat) (f : Fence) : Fence := { f with value := v, last := ftc % 2 ^ 63, changed := true }

/-- The record of a fence that is marked FAILED. -/
def Fence.fail (ftc : Nat) (f : Fence) : Fence := { f with failed := true, last := ftc % 2 ^ 63, changed := true }

theorem State.fence?_setFence (s : State) (h v m : Nat) : (s.setFence h v).fence? m = (s.adjFence h (Fence.setTo s.ftc v)).fence? m := by
  simp only [State.setFence]
  split
  · exact State.fence?_fenceEvent ..
  · rfl

theorem State.fence?_markRecord (hf : s.fence? h = some f) (hok : f.failed = false) (m : Nat) :
    (s.markRecord h).fence? m = (s.adjFence h (Fence.fail s.ftc)).fence? m := by
  simp only [State.markRecord, hf, hok, Bool.false_eq_true, if_false]
  split
  · exact State.fence?_fenceEvent ..
  · rfl

theorem State.applyMax_raises (hf : s.fence? (s.homeOf k) = some f) (hok : f.failed = false) (hv : f.value < v) :
    s.applyMax p k v = s.setFence (s.homeOf k) v := by
  simp only [State.applyMax, hf, hok, Bool.false_eq_true, if_false, hv, if_true]

theorem State.applyMax_low (hf : s.fence? (s.homeOf k) = some f) (hok : f.failed = false) (hv : v ≤ f.value) : s.applyMax p k v =
    (s.adjFence (s.homeOf k) fun f => { f with low := satInc 32 f.low }).countLow p := by
  simp only [State.applyMax, hf, hok, Bool.false_eq_true, if_false, Nat.not_lt.2 hv]

theorem State.applyMax_failed (hf : s.fence? (s.homeOf k) = some f) (hfail : f.failed = true) : s.applyMax p k v = s := by
  simp only [State.applyMax, hf, hfail, if_true]

theorem State.applyInc_adds (hf : s.fence? (s.homeOf k) = some f) (hok : f.failed = false) (hsum : f.value + v < 2 ^ 64) (hv : 0 < v) :
    s.applyInc p k v = (.done, s.setFence (s.homeOf k) (f.value + v)) := by
  have hfits : ¬ Config.two64 ≤ f.value + v := Nat.not_le.2 hsum
  simp only [State.applyInc, hf, hok, Bool.false_eq_true, if_false, hfits, Nat.ne_of_gt hv]

theorem State.applyInc_zero (hf : s.fence? (s.homeOf k) = some f) (hok : f.failed = false) (hvalue : f.value < 2 ^ 64) :
    s.applyInc p k 0 = (.done, s) := by
  have hfits : ¬ Config.two64 ≤ f.value + 0 := Nat.not_le.2 hvalue
  simp only [State.applyInc, hf, hok, Bool.false_eq_true, if_false, hfits, if_true]

theorem State.applyInc_saturates (hf : s.fence? (s.homeOf k) = some f) (hok : f.failed = false) (hsum : 2 ^ 64 ≤ f.value + v) :
    s.applyInc p k v = (.fenceSaturated, (s.adjFence (s.homeOf k) fun f => { f with sat := satInc 32 f.sat }).adjCounts p fun c =>
      { c with fenceSat := satInc 32 c.fenceSat }) := by
  have hleaves : Config.two64 ≤ f.value + v := hsum
  simp only [State.applyInc, hf, hok, Bool.false_eq_true, if_false, hleaves, if_true]

theorem State.applyInc_failed (hf : s.fence? (s.homeOf k) = some f) (hfail : f.failed = true) :
    s.applyInc p k v = (.fenceFailed, s) := by
  simp only [State.applyInc, hf, hfail, if_true]

theorem State.applyFail_failed (hf : s.fence? (s.homeOf k) = some f) (hfail : f.failed = true) : s.applyFail k = s := by
  simp only [State.applyFail, State.markRecord, hf, hfail, if_true]

/-- A host signal to a FAILED fence is dropped (06 R191). -/
theorem State.hostSignal_failed {n : Nat} (hf : s.fence? (s.homeOf (pkey p n)) = some f) (hfail : f.failed = true)
    (u : Option Nat) : s.hostSignal p n u = s.countDrop p := by
  have hview : (s.fenceView (pkey p n)).2 = true := by simp only [State.fenceView, hf, hfail]
  exact if_pos (by rw [hview, Bool.or_true])

/-- No signal changes another record than its home record. -/
theorem State.fence?_applyMax_other (hne : h ≠ s.homeOf k) : (s.applyMax p k v).fence? h = s.fence? h := by
  cases hf : s.fence? (s.homeOf k) with
  | none => simp only [State.applyMax, hf]
  | some f =>
    cases hok : f.failed with
    | true => rw [State.applyMax_failed hf hok]
    | false =>
      by_cases hv : f.value < v
      · rw [State.applyMax_raises hf hok hv, State.fence?_setFence]
        exact State.fence?_adjFence_other s _ hne
      · rw [State.applyMax_low hf hok (Nat.not_lt.1 hv), State.countLow, State.fence?_adjCounts]
        exact State.fence?_adjFence_other s _ hne

theorem State.fence?_applyInc_other (hne : h ≠ s.homeOf k) : (s.applyInc p k v).2.fence? h = s.fence? h := by
  cases hf : s.fence? (s.homeOf k) with
  | none => simp only [State.applyInc, hf]
  | some f =>
    cases hok : f.failed with
    | true => rw [State.applyInc_failed hf hok]
    | false =>
      by_cases hsum : f.value + v < 2 ^ 64
      · rcases Nat.eq_zero_or_pos v with rfl | hv
        · rw [State.applyInc_zero hf hok hsum]
        · rw [State.applyInc_adds hf hok hsum hv, State.fence?_setFence]
          exact State.fence?_adjFence_other s _ hne
      · rw [State.applyInc_saturates hf hok (Nat.not_lt.1 hsum), State.fence?_adjCounts]
        exact State.fence?_adjFence_other s _ hne

theorem State.fence?_applyFail_other (hne : h ≠ s.homeOf k) : (s.applyFail k).fence? h = s.fence? h := by
  cases hf : s.fence? (s.homeOf k) with
  | none => simp only [State.applyFail, State.markRecord, hf]
  | some f =>
    cases hok : f.failed with
    | true => rw [State.applyFail_failed hf hok]
    | false =>
      rw [State.applyFail, State.fence?_markRecord hf hok]
      exact State.fence?_adjFence_other s _ hne

theorem State.fence?_adjFence_of {g : Fence → Fence} (hf : s.fence? h = some f) : (s.adjFence h g).fence? h = some (g f) := by
  rw [State.fence?_adjFence_same, hf]
  rfl

end

/-- Settles O20: by what a signal finds, a FAILED fence or one that it raises, adds to, saturates or marks. -/
theorem fencesFollowTheirSignals : Obligations.FencesFollowTheirSignals := by
  unfold Obligations.FencesFollowTheirSignals
  intro s p k v f hf
  refine ⟨fun hfail => ⟨State.applyMax_failed hf hfail, State.applyInc_failed hf hfail, State.applyFail_failed hf hfail, ?drop⟩,
    fun hok => ⟨fun hv => ?raises, fun hv => ?low, fun hv hsum => ?adds, State.applyInc_zero hf hok, fun hsum => ?saturates, ?fail⟩,
    fun h hne => ⟨State.fence?_applyMax_other hne, State.fence?_applyInc_other hne, State.fence?_applyFail_other hne⟩⟩
  case drop =>
    rintro n u rfl
    rw [State.hostSignal_failed hf hfail, State.countDrop, State.counts_adjCounts, ← satInc_32]
    exact ⟨rfl, rfl⟩
  case raises =>
    rw [State.applyMax_raises hf hok hv, State.fence?_setFence]
    exact State.fence?_adjFence_of hf
  case low =>
    rw [State.applyMax_low hf hok hv, State.countLow, State.counts_adjCounts, State.fence?_adjCounts, ← satInc_32, ← satInc_32]
    exact ⟨State.fence?_adjFence_of hf, rfl⟩
  case adds =>
    rw [State.applyInc_adds hf hok hsum hv, State.fence?_setFence]
    exact ⟨rfl, State.fence?_adjFence_of hf⟩
  case saturates =>
    rw [State.applyInc_saturates hf hok hsum, State.counts_adjCounts, State.fence?_adjCounts, ← satInc_32, ← satInc_32]
    exact ⟨rfl, State.fence?_adjFence_of hf, rfl⟩
  case fail =>
    rw [State.applyFail, State.fence?_markRecord hf hok]
    exact State.fence?_adjFence_of hf

end Sys2Proof.Machine
end

section
/-! PROOFS. What running commands store: the bytes of a place through the pages of its object, and the resumed routine of a
WRITE_VALUE or TIMESTAMP (04 R145, R147). -/
namespace Sys2Proof.Machine

/-! ### Places and little-endian bytes -/

@[simp] theorem Loc.plus_zero (l : Loc) : l.plus 0 = l := by cases l <;> rfl

theorem Loc.plus_plus (l : Loc) (m n : Nat) : (l.plus m).plus n = l.plus (m + n) := by
  cases l with
  | host a => exact congrArg Loc.host (Nat.add_assoc ..)
  | dev o a => exact congrArg (Loc.dev o) (Nat.add_assoc ..)

@[simp] theorem length_leBytes (n v : Nat) : (leBytes n v).length = n := by
  induction n generalizing v with
  | zero => rfl
  | succ n ih => exact congrArg (· + 1) (ih _)

/-- Byte `j` of a number in little-endian order. -/
theorem getElem_leBytes {n v j : Nat} (h : j < (leBytes n v).length) : (leBytes n v)[j] = BitVec.ofNat 8 (v / 256 ^ j) := by
  induction n generalizing v j with
  | zero => cases h
  | succ n ih =>
    cases j with
    | zero => rw [Nat.pow_zero, Nat.div_one]; rfl
    | succ j =>
      rw [Nat.pow_succ', ← Nat.div_div_eq_div_mul]
      exact ih (Nat.lt_of_succ_lt_succ h)

/-! ### Stores at a place -/

/-- The state with these stores open. -/
def State.storing (s : State) (st : List Host.Cell) : State := { s with stores := st }

/-- The state with this device memory. -/
def State.withMem (s : State) (m : List Host.Cell) : State := { s with mem := m }

section
variable {s : State} {l : Loc} {a : Nat}

theorem State.storeLoc_eq (bs : List Byte) (s : State) (l : Loc) : ∃ st, s.storeLoc l bs = s.storing st := by
  induction bs generalizing s l with
  | nil => exact ⟨s.stores, rfl⟩
  | cons b bs ih =>
    obtain ⟨st, h⟩ := ih (s.store (s.locAddr l) b) (l.plus 1)
    exact ⟨st, h⟩

/-- Which address a place has does not depend on what is stored. -/
@[simp] theorem State.locAddr_store (s : State) (a : Nat) (v : Byte) (l : Loc) : (s.store a v).locAddr l = s.locAddr l := by
  cases l <;> rfl

/-- A byte that the place does not hold reads as before. -/
theorem State.readByte_storeLoc_other {bs : List Byte} (h : ∀ i < bs.length, a ≠ s.locAddr (l.plus i)) :
    (s.storeLoc l bs).readByte a = s.readByte a := by
  induction bs generalizing s l with
  | nil => rfl
  | cons b bs ih =>
    have hfirst : s.locAddr l ≠ a := by
      have := h 0 (Nat.succ_pos _)
      rwa [Loc.plus_zero, ne_comm] at this
    refine (ih fun i hi => ?_).trans (State.readByte_store_other s b hfirst)
    rw [State.locAddr_store, Loc.plus_plus, Nat.add_comm]
    exact h (i + 1) (Nat.succ_lt_succ hi)

/-- A place whose bytes lie at different addresses reads as what was stored there. -/
theorem State.readByte_storeLoc_same {bs : List Byte}
    (hinj : ∀ i j, i < bs.length → j < bs.length → s.locAddr (l.plus i) = s.locAddr (l.plus j) → i = j) {i : Nat}
    (hi : i < bs.length) : (s.storeLoc l bs).readByte (s.locAddr (l.plus i)) = bs[i] := by
  induction bs generalizing s l i with
  | nil => cases hi
  | cons b bs ih =>
    have hshift (j : Nat) : (s.store (s.locAddr l) b).locAddr ((l.plus 1).plus j) = s.locAddr (l.plus (j + 1)) := by
      rw [State.locAddr_store, Loc.plus_plus, Nat.add_comm]
    cases i with
    | zero =>
      have hfirst : (s.storeLoc l (b :: bs)).readByte (s.locAddr (l.plus 0)) =
          (s.store (s.locAddr l) b).readByte (s.locAddr (l.plus 0)) := by
        refine State.readByte_storeLoc_other (l := l.plus 1) (bs := bs) fun j hj heq => ?_
        rw [hshift] at heq
        exact (Nat.succ_ne_zero j).symm (hinj 0 (j + 1) hi (Nat.succ_lt_succ hj) heq)
      rw [hfirst, Loc.plus_zero]
      exact State.readByte_store_same ..
    | succ i =>
      rw [← hshift i]
      refine ih (fun j k hj hk heq => ?_) (Nat.lt_of_succ_lt_succ hi)
      rw [hshift, hshift] at heq
      exact Nat.succ_inj.1 (hinj _ _ (Nat.succ_lt_succ hj) (Nat.succ_lt_succ hk) heq)

end

/-- A live command whose effect is a change outside memory with some stores open: the stores land in memory. -/
theorem State.after_stores {s u : State} {f : State → State} {st : List Host.Cell} (hs : s.live) (hf : f s = u.storing st)
    (hst : u.stores = s.stores) (hcl : u.cleared = s.cleared) (hmem : u.mem = s.mem) (hq : u.pending = s.pending) :
    ∃ m, s.after f = .next (u.withMem m) ∧ ∀ a, (u.withMem m).readByte a = (u.storing st).readByte a := by
  obtain ⟨-, hst0, hcl0⟩ := hs.1
  have hrun : s.run f = u.withMem (s.run f).mem := by
    rw [State.run_eq hs.1, hf, ← hst0, ← hst, ← hcl0, ← hcl, ← hq]
    rfl
  refine ⟨(s.run f).mem, (State.after_eq hs.2 f).trans (congrArg _ hrun), fun a => ?_⟩
  rw [← hrun, State.readByte_run hs.1 (by rw [hf]; exact hmem), hf]

theorem State.keepsRest_withMem {s t : State} {w : Nat} (h : s.keepsRest t w) (m : List Host.Cell) :
    s.keepsRest (t.withMem m) w := h

/-- What starts use holds no object and no byte of memory. -/
theorem State.locAddr_of_aroundStart {s t : State} (h : t.aroundStart = s.aroundStart) (l : Loc) : t.locAddr l = s.locAddr l := by
  have hobjs : t.aroundStart.objs = s.aroundStart.objs := congrArg State.objs h
  cases l with
  | host a => rfl
  | dev o off =>
    have hobj : t.obj? o = s.obj? o := congrArg (fun objs => Tbl.get? objs o) hobjs
    simp only [State.locAddr, hobj]

theorem State.readByte_of_aroundStart {s t : State} (h : t.aroundStart = s.aroundStart) (a : Nat) :
    t.readByte a = s.readByte a := by
  obtain ⟨hmem, hst, hcl, -⟩ := State.frame_of_aroundStart h
  simp only [State.readByte, hmem, hst, hcl]

/-! ### A resumed write -/

section
variable {s : State} {w : Nat} {x : Work}

/-- A command that goes on does so in a state that differs in what starts use alone. -/
theorem State.withSeqr_keeps (hx : s.work? w = some x) (hgo : s.onSeqr w = true ∨ s.turn (s.backRank x) = true) :
    ∃ u, (∀ act, s.withSeqr w act = act u) ∧ (u.work? w).isSome = true ∧ s.keepsRest u w ∧ u.aroundStart = s.aroundStart := by
  obtain ⟨fr, ac, rn, g, -, hseqr⟩ := State.withSeqr_goes hx hgo
  refine ⟨_, hseqr, ?_, State.keepsRest_adjWork (t := { s with free := fr, accepted := ac, ran := rn }) (s.keepsRest_refl w) g, rfl⟩
  exact (congrArg Option.isSome ((Tbl.get?_adjust_same s.works w g).trans (congrArg _ hx))).trans rfl

/-- The routine of a command whose write is due goes on with it. -/
theorem State.resume_write {n v since : Nat} (hstop : s.stop.stopped = false) (hx : s.work? w = some x)
    (hph : x.phase = .io (.write n v) since) (hsince : since ≤ s.tick) (hadmin : isAdmin (opcodeOf x.cmd) = false) (io : Io) :
    s.resume w io none = s.withSeqr w fun s => s.ioOver w x (.write n v) io := by
  have hdue : ¬ (s.tick < since ∨ (IoKind.write n v = .groups ∧ x.mmNone io = true) ∨
      (isAdmin (opcodeOf x.cmd) = true ∧ s.adminWaits x.part = true)) := by
    rw [hadmin]
    simp [hsince]
  simp only [State.resume, hx, hstop, Bool.false_eq_true, if_false, hph]
  exact if_neg hdue

theorem State.ioOver_write {o off : Nat} (hlocs : x.locs = [.dev o off]) (n v : Nat) (host : List Word) :
    s.ioOver w x (.write n v) (.ok host) = (s.storeLoc (.dev o off) (leBytes n v)).decideEnd w Res.ok := by
  simp only [State.ioOver, State.ioDone, hlocs]
  rfl

end

/-- Settles O24: the write's stores land, and only its command and the sequencers change beside them. -/
theorem writeValueStoresItsBytes : Obligations.WriteValueStoresItsBytes := by
  unfold Obligations.WriteValueStoresItsBytes
  intro s w n v o off since x hs hstop hx hph hlocs hsince hadmin hgo
  obtain ⟨u, hseqr, hw, hrest, haround⟩ := State.withSeqr_keeps hx hgo
  obtain ⟨st, hst⟩ := State.storeLoc_eq (leBytes n v) u (.dev o off)
  have hf : s.resume w (.ok []) none = (u.decideEnd w Res.ok).storing st := by
    rw [State.resume_write hstop hx hph hsince hadmin, hseqr, State.ioOver_write hlocs, hst]
    rfl
  obtain ⟨hmem, hstores, hcleared, hpending⟩ := State.frame_of_aroundStart haround
  obtain ⟨m, hexec, hland⟩ := State.after_stores (f := fun s => s.resume w (.ok []) none) (u := u.decideEnd w Res.ok) hs hf
    hstores hcleared hmem hpending
  have hread (a : Nat) : ((u.decideEnd w Res.ok).withMem m).readByte a = (u.storeLoc (.dev o off) (leBytes n v)).readByte a := by
    rw [hland, hst]
    rfl
  have hplace (i : Nat) : s.locAddr (.dev o (off + i)) = u.locAddr (Loc.plus (.dev o off) i) :=
    (State.locAddr_of_aroundStart haround _).symm
  have htick : u.aroundStart.tick = s.aroundStart.tick := congrArg State.tick haround
  refine ⟨_, hexec, ?phase, State.keepsRest_withMem (State.keepsRest_adjWork hrest _) m, ?around, fun a ha => ?other,
    fun hinj j hj => ?same⟩
  case phase =>
    refine (State.phase_of_decideEnd hw).trans ?_
    exact congrArg (fun i => some (Phase.decided Res.ok (i + 1))) htick
  case around => exact congrArg (fun r => { r with mem := m }) haround
  case other =>
    rw [hread, ← State.readByte_of_aroundStart haround]
    refine State.readByte_storeLoc_other fun i hi => ?_
    rw [length_leBytes] at hi
    rw [← hplace]
    exact ha i hi
  case same =>
    have hj' : j < (leBytes n v).length := by rwa [length_leBytes]
    rw [hread, hplace, ← getElem_leBytes hj']
    refine State.readByte_storeLoc_same (fun i k hi hk heq => ?_) hj'
    rw [length_leBytes] at hi hk
    rw [← hplace, ← hplace] at heq
    exact hinj i k hi hk heq

end Sys2Proof.Machine
end

section
/-! PROOFS. How the commands of engines and children begin that pass every check (04 R120-R146; 05 R166, R172; 09 R275, R288): a
new launch, placed instances, the reads of a GATHER and a group table, a predicate, and the items of a FEED. -/
namespace Sys2Proof.Machine

/-! ### A begin and what it leaves unchanged -/

section
variable {s s1 t : State} {at_ : Site} {op w : Nat} {e : Cmd} {x : Work} {d : DescSt} {c : Instr}

/-- A begin that changes only what starts use is the answer of its command. -/
theorem State.begins_around (hs : s.live) (h : s.accepts at_ op e w s1 x d) (hp : s1.passes x)
    (hc : exec c s = s.after fun s => s.startAt at_ op e) (hbegin : s1.begin_ w x d = t) (haround : t.aroundStart = s1.aroundStart) :
    exec c s = .next t ∧ t.aroundStart = s.aroundStart := by
  obtain ⟨hmem, hst, hcl, hq⟩ := State.frame_of_aroundStart haround
  exact ⟨State.after_begins hs h hp hc hbegin hmem hst hcl hq, haround.trans (State.accepts_around h)⟩

/-- One that changes more is so too, as long as it opens no store and leaves memory and the queue alone. -/
theorem State.begins_changing {r : State} (hs : s.live) (h : s.accepts at_ op e w s1 x d) (hp : s1.passes x)
    (hc : exec c s = s.after fun s => s.startAt at_ op e) (hbegin : s1.begin_ w x d = t) (haround : t.aroundStart = r)
    (hr : r.mem = s1.mem ∧ r.stores = s1.stores ∧ r.cleared = s1.cleared ∧ r.pending = s1.pending) : exec c s = .next t := by
  subst haround
  obtain ⟨hmem, hst, hcl, hq⟩ := hr
  exact State.after_begins hs h hp hc hbegin hmem hst hcl hq

theorem State.work?_adjWork_of {f : Work → Work} (hx : s.work? w = some x) : (s.adjWork w f).work? w = some (f x) := by
  rw [State.work?_adjWork_same, hx]
  rfl

theorem State.work?_hold_of (hx : s.work? w = some x) (ls : List Loc) :
    (s.hold w ls).work? w = some { x with locs := ls, pins := x.pins ++ locNums ls } := by
  rw [State.work?_hold, hx]
  rfl

/-- The state with these messages and this memory port: what reads change. -/
def State.reading (s : State) (o : List Out) (a : Arb) : State := { s with out := o, arb := a }

@[simp] theorem State.work?_reading (s : State) (o : List Out) (a : Arb) (w : Nat) : (s.reading o a).work? w = s.work? w := rfl
@[simp] theorem State.aroundStart_reading (s : State) (o : List Out) (a : Arb) : (s.reading o a).aroundStart = s.aroundStart := rfl

theorem State.keepsWorks_reading (h : s.keepsWorks t w) (o : List Out) (a : Arb) : s.keepsWorks (t.reading o a) w := h

theorem State.keepsWorks_hold (h : s.keepsWorks t w) (ls : List Loc) : s.keepsWorks (t.hold w ls) w := by
  obtain ⟨tr, hh⟩ := t.hold_eq w ls
  rw [hh]
  exact State.keepsWorks_adjWork (t := { t with transl := tr }) h fun x => { x with locs := ls, pins := x.pins ++ locNums ls }

@[simp] theorem State.aroundStart_adjWork (s : State) (w : Nat) (f : Work → Work) : (s.adjWork w f).aroundStart = s.aroundStart := rfl

@[simp] theorem State.aroundStart_phase (s : State) (w : Nat) (ph : Phase) : (s.phase w ph).aroundStart = s.aroundStart :=
  s.aroundStart_adjWork w _

@[simp] theorem State.aroundStart_pinEpoch (s : State) (w : Nat) : (s.pinEpoch w).aroundStart = s.aroundStart :=
  s.aroundStart_adjWork w _

/-- Reads go to the host or to the memory port. -/
theorem State.issueRead_eq (s : State) (ck k : Nat) (l : Loc) (n : Nat) : ∃ o a, s.issueRead ck k l n = s.reading o a := by
  cases l with
  | host a => exact ⟨_, s.arb, rfl⟩
  | dev o f => exact ⟨s.out, _, rfl⟩

theorem State.issueRead_adjWork (s : State) (w ck k n : Nat) (l : Loc) (f : Work → Work) :
    (s.adjWork w f).issueRead ck k l n = (s.issueRead ck k l n).adjWork w f := by
  cases l with
  | host a => rfl
  | dev o a => rfl

end

/-! ### New launches (05 R166, R172) -/

section
variable {s : State} {w u : Nat} {x : Work} {g : Graph}

/-- The state with one launch more. -/
def State.launched (s : State) (l : Launch) : State :=
  { s with launches := Tbl.set s.launches s.nextLaunch l, nextLaunch := s.nextLaunch + 1 }

theorem State.launch?_launched (s : State) (l : Launch) : (s.launched l).launch? s.nextLaunch = some l :=
  Tbl.get?_set_same s.launches _ l

@[simp] theorem State.aroundStart_launched (s : State) (l : Launch) : (s.launched l).aroundStart = s.aroundStart := rfl

theorem State.keepsRest_launched (s : State) (l : Launch) (w : Nat) : s.keepsRest (s.launched l) w :=
  ⟨⟨rfl, fun _ _ => rfl, fun _ hm => Tbl.get?_set_other s.launches l hm.symm⟩, rfl, rfl⟩

/-- A new launch pins the current generation of its graph, and every node is outside. -/
theorem State.newLaunch_eq (hg : s.graph? u = some g) (owner : Owner) (p c cls ringNo seq depth epoch root : Nat) (ps : List Patch) :
    ∃ l, s.newLaunch owner p c u cls ringNo seq depth epoch root ps = (s.nextLaunch, s.launched l) ∧ l.owner = owner ∧ l.graph = u ∧
      l.gen = g.cur ∧ l.window = g.window ∧ l.depth = depth ∧ l.epoch = epoch ∧
      l.nodes = List.replicate g.npred.length .outside := by
  simp only [State.newLaunch, hg]
  exact ⟨_, rfl, rfl, rfl, rfl, rfl, rfl, rfl, rfl⟩

/-- A LAUNCH begins with a new launch of its graph, under the current table epoch. -/
theorem State.beginLaunch_eq (hu : s.graphOf x.part (fld x.cmd 8 0 13) = some u) (hg : s.graph? u = some g) :
    ∃ l, s.beginLaunch w x = ((s.launched l).pinEpoch w).phase w (.launching s.nextLaunch) ∧ l.owner = .work w ∧ l.graph = u ∧
      l.gen = g.cur ∧ l.epoch = s.epoch ∧ l.window = g.window ∧ l.nodes = List.replicate g.npred.length .outside := by
  obtain ⟨l, hl, howner, hgraph, hgen, hwindow, -, hepoch, hnodes⟩ := State.newLaunch_eq hg (.work w) x.part x.ctx x.cls x.ringNo x.seq
    0 s.epoch w (patchesOf x.cmd)
  refine ⟨l, ?_, howner, hgraph, hgen, hepoch, hwindow, hnodes⟩
  simp only [State.beginLaunch, hu, hl]

/-- A child is launched where its graph is READY, its depth is in bounds and its slots are free. -/
theorem State.tryChild_launches {n : Nat} {counted : Bool} (hx : s.work? w = some x) (hgo : s.callerStopped x = false)
    (hu : s.graphOf x.part n = some u) (hg : s.graph? u = some g) (hready : g.state = .ready) (hdepth : s.childDepth x ≤ Config.nesting)
    (hslots : s.slotsFree x.part (1 + g.window) = true) : ∃ l, s.tryChild w n counted = (s.launched l).phase w (.child s.nextLaunch) ∧
      l.owner = .work w ∧ l.graph = u ∧ l.gen = g.cur ∧ l.depth = s.childDepth x ∧
      l.nodes = List.replicate g.npred.length .outside := by
  obtain ⟨l, hl, howner, hgraph, hgen, -, hd, -, hnodes⟩ := State.newLaunch_eq hg (.work w) x.part x.ctx x.cls x.ringNo x.seq
    (s.childDepth x) (s.epochOf x) w []
  refine ⟨l, ?_, howner, hgraph, hgen, hd, hnodes⟩
  simp only [State.tryChild, hx, hgo, hu, hg, hready, hslots, hl, Nat.not_lt.2 hdepth, Bool.false_eq_true, ne_eq, not_true_eq_false,
    if_false, if_true]

end

/-! ### Placed instances: DISPATCH, COPY and GROUPED_MM (04 R115, R120, R121, R146) -/

@[simp] theorem State.length_makeInsts (s : State) (eps : List Nat) (items : Nat → Nat) :
    (s.makeInsts eps items).length = eps.length := by
  rw [State.makeInsts, List.length_map, List.length_range]

section
variable {s : State} {w : Nat} {x : Work}

/-- A DISPATCH with its places held and its instances placed. -/
def State.dispatchPlaced (s : State) (w : Nat) (x : Work) : State :=
  (s.hold w [s.kernLoc x, s.mrefLoc x.ck x.cmd 56]).adjWork w fun x =>
    { x with insts := s.makeInsts (s.placement x.cmd) fun _ => fld x.cmd 72 0 32 }

theorem State.work?_dispatchPlaced (hx : s.work? w = some x) : ∃ y, (s.dispatchPlaced w x).work? w = some y ∧ y.cmd = x.cmd ∧
    y.locs = [s.kernLoc x, s.mrefLoc x.ck x.cmd 56] ∧ y.insts = s.makeInsts (s.placement x.cmd) fun _ => fld x.cmd 72 0 32 :=
  ⟨_, State.work?_adjWork_of (State.work?_hold_of hx _), rfl, rfl, rfl⟩

theorem State.dispatchPlaced_keeps (s : State) (w : Nat) (x : Work) : s.keepsRest (s.dispatchPlaced w x) w ∧
    (s.dispatchPlaced w x).aroundStart = s.aroundStart ∧ (s.dispatchPlaced w x).tick = s.tick :=
  ⟨State.keepsRest_adjWork (State.keepsRest_hold (s.keepsRest_refl w) _) _, s.aroundStart_hold w _, s.tick_hold w _⟩

/-- The descriptor's engine is that of the command: the instances become eligible. -/
theorem State.descriptorSeen_runs (hx : s.work? w = some x) (hper : persistOf x.cmd = false) :
    s.descriptorSeen w (tgtEngine x.cmd) = s.adjWork w fun y =>
      { y with phase := .running, segUs := s.segUs (fld x.cmd 80 0 16), itemNs := fld y.cmd 76 0 32,
               insts := y.insts.map fun (i : Inst) => { i with since := s.tick } } := by
  simp only [State.descriptorSeen, hx, hper, ne_eq, not_true_eq_false, Bool.false_eq_true, if_false]

/-- Or the command, a PERSIST, is done (04 R125). -/
theorem State.descriptorSeen_persist (hx : s.work? w = some x) (hper : persistOf x.cmd = true) :
    s.descriptorSeen w (tgtEngine x.cmd) = s.decideEnd w Res.ok := by
  simp only [State.descriptorSeen, hx, hper, ne_eq, not_true_eq_false, if_true, if_false]

theorem State.beginDispatch_reads (hper : persistOf x.cmd = false) :
    s.beginDispatch w x .notNeeded = (s.dispatchPlaced w x).phase w .descriptor := by
  simp only [State.beginDispatch, hper, Bool.false_eq_true, if_false]
  rfl

theorem State.beginDispatch_here (s : State) (w : Nat) (x : Work) (n : Nat) :
    s.beginDispatch w x (.here n) = (s.dispatchPlaced w x).descriptorSeen w n := rfl

theorem State.beginDispatch_persist (hper : persistOf x.cmd = true) : s.beginDispatch w x .notNeeded =
    (s.dispatchPlaced w x).descriptorSeen w (s.readByte (s.locAddr (s.kernLoc x))).toNat := by
  simp only [State.beginDispatch, hper, if_true]
  rfl

/-- A PERSIST whose descriptor names its engine is decided at its start, wherever its descriptor is seen. -/
theorem State.beginDispatch_installs {d : DescSt} (hx : s.work? w = some x) (hper : persistOf x.cmd = true)
    (hd : d = .here (tgtEngine x.cmd) ∨ d = .notNeeded ∧ (s.readByte (s.locAddr (s.kernLoc x))).toNat = tgtEngine x.cmd) :
    s.beginDispatch w x d = (s.dispatchPlaced w x).decideEnd w Res.ok := by
  obtain ⟨y, hy, hcmd, -, -⟩ := State.work?_dispatchPlaced hx
  rw [← hcmd] at hd hper
  rcases hd with rfl | ⟨rfl, hseen⟩
  · rw [State.beginDispatch_here, State.descriptorSeen_persist hy hper]
  · rw [State.beginDispatch_persist (hcmd ▸ hper), hseen, State.descriptorSeen_persist hy hper]

/-- A GROUPED_MM with its places held and its instances placed. -/
def State.groupsPlaced (s : State) (w : Nat) (x : Work) : State :=
  (s.hold w [s.mrefLoc x.ck x.cmd 40, s.mrefLoc x.ck x.cmd 56, s.mrefLoc x.ck x.cmd 72, s.mrefLoc x.ck x.cmd 88]).adjWork w fun y =>
    { y with insts := s.makeInsts (s.placement x.cmd) fun _ => 1 }

theorem State.work?_groupsPlaced (hx : s.work? w = some x) : ∃ y, (s.groupsPlaced w x).work? w = some y ∧
    y.insts = s.makeInsts (s.placement x.cmd) fun _ => 1 :=
  ⟨_, State.work?_adjWork_of (State.work?_hold_of hx _), rfl⟩

theorem State.groupsPlaced_keeps (s : State) (w : Nat) (x : Work) :
    s.keepsRest (s.groupsPlaced w x) w ∧ (s.groupsPlaced w x).aroundStart = s.aroundStart :=
  ⟨State.keepsRest_adjWork (State.keepsRest_hold (s.keepsRest_refl w) _) _, s.aroundStart_hold w _⟩

/-- Its group table is read. -/
def State.groupReads (s : State) (x : Work) : State := s.issueRead x.ck 6 (s.mrefLoc x.ck x.cmd 40) (32 * mmExp x.cmd)

/-- The table is read as if the command held no place. -/
theorem State.beginGroupedMm_eq (s : State) (w : Nat) (x : Work) : s.beginGroupedMm w x =
    ((s.groupsPlaced w x).reading (s.groupReads x).out (s.groupReads x).arb).phase w (.io .groups s.tick) := by
  simp only [State.beginGroupedMm, State.issueRead_adjWork, State.issueRead_hold]
  rfl

end

/-! ### The reads of a GATHER, the routing of a ROUTE (04 R136; 09 R275) -/

section
variable {s : State} {w : Nat} {x : Work}

/-- A GATHER reads its indices, and its offsets where it has bags. -/
def State.gatherReads (s : State) (x : Work) : State :=
  let r := s.issueRead x.ck 6 (s.mrefLoc x.ck x.cmd 8) (8 * gaIdx x.cmd)
  if gaMode x.cmd = 0 then r else r.issueRead x.ck 6 (s.mrefLoc x.ck x.cmd 40) (4 * (gaBags x.cmd + 1))

theorem State.gatherReads_eq (s : State) (x : Work) : ∃ o a, s.gatherReads x = s.reading o a := by
  obtain ⟨o, a, h⟩ := s.issueRead_eq x.ck 6 (s.mrefLoc x.ck x.cmd 8) (8 * gaIdx x.cmd)
  simp only [State.gatherReads, h]
  split
  · exact ⟨o, a, rfl⟩
  · obtain ⟨o', a', h'⟩ := State.issueRead_eq (s.reading o a) x.ck 6 (s.mrefLoc x.ck x.cmd 40) (4 * (gaBags x.cmd + 1))
    exact ⟨o', a', h'⟩

/-- The marshal has taken a GATHER. -/
def State.gathering (s : State) (w : Nat) (g : Gather) : State :=
  s.adjMarshal fun m => { m with gathers := Tbl.set m.gathers w g, traffic := true }

theorem State.beginGather_eq (s : State) (w : Nat) (x : Work) : ∃ g ls, g.pos = List.replicate (gaIdx x.cmd) .unresolved ∧
    s.beginGather w x = ((((s.gatherReads x).gathering w g).hold w ls).pinEpoch w).phase w (.io .indices s.tick) :=
  ⟨_, _, rfl, rfl⟩

/-- Pleach has noted the routing of a ROUTE. -/
def State.routing (s : State) (w : Nat) (r : Routing) : State :=
  s.adjPleach fun q => { q with routings := Tbl.set q.routings w r }

theorem State.beginRoute_eq {l : Layer} (hl : s.layer? (roLayer x.part x.cmd) = some l) : ∃ r ls, r.bias = l.bias ∧ r.gen = l.gen ∧
    s.beginRoute w x = ((s.routing w r).hold w ls).phase w .unitWait := by
  simp only [State.beginRoute, hl]
  exact ⟨_, _, rfl, rfl, rfl⟩

end

/-- Settles O15: each command by the state that its begin reaches. -/
theorem engineCommandsBegin : Obligations.EngineCommandsBegin := by
  unfold Obligations.EngineCommandsBegin
  intro s at_ e w s1 x d op hs h hp
  obtain ⟨hx, hcmd⟩ := State.accepts_work h
  have hsome : (s1.work? w).isSome = true := by rw [hx]; rfl
  have hsame := State.accepts_around h
  refine ⟨fun hop u g hu hg => ?launch, fun hop hper hd => ?reads, fun hop hper hd => ?runs, fun hop hper hd => ?persist,
    fun hop => ?copy, fun hop => ?gather, fun hop l hl => ?route, fun hop => ?grouped⟩
  all_goals subst hop
  case launch =>
    have hbegin : s1.begin_ w x d = s1.beginLaunch w x := by simp only [State.begin_, hcmd]
    obtain ⟨l, hl, howner, hgraph, hgen, hepoch, hwindow, hnodes⟩ := State.beginLaunch_eq (w := w) hu hg
    obtain ⟨hexec, haround⟩ := State.begins_around (c := .launch at_ e) hs h hp rfl (hbegin.trans hl) (by simp)
    have hsome' : (((s1.launched l).pinEpoch w).work? w).isSome = true := by rw [State.work?_pinEpoch, Option.isSome_map]; exact hsome
    exact ⟨_, hexec, State.phase_of_phase hsome', l, s1.launch?_launched l, howner, hgraph, hgen, hepoch, hwindow, hnodes,
      State.keepsRest_adjWork (State.keepsRest_adjWork (s1.keepsRest_launched l w) _) _, haround⟩
  case reads =>
    subst hd
    have hbegin : s1.begin_ w x .notNeeded = s1.beginDispatch w x .notNeeded := by simp only [State.begin_, hcmd]
    obtain ⟨y, hy, -, hlocs, hinsts⟩ := State.work?_dispatchPlaced hx
    obtain ⟨hrest, hplaced, -⟩ := s1.dispatchPlaced_keeps w x
    obtain ⟨hexec, haround⟩ := State.begins_around (c := .dispatch at_ e) hs h hp rfl (hbegin.trans (State.beginDispatch_reads hper))
      ((State.aroundStart_adjWork ..).trans hplaced)
    exact ⟨_, hexec, _, State.work?_adjWork_of hy, rfl, hlocs, hinsts, State.keepsRest_adjWork hrest _, haround⟩
  case runs =>
    subst hd
    have hbegin : s1.begin_ w x (.here (tgtEngine x.cmd)) = s1.beginDispatch w x (.here (tgtEngine x.cmd)) := by
      simp only [State.begin_, hcmd]
    obtain ⟨y, hy, hycmd, hlocs, hinsts⟩ := State.work?_dispatchPlaced hx
    obtain ⟨hrest, hplaced, -⟩ := s1.dispatchPlaced_keeps w x
    have hseen := State.descriptorSeen_runs hy (hycmd ▸ hper)
    rw [hycmd] at hseen
    obtain ⟨hexec, haround⟩ := State.begins_around (c := .dispatch at_ e) hs h hp rfl (hbegin.trans hseen)
      ((State.aroundStart_adjWork ..).trans hplaced)
    refine ⟨_, hexec, _, State.work?_adjWork_of hy, rfl, hlocs, ?_, State.keepsRest_adjWork hrest _, haround⟩
    rw [List.length_map, hinsts, State.length_makeInsts]
  case persist =>
    have hbegin : s1.begin_ w x d = s1.beginDispatch w x d := by simp only [State.begin_, hcmd]
    obtain ⟨y, hy, -⟩ := State.work?_dispatchPlaced hx
    obtain ⟨hrest, hplaced, htick⟩ := s1.dispatchPlaced_keeps w x
    obtain ⟨hexec, haround⟩ := State.begins_around (c := .dispatch at_ e) hs h hp rfl
      (hbegin.trans (State.beginDispatch_installs hx hper hd))
      ((State.aroundStart_adjWork ..).trans hplaced)
    refine ⟨_, hexec, ?_, State.keepsRest_adjWork hrest _, haround⟩
    rw [← htick]
    exact State.phase_of_decideEnd (by rw [hy]; rfl)
  case copy =>
    have hbegin : s1.begin_ w x d = s1.beginCopy w x := by simp only [State.begin_, hcmd]
    obtain ⟨hexec, haround⟩ := State.begins_around (c := .copy at_ e) hs h hp rfl hbegin (State.aroundStart_hold ..)
    refine ⟨_, hexec, _, State.work?_adjWork_of (State.work?_hold_of hx _), rfl, rfl, ?_,
      State.keepsRest_adjWork (State.keepsRest_hold (s1.keepsRest_refl w) _) _, haround⟩
    rw [State.length_makeInsts, List.length_map, List.length_range]
    rfl
  case gather =>
    have hbegin : s1.begin_ w x d = s1.beginGather w x := by simp only [State.begin_, hcmd]
    obtain ⟨g, ls, hpos, hg⟩ := s1.beginGather_eq w x
    obtain ⟨o, a, hr⟩ := s1.gatherReads_eq x
    rw [hr] at hg
    have haround : (((((s1.reading o a).gathering w g).hold w ls).pinEpoch w).phase w (.io .indices s1.tick)).aroundStart =
        s1.aroundStart.gathering w g := by
      rw [State.aroundStart_phase, State.aroundStart_pinEpoch, State.aroundStart_hold]
      rfl
    obtain ⟨-, hout, harb⟩ := State.keepsRest_hold (((s1.reading o a).gathering w g).keepsRest_refl w) ls
    have hworks : s1.keepsWorks (((s1.reading o a).gathering w g).hold w ls) w :=
      State.keepsWorks_hold (t := (s1.reading o a).gathering w g) (s1.keepsRest_refl w).1 ls
    have hpinned : (((((s1.reading o a).gathering w g).hold w ls).pinEpoch w).work? w).isSome = true := by
      rw [State.work?_pinEpoch, Option.isSome_map]
      exact State.isSome_work?_hold (s := (s1.reading o a).gathering w g) hx ls
    refine ⟨_, State.begins_changing (c := .gather at_ e) hs h hp rfl (hbegin.trans hg) haround ⟨rfl, rfl, rfl, rfl⟩,
      State.phase_of_phase hpinned, g, ?_, hpos, ⟨hout.trans (congrArg State.out hr).symm, harb.trans (congrArg State.arb hr).symm⟩,
      State.keepsWorks_adjWork (State.keepsWorks_adjWork hworks _) _, haround.trans (congrArg (State.gathering · w g) hsame)⟩
    exact (congrArg (fun t : State => t.gather? w) haround).trans (Tbl.get?_set_same ..)
  case route =>
    have hbegin : s1.begin_ w x d = s1.beginRoute w x := by simp only [State.begin_, hcmd]
    obtain ⟨r, ls, hbias, hgen, hr⟩ := State.beginRoute_eq (w := w) hl
    have haround : (((s1.routing w r).hold w ls).phase w .unitWait).aroundStart = s1.aroundStart.routing w r := by
      rw [State.aroundStart_phase, State.aroundStart_hold]
      rfl
    refine ⟨_, State.begins_changing (c := .route at_ e) hs h hp rfl (hbegin.trans hr) haround ⟨rfl, rfl, rfl, rfl⟩,
      State.phase_of_phase (State.isSome_work?_hold (s := s1.routing w r) hx ls), r, ?_, hbias, hgen,
      State.keepsRest_adjWork (State.keepsRest_hold (t := s1.routing w r) (s1.keepsRest_refl w) ls) _,
      haround.trans (congrArg (State.routing · w r) hsame)⟩
    exact (congrArg (fun t : State => Tbl.get? t.pleach.routings w) haround).trans (Tbl.get?_set_same ..)
  case grouped =>
    have hbegin : s1.begin_ w x d = s1.beginGroupedMm w x := by simp only [State.begin_, hcmd]
    obtain ⟨⟨hworks, -, -⟩, hplaced⟩ := s1.groupsPlaced_keeps w x
    obtain ⟨hexec, haround⟩ := State.begins_around (c := .groupedMm at_ e) hs h hp rfl (hbegin.trans (s1.beginGroupedMm_eq w x))
      ((State.aroundStart_adjWork ..).trans ((State.aroundStart_reading ..).trans hplaced))
    obtain ⟨y, hy, hinsts⟩ := State.work?_groupsPlaced hx
    exact ⟨_, hexec, _, State.work?_adjWork_of ((State.work?_reading ..).trans hy), rfl, hinsts, ⟨rfl, rfl⟩,
      State.keepsWorks_adjWork (State.keepsWorks_reading hworks _ _) _, haround⟩

end Sys2Proof.Machine
end

section
/-! PROOFS. The commands that wait for a predicate, a child or a task (04 R112, R127, R133-R135; 05 R172): COND, LOOP, CALL_GRAPH
and FEED. -/
namespace Sys2Proof.Machine

/-! ### Predicates and children -/

section
variable {s : State} {w : Nat} {x : Work}

theorem Work.epochPin_pinEpoch_ring {p r : Nat} (hsite : x.site = .ring p r) (epoch : Nat) :
    (x.pinEpoch epoch).epochPin = some epoch := by
  simp only [Work.pinEpoch, hsite]

theorem Work.epochPin_pinEpoch_node {l i : Nat} (hsite : x.site = .node l i) (epoch : Nat) :
    (x.pinEpoch epoch).epochPin = x.epochPin := by
  simp only [Work.pinEpoch, hsite]

@[simp] theorem State.epoch_hold (s : State) (w : Nat) (ls : List Loc) : (s.hold w ls).epoch = s.epoch := by
  obtain ⟨tr, h⟩ := s.hold_eq w ls
  rw [h]

/-- The predicate of a COND or LOOP falls due in the tick after its start; on a ring it pins the table epoch. -/
theorem State.beginPred_starts (hx : s.work? w = some x) : ∃ y, (s.beginPred w x).work? w = some y ∧ y.phase = .predDue (s.tick + 1) ∧
    (∀ p r, x.site = .ring p r → y.epochPin = some s.epoch) ∧ (∀ l i, x.site = .node l i → y.epochPin = x.epochPin) ∧
    s.keepsRest (s.beginPred w x) w ∧ (s.beginPred w x).aroundStart = s.aroundStart := by
  simp only [State.beginPred, State.pinEpoch, State.epoch_hold]
  generalize (if predOp x.cmd < 4 ∧ predFence x.cmd = false then [s.mrefLoc x.ck x.cmd 8] else []) = ls
  refine ⟨_, State.work?_adjWork_of (State.work?_adjWork_of (State.work?_hold_of hx ls)), rfl, fun p r hsite => ?_, fun l i hsite => ?_,
    State.keepsRest_adjWork (State.keepsRest_adjWork (State.keepsRest_hold (s.keepsRest_refl w) ls) _) _, by simp⟩
  · exact Work.epochPin_pinEpoch_ring (x := { x with locs := ls, pins := x.pins ++ locNums ls }) hsite s.epoch
  · exact Work.epochPin_pinEpoch_node (x := { x with locs := ls, pins := x.pins ++ locNums ls }) hsite s.epoch

/-! ### The writes of a FEED (04 R127) -/

/-- Writes at device places open stores, and what they do not reach reads as before. -/
theorem State.writeLocs_dev (ck : Nat) {loc : Nat → Loc} (hdev : ∀ j, (loc j).isHost = false) (item : Nat → List Byte) (js : List Nat)
    (s : State) : ∃ st, foldS js (fun s j => s.writeLoc ck (loc j) (item j)) s = s.storing st ∧
      ∀ a, (∀ j ∈ js, ∀ i < (item j).length, a ≠ s.locAddr ((loc j).plus i)) → (s.storing st).readByte a = s.readByte a := by
  induction js generalizing s with
  | nil => exact ⟨s.stores, rfl, fun _ _ => rfl⟩
  | cons j js ih =>
    have hfirst : s.writeLoc ck (loc j) (item j) = s.storeLoc (loc j) (item j) := by
      have hj := hdev j
      cases hl : loc j with
      | dev o off => rfl
      | host a => rw [hl] at hj; cases hj
    obtain ⟨st, hst⟩ := State.storeLoc_eq (item j) s (loc j)
    obtain ⟨st', hrest, hread⟩ := ih (s.storing st)
    refine ⟨st', ?_, fun a ha => ?_⟩
    · rw [foldS, List.foldl_cons, hfirst, hst]
      exact hrest
    · have hother : (s.storing st).readByte a = s.readByte a := by
        rw [← hst]
        exact State.readByte_storeLoc_other (ha j List.mem_cons_self)
      exact (hread a fun k hk i hi => ha k (List.mem_cons_of_mem j hk) i hi).trans hother

/-- Writes to the host go out in order. -/
theorem State.writeLocs_host (ck : Nat) (addr : Nat → Nat) (item : Nat → List Byte) (js : List Nat) (s : State) :
    ∃ tr, foldS js (fun s j => s.writeLoc ck (.host (addr j)) (item j)) s = { s with
      transl := tr, out := s.out ++ js.map fun j => .hostWrite (keyPart ck) (s.pasidOf ck) (addr j) (item j) } := by
  induction js generalizing s with
  | nil => exact ⟨s.transl, by rw [List.map_nil, List.append_nil]; rfl⟩
  | cons j js ih =>
    obtain ⟨tr, hfirst⟩ := s.useHost_eq ck (addr j)
    obtain ⟨tr', hrest⟩ := ih (State.send { s with transl := tr } (.hostWrite (keyPart ck) (s.pasidOf ck) (addr j) (item j)))
    refine ⟨tr', ?_⟩
    rw [foldS, List.foldl_cons, State.writeLoc, hfirst]
    refine hrest.trans ?_
    rw [State.send, List.append_assoc]
    rfl

/-- The task with the items of a FEED behind those that its queue holds. -/
def Task.fed (y : Task) (w tick : Nat) (e : Cmd) : Task :=
  { y with
    tail := (y.tail + fld e 10 0 16) % y.depth
    items := y.items ++ (List.range (fld e 10 0 16)).map fun j => { feed := w, pos := y.place j, inst := none, since := tick }
    ending := if flag e 9 0 then some w else y.ending }

/-- A FEED waits with its items in the queue. -/
def State.feeding (s : State) (w : Nat) (x : Work) : State :=
  (s.adjTask (feedTask x.part x.cmd) fun y => y.fed w s.tick x.cmd).phase w (.feeding (feedTask x.part x.cmd))

theorem State.keepsRest_feeding (s : State) (w : Nat) (x : Work) : s.keepsRest (s.feeding w x) w :=
  State.keepsRest_adjWork (t := s.adjTask _ _) (s.keepsRest_refl w) _

theorem State.task?_feeding_same {y : Task} (hy : s.task? (feedTask x.part x.cmd) = some y) :
    (s.feeding w x).task? (feedTask x.part x.cmd) = some (y.fed w s.tick x.cmd) :=
  (Tbl.get?_adjust_same s.tasks _ fun y => y.fed w s.tick x.cmd).trans (congrArg _ hy)

theorem State.task?_feeding_other {k : Nat} (hk : k ≠ feedTask x.part x.cmd) : (s.feeding w x).task? k = s.task? k :=
  Tbl.get?_adjust_other s.tasks (fun y => y.fed w s.tick x.cmd) hk

theorem State.phase_feeding (hx : (s.work? w).isSome = true) :
    ((s.feeding w x).work? w).map (fun z => z.phase) = some (.feeding (feedTask x.part x.cmd)) :=
  State.phase_of_phase (s := s.adjTask _ _) hx

theorem State.beginFeed_dev {y : Task} (hy : s.task? (feedTask x.part x.cmd) = some y) (hdev : y.queueHost = false) :
    ∃ st, s.beginFeed w x = (s.feeding w x).storing st ∧
      ∀ a, (∀ j i, j < fld x.cmd 10 0 16 → i < (feedItem x.cmd j).length → a ≠ s.locAddr ((y.itemLoc (y.place j)).plus i)) →
        (s.storing st).readByte a = s.readByte a := by
  have hplace (j : Nat) : (y.itemLoc (y.place j)).isHost = false := by
    simp only [Task.itemLoc, hdev, Bool.false_eq_true, if_false, Loc.isHost]
  obtain ⟨st, hst, hread⟩ := State.writeLocs_dev y.ctx hplace (feedItem x.cmd) (List.range (fld x.cmd 10 0 16)) s
  refine ⟨st, ?_, fun a ha => hread a fun j hj i hi => ha j i (List.mem_range.1 hj) hi⟩
  simp only [State.beginFeed, hy, hst]
  rfl

/-- The state with these cached translations and messages: what writes to the host change. -/
def State.writing (s : State) (tr : List Transl) (o : List Out) : State := { s with transl := tr, out := o }

theorem State.beginFeed_host {y : Task} (hy : s.task? (feedTask x.part x.cmd) = some y) (hhost : y.queueHost = true) :
    ∃ tr, s.beginFeed w x = (s.writing tr (s.out ++ (List.range (fld x.cmd 10 0 16)).map fun j =>
      .hostWrite (keyPart y.ctx) (s.pasidOf y.ctx) (y.queueOff + y.place j * y.itemBytes) (feedItem x.cmd j))).feeding w x := by
  obtain ⟨tr, hwrites⟩ := State.writeLocs_host y.ctx (fun j => y.queueOff + y.place j * y.itemBytes) (feedItem x.cmd)
    (List.range (fld x.cmd 10 0 16)) s
  refine ⟨tr, ?_⟩
  simp only [State.beginFeed, hy, Task.itemLoc, hhost, if_true, hwrites]
  rfl

end

/-- Settles O16: each command by the state that its begin reaches, a FEED by where its task's queue lies. -/
theorem childCommandsBegin : Obligations.ChildCommandsBegin := by
  unfold Obligations.ChildCommandsBegin
  intro s at_ e w s1 x d op hs h hp
  obtain ⟨hx, hcmd⟩ := State.accepts_work h
  have hsome : (s1.work? w).isSome = true := by rw [hx]; rfl
  have hsame := State.accepts_around h
  refine ⟨fun hop c hc => ?pred, fun hop u g hgo hu hg hready hdepth hslots => ?call, fun hop y hy => ?feed⟩
  case pred =>
    have hexec : exec c s = s.after fun s => s.startAt at_ op e := by
      rcases hop with rfl | rfl
      · rw [hc]; rfl
      · rw [hc]; rfl
    have hbegin : s1.begin_ w x d = s1.beginPred w x := by
      rcases hop with rfl | rfl
      · simp only [State.begin_, hcmd]
      · simp only [State.begin_, hcmd]
    obtain ⟨y, hy, hdue, hring, hnode, hrest, hpred⟩ := State.beginPred_starts hx
    obtain ⟨hnext, haround⟩ := State.begins_around hs h hp hexec hbegin hpred
    refine ⟨_, hnext, y, hy, hdue, ?_, hrest, haround⟩
    cases hsite : x.site with
    | ring p r => exact hring p r hsite
    | node l i => exact hnode l i hsite
  case call =>
    subst hop
    have hbegin : s1.begin_ w x d = s1.tryChild w (fld x.cmd 8 0 13) false := by simp only [State.begin_, hcmd]
    obtain ⟨l, hl, howner, hgraph, hgen, hd, hnodes⟩ := State.tryChild_launches hx hgo hu hg hready hdepth hslots
    obtain ⟨hnext, haround⟩ := State.begins_around (c := .callGraph at_ e) hs h hp rfl (hbegin.trans hl) (by simp)
    exact ⟨_, hnext, State.phase_of_phase (s := s1.launched l) hsome, l, s1.launch?_launched l, howner, hgraph, hgen, hd, hnodes,
      State.keepsRest_adjWork (s1.keepsRest_launched l w) _, haround⟩
  case feed =>
    subst hop
    have hbegin : s1.begin_ w x d = s1.beginFeed w x := by simp only [State.begin_, hcmd]
    have htask (k : Nat) : s1.aroundStart.task? k = s.aroundStart.task? k := congrArg (State.task? · k) hsame
    obtain ⟨hmem, hst, hcl, hq⟩ := State.frame_of_aroundStart hsame
    cases hhost : y.queueHost with
    | false =>
      obtain ⟨st, hfeed, hread⟩ := State.beginFeed_dev (w := w) hy hhost
      obtain ⟨m, hnext, hland⟩ := State.after_stores (f := fun s => s.startAt at_ 0x10 e) (u := s1.feeding w x) hs
        (((State.startAt_passes h hp).trans hbegin).trans hfeed) hst hcl hmem hq
      obtain ⟨hworks, hout, harb⟩ := State.keepsRest_withMem (s1.keepsRest_feeding w x) m
      refine ⟨_, hnext, State.phase_feeding hsome, ⟨_, State.task?_feeding_same hy, rfl, rfl⟩, hworks, harb, ?_,
        fun k hk => (State.task?_feeding_other hk).trans (htask k), fun _ => ⟨hout, fun a ha => ?_⟩, nofun⟩
      · exact congrArg (fun r : State => { r with mem := m, tasks := (s1.feeding w x).tasks }) hsame
      · rw [hland]
        exact (hread a ha).trans (State.readByte_of_aroundStart hsame a)
    | true =>
      obtain ⟨tr, hfeed⟩ := State.beginFeed_host (w := w) hy hhost
      generalize s1.out ++ (List.range (fld x.cmd 10 0 16)).map (fun j => Out.hostWrite (keyPart y.ctx) (s1.pasidOf y.ctx)
        (y.queueOff + y.place j * y.itemBytes) (feedItem x.cmd j)) = o at hfeed ⊢
      have hnext := State.after_begins (c := .feed at_ e) hs h hp rfl (hbegin.trans hfeed) rfl rfl rfl rfl
      obtain ⟨hworks, hout, harb⟩ := (s1.writing tr o).keepsRest_feeding w x
      refine ⟨_, hnext, State.phase_feeding (s := s1.writing tr o) hsome,
        ⟨_, State.task?_feeding_same (s := s1.writing tr o) hy, rfl, rfl⟩, hworks, harb, ?_,
        fun k hk => (State.task?_feeding_other hk).trans (htask k), nofun, fun _ => ⟨fun a => ?_, hout⟩⟩
      · have hmem' : ((s1.writing tr o).feeding w x).mem = s.mem := hmem
        rw [hmem']
        exact congrArg (fun r : State => { r with tasks := ((s1.writing tr o).feeding w x).tasks }) hsame
      · exact State.readByte_of_aroundStart hsame a

end Sys2Proof.Machine
end

section
/-! PROOFS. The release of a ready node (05 R165, R168), the launch of a child that waited for its slots (05 R172), and the
timeout of a started entry (03 R88). -/
namespace Sys2Proof.Machine

/-! ### The release of a ready node (05 R165, R168) -/

section
variable {s s0 : State} {l i w : Nat} {y : Launch} {d : DescSt} {pin : Kern}

/-- The state in which sequencer `q` has accepted node `i` of a launch. -/
def State.nodeTaken (s : State) (l i : Nat) (y : Launch) (d : DescSt) (pin : Kern) (q : Nat) : State :=
  State.adjLaunch { s with
    works := Tbl.set s.works s.nextWork (s.nodeWork y l i d pin)
    nextWork := s.nextWork + 1
    free := s.free + 1
    accepted := q :: s.accepted } l fun x => { x with nodes := x.nodes.set i (.running s.nextWork) }

theorem State.work?_nodeTaken_same (q : Nat) : (s.nodeTaken l i y d pin q).work? s.nextWork = some (s.nodeWork y l i d pin) :=
  Tbl.get?_set_same s.works _ _

theorem State.work?_nodeTaken_other (q : Nat) {v : Nat} (hv : v ≠ s.nextWork) : (s.nodeTaken l i y d pin q).work? v = s.work? v :=
  Tbl.get?_set_other s.works _ hv.symm

theorem State.launch?_nodeTaken_same (q : Nat) (hy : s.launch? l = some y) :
    (s.nodeTaken l i y d pin q).launch? l = some { y with nodes := y.nodes.set i (.running s.nextWork) } :=
  (State.launch?_adjLaunch_same _ _ _).trans (congrArg _ hy)

theorem State.launch?_nodeTaken_other (q : Nat) {m : Nat} (hm : m ≠ l) : (s.nodeTaken l i y d pin q).launch? m = s.launch? m :=
  State.launch?_adjLaunch_other _ _ hm

theorem State.releaseNode_of_takeNode (h : s.takeNode l i none = some (w, s0, d)) :
    s.releaseNode l i none = (s0.noteRun w).runRoutine w d := by
  simp only [State.releaseNode, h, State.runOrPark]

end

/-- Settles O13: the acceptance adds the node's command and marks the node as running; the routine is run from there. -/
theorem readyNodeIsAccepted : Obligations.ReadyNodeIsAccepted := by
  unfold Obligations.ReadyNodeIsAccepted
  intro s l i en t y d pin hs hstop hy hnode hmay hturn
  obtain ⟨q, htake⟩ : ∃ q, s.takeNode l i none = some (s.nextWork, s.nodeTaken l i y d pin q, d) :=
    State.takeNode_eq hstop hy hnode hmay hturn
  refine ⟨_, htake, ?runs, rfl, rfl, State.work?_nodeTaken_same q, fun v hv => State.work?_nodeTaken_other q hv,
    fun m hm => State.launch?_nodeTaken_other q hm, State.launch?_nodeTaken_same q hy⟩
  case runs =>
    rw [← State.releaseNode_of_takeNode htake]
    exact (State.after_eq hs.2 _).trans (congrArg _ (State.run_const hs.1 _))

/-! ### The slots that work holds (04 R116; 05 R166) -/

/-- A change that a choice of entries does not see leaves their count of ones as it was. -/
theorem Tbl.ones_filter_adjust {α : Type} {p : Nat × α → Bool} {g : α → α} (hp : ∀ e, p (e.1, g e.2) = p e) (t : Tbl α)
    (n : Nat) : ((Tbl.adjust t n g).filter p).map (fun _ => 1) = (t.filter p).map fun _ => 1 := by
  rw [Tbl.adjust, List.filter_map, List.map_map]
  refine congrArg (List.map _) (List.filter_congr fun e _ => ?_)
  rw [Function.comp_apply]
  split
  · exact hp e
  · rfl

section
variable {s : State} {w : Nat} {g : Work → Work}

/-- Of the command that owns it, the slots of a launch depend on the phase alone. -/
theorem Launch.slots_adjust (hphase : ∀ y, (g y).phase = y.phase) (l : Launch) (works : Tbl Work) (w : Nat) :
    l.slots (Tbl.adjust works w g) = l.slots works := by
  simp only [Launch.slots]
  cases l.owner with
  | work v =>
    simp only [Tbl.get?_adjust]
    by_cases hv : v = w
    · rw [if_pos hv]
      cases Tbl.get? works v with
      | none => rfl
      | some y => simp only [Option.map_some, hphase]
    · rw [if_neg hv]
  | _ => rfl

theorem State.slotsOf_adjWork (hpart : ∀ y, (g y).part = y.part) (hsite : ∀ y, (g y).site = y.site)
    (hphase : ∀ y, (g y).phase = y.phase) (f : Nat → Bool) : (s.adjWork w g).slotsOf f = s.slotsOf f := by
  have hentries := Tbl.ones_filter_adjust (p := fun e : Nat × Work =>
    f e.2.part && (match e.2.site with | .ring _ _ => true | .node _ _ => false)) (g := g)
    (fun e => by simp only [hpart, hsite]) s.works w
  simp only [State.slotsOf, State.adjWork, Launch.slots_adjust hphase]
  exact congrArg (sumNat · + _) hentries

theorem State.slotsFree_adjWork (hpart : ∀ y, (g y).part = y.part) (hsite : ∀ y, (g y).site = y.site)
    (hphase : ∀ y, (g y).phase = y.phase) (p n : Nat) : (s.adjWork w g).slotsFree p n = s.slotsFree p n := by
  simp only [State.slotsFree, State.slotsOf_adjWork hpart hsite hphase]
  rfl

end

/-! ### A child that waited, an entry that runs too long (03 R88; 05 R172) -/

section
variable {s : State} {w n u : Nat} {x : Work} {y : Graph} {counted : Bool}

/-- A note of how long a command waits for a sequencer is no obstacle to the launch of its child. -/
theorem State.tryChild_launches_waited {g : Work → Work} (hg : ∀ z, ∃ v, g z = { z with seqFrom := v }) (hx : s.work? w = some x)
    (hcaller : s.callerStopped x = false) (hu : s.graphOf x.part n = some u) (hy : s.graph? u = some y) (hready : y.state = .ready)
    (hdepth : s.childDepth x ≤ Config.nesting) (hslots : s.slotsFree x.part (1 + y.window) = true) :
    ∃ l, (s.adjWork w g).tryChild w n counted = ((s.launched l).adjWork w g).phase w (.child s.nextLaunch) ∧
      l.owner = .work w ∧ l.graph = u ∧ l.gen = y.cur := by
  have hpart (z : Work) : (g z).part = z.part := by obtain ⟨v, hv⟩ := hg z; rw [hv]
  have hsite (z : Work) : (g z).site = z.site := by obtain ⟨v, hv⟩ := hg z; rw [hv]
  have hphase (z : Work) : (g z).phase = z.phase := by obtain ⟨v, hv⟩ := hg z; rw [hv]
  have hcaller' : (s.adjWork w g).callerStopped (g x) = false := by
    rw [State.callerStopped, hsite]
    exact hcaller
  have hdepth' : (s.adjWork w g).childDepth (g x) ≤ Config.nesting := by
    rw [State.childDepth, hsite]
    exact hdepth
  have hu' : (s.adjWork w g).graphOf (g x).part n = some u := by
    rw [hpart]
    exact hu
  have hslots' : (s.adjWork w g).slotsFree (g x).part (1 + y.window) = true := by
    rw [hpart, State.slotsFree_adjWork hpart hsite hphase]
    exact hslots
  obtain ⟨l, hl, howner, hgraph, hgen, -⟩ :=
    State.tryChild_launches (counted := counted) (State.work?_adjWork_of hx) hcaller' hu' hy hready hdepth' hslots'
  exact ⟨l, hl, howner, hgraph, hgen⟩

theorem State.childReserved_first (hstop : s.stop.stopped = false) (hx : s.work? w = some x) (hph : x.phase = .reserve n counted)
    (hlater : x.released < s.tick) (hfirst : s.works.any (s.reserveBefore w) = false) :
    s.childReserved w = s.withSeqr w fun s => s.tryChild w n counted := by
  simp only [State.childReserved, hx, hph, hstop, hfirst, Nat.not_le.2 hlater, decide_false, Bool.or_self, Bool.false_eq_true,
    if_false]

/-- The state with these free values and these notes of its sequencers: what changes as a command goes on. -/
def State.sequencing (s : State) (fr : Nat) (ac : List Nat) (rn : List (Nat × Nat × Nat × Nat)) : State :=
  { s with free := fr, accepted := ac, ran := rn }

theorem State.keepsRest_launched_sequencing (s : State) (fr : Nat) (ac : List Nat) (rn : List (Nat × Nat × Nat × Nat)) (l : Launch)
    (w : Nat) : s.keepsRest ((s.sequencing fr ac rn).launched l) w := s.keepsRest_launched l w

/-- A command that goes on launches its child beside itself, where the slots are free. -/
theorem State.withSeqr_launches (hx : s.work? w = some x) (hgo : s.onSeqr w = true ∨ s.turn (s.backRank x) = true)
    (hcaller : s.callerStopped x = false) (hu : s.graphOf x.part n = some u) (hy : s.graph? u = some y) (hready : y.state = .ready)
    (hdepth : s.childDepth x ≤ Config.nesting) (hslots : s.slotsFree x.part (1 + y.window) = true) :
    ∃ t l, (s.withSeqr w fun s => s.tryChild w n counted) = t.phase w (.child s.nextLaunch) ∧ (t.work? w).isSome = true ∧
      t.launch? s.nextLaunch = some l ∧ (l.owner = .work w ∧ l.graph = u ∧ l.gen = y.cur) ∧
      s.keepsRest t w ∧ t.aroundStart = s.aroundStart := by
  obtain ⟨fr, ac, rn, g, hg, hseqr⟩ := State.withSeqr_goes hx hgo
  obtain ⟨l, hl, hlaunch⟩ := State.tryChild_launches_waited (s := s.sequencing fr ac rn) (counted := counted) hg hx hcaller hu hy hready
    hdepth hslots
  have hw : (((s.sequencing fr ac rn).launched l).adjWork w g).work? w = some (g x) := State.work?_adjWork_of hx
  exact ⟨_, l, (hseqr _).trans hl, congrArg Option.isSome hw, (s.sequencing fr ac rn).launch?_launched l, hlaunch,
    State.keepsRest_adjWork (s.keepsRest_launched_sequencing fr ac rn l w) g, rfl⟩

/-- A started entry whose count has reached TIMEOUT_US is marked, and an urgent abort is decided. -/
theorem State.ringTimeout_reached {p r seq : Nat} (hstop : s.stop.stopped = false) (hx : s.work? w = some x)
    (hentry : s.entryBySeq p r seq = some w) (hmark : x.timedOut = false) (hset : x.timeoutUs ≠ 0)
    (hreached : x.timeoutUs * 1000 ≤ x.ticks * 64) :
    s.ringTimeout p r seq = (s.adjWork w fun x => { x with timedOut := true }).decideAbort (.work w) .timeout 0 true := by
  simp only [State.ringTimeout, hentry, hx, hstop, hmark, beq_false_of_ne hset, Nat.not_lt.2 hreached, decide_false, Bool.or_self,
    Bool.false_eq_true, if_false]

end

/-- Settles O25: the child is launched beside the command that waited; the timeout opens no store. -/
theorem childReservationsAndTimeouts : Obligations.ChildReservationsAndTimeouts := by
  unfold Obligations.ChildReservationsAndTimeouts
  intro s w g p r seq u c x y hs hstop hx
  refine ⟨fun hph hlater hfirst hcaller hgo hu hy hready hdepth hslots => ?child,
    fun hentry hmark hset hreached => ?timeout⟩
  case child =>
    obtain ⟨t, l, ht, hw, hl, ⟨howner, hgraph, hgen⟩, hrest, haround⟩ :=
      State.withSeqr_launches (counted := c) hx hgo hcaller hu hy hready hdepth hslots
    have hreserved := (State.childReserved_first hstop hx hph hlater hfirst).trans ht
    refine ⟨_, State.after_starts hs (f := fun s => s.childReserved w) hreserved haround, State.phase_of_phase hw, ?launch,
      State.keepsRest_adjWork hrest _, haround⟩
    case launch =>
      refine (congrArg (Option.map _) hl).trans ?_
      rw [Option.map_some, howner, hgraph, hgen]
  case timeout =>
    exact State.after_live hs (f := fun s => s.ringTimeout p r seq)
      (State.ringTimeout_reached hstop hx hentry hmark hset hreached) rfl rfl rfl rfl

end Sys2Proof.Machine
end

section
/-! PROOFS. Results of background work that wait for the start of the next boundary (05 R157; 07 R224; 08 R247, R258, R260;
09 R284; 14 R408). -/
namespace Sys2Proof.Machine

/-! ### The ends of background work -/

section
variable {s : State} {u : Nat} {host : List Word}

/-- A live command whose effect leaves a result for the boundary adds it and changes nothing else. -/
theorem State.after_defer {f : State → State} {r : Later} (hs : s.live) (hf : f s = s.defer r) :
    s.after f = .next { s with later := s.later ++ [r] } :=
  State.after_live hs hf rfl rfl rfl rfl

theorem State.imageReadEnds_reading {rd : ImageRead} {rest : List ImageRead} (hstop : s.stop.stopped = false)
    (hreads : s.imageReads = rd :: rest) (hfirst : s.later.any Later.isImage = false) :
    s.imageReadEnds (.ok host) = s.defer (.image rd.graph (.ok host) s.headImage) := by
  have hhead : s.headGraph = rd.graph := by simp only [State.headGraph, hreads]
  have hsome : (s.imageReads == []) = false := by rw [hreads]; rfl
  simp only [State.imageReadEnds, hstop, hsome, hfirst, Bool.or_self, Bool.false_eq_true, if_false, State.noteIo, hhead]

section
variable {p t : Nat} {x : Table}

theorem State.tableLoadEnds_loading (hstop : s.stop.stopped = false) (hu : s.tableOf p t = some u) (hx : s.table? u = some x)
    (hloading : x.state = .loading) (hfirst : s.later.any (Later.isLoadOf u) = false) :
    s.tableLoadEnds p t (.ok host) = s.defer (.tableLoad u (.ok host)) := by
  simp only [State.tableLoadEnds, hu, hx, hstop, hloading, hfirst, bne_self_eq_false, Bool.or_self, Bool.false_eq_true, if_false,
    State.noteIo]

theorem State.tableStageEnds_staging (hstop : s.stop.stopped = false) (hu : s.tableOf p t = some u) (hx : s.table? u = some x)
    (hstages : x.stages ≠ []) (hfirst : s.later.any (Later.isStageOf u) = false) :
    s.tableStageEnds p t (.ok host) = s.defer (.stage u (.ok host)) := by
  simp only [State.tableStageEnds, hu, hx, hstop, beq_false_of_ne hstages, hfirst, Bool.or_self, Bool.false_eq_true, if_false,
    State.noteIo]

end

theorem State.fillEnds_filling (hstop : s.stop.stopped = false) (hu : s.filling = some u) (hduty : s.epochDuty = true)
    (hopen : s.cop.phase = .opening) (hfirst : s.later.any (Later.isFillOf u) = false) :
    s.fillEnds (.ok host) = s.defer (.fill u (.ok host)) := by
  simp only [State.fillEnds, hu, hstop, hduty, hopen, hfirst, bne_self_eq_false, Bool.not_true, Bool.or_self, Bool.false_eq_true,
    if_false, State.noteIo]

/-- The cleanup of a teardown ends once no segment of the partition runs (07 R224). -/
theorem State.teardownDone_idle {p : Nat} {td : Teardown} (hstop : s.stop.stopped = false) (htd : (s.part p).teardown = some td)
    (hidle : s.partRuns p = false) (hfirst : .torn p ∉ s.later) : s.teardownDone p = s.defer (.torn p) := by
  have hnone : s.later.contains (.torn p) = false := by simpa using hfirst
  simp only [State.teardownDone, hstop, htd, hidle, hnone, Option.isNone_some, Bool.or_self, Bool.false_eq_true, if_false, State.defer]

theorem State.bringupAsked_due {failed : List Nat} (hmay : s.mayBringUp = true) (hfirst : s.later.any Later.isBringup = false) :
    s.bringupAsked failed = s.defer (.bringup failed) := by
  simp only [State.bringupAsked, hmay, hfirst, Bool.not_false, Bool.and_self, if_true]

/-- A bias period ends in the tick that reaches its end (09 R284). -/
theorem State.biasPeriodEnds_due (hperiod : s.pleach.periodUs ≠ 0) (hend : s.biasEnd ≤ s.sinceReset + 63) :
    s.biasPeriodEnds = (s.adjPleach fun q => { q with lastPeriod := s.biasEnd }).defer .bias :=
  if_neg (not_or.2 ⟨hperiod, Nat.not_lt.2 hend⟩)

end

/-- Settles O56: each end of background work, while that work goes on, leaves its result among those that wait. -/
theorem backgroundResultsWaitForTheBoundary : Obligations.BackgroundResultsWaitForTheBoundary := by
  unfold Obligations.BackgroundResultsWaitForTheBoundary
  intro s p t u x host rd rest failed hs hstop later
  refine ⟨fun hreads hfirst => ?image, fun hu hx => ⟨fun hloading hfirst => ?load, fun hstages hfirst => ?stage⟩,
    fun hu hduty hopen hfirst => ?fill, fun td htd hidle hfirst => ?torn, fun hmay hfirst => ?bringup,
    fun hperiod hend => ?bias⟩
  case image => exact State.after_defer hs (State.imageReadEnds_reading hstop hreads hfirst)
  case load => exact State.after_defer hs (State.tableLoadEnds_loading hstop hu hx hloading hfirst)
  case stage => exact State.after_defer hs (State.tableStageEnds_staging hstop hu hx hstages hfirst)
  case fill => exact State.after_defer hs (State.fillEnds_filling hstop hu hduty hopen hfirst)
  case torn => exact State.after_defer hs (State.teardownDone_idle hstop htd hidle hfirst)
  case bringup => exact State.after_defer hs (State.bringupAsked_due hmay hfirst)
  case bias =>
    exact State.after_live hs (f := fun s => s.biasPeriodEnds) (State.biasPeriodEnds_due hperiod hend) rfl rfl rfl rfl

end Sys2Proof.Machine
end

section
/-! PROOFS. Masks of interrupt vectors and of functions (07 R210): what setting one leaves unchanged, and which pending messages go
out when one clears. -/
namespace Sys2Proof.Machine

/-- A table answers other than its default only at a number that it holds. -/
theorem Tbl.mem_keys_of_getD_ne {α : Type} {t : Tbl α} {n : Nat} {d : α} (h : Tbl.getD t n d ≠ d) : n ∈ Tbl.keys t := by
  induction t with
  | nil => exact absurd rfl h
  | cons e t ih =>
    obtain ⟨k, u⟩ := e
    by_cases hk : k = n
    · exact List.mem_cons.2 (.inl hk.symm)
    · refine List.mem_cons.2 (.inr (ih ?_))
      simpa only [Tbl.getD, Tbl.get?, hk, if_false] using h

/-- A vector without its mask. -/
def Vec.unmasked (x : Vec) : Vec := { x with masked := false }

/-- A vector whose pending message has gone out. -/
def Vec.sent (x : Vec) : Vec := { x with pendingBit := false }

section
variable {s t u : State} {p v : Nat} {f : Vec → Vec}

/-! ### Vectors after a change of a vector or of the function -/

@[simp] theorem State.vec_adjVec_same (s : State) (p v : Nat) (f : Vec → Vec) : (s.adjVec p v f).vec p v = f (s.vec p v) := by
  simp only [State.vec, State.adjVec, State.part_adjPart_same, Tbl.getD_set_same]

theorem State.vec_adjVec_other {w : Nat} (h : v ≠ w) : (s.adjVec p v f).vec p w = s.vec p w := by
  simp only [State.vec, State.adjVec, State.part_adjPart_same, Tbl.getD_set_other _ _ _ h]

@[simp] theorem State.funcMask_adjVec (s : State) (p v : Nat) (f : Vec → Vec) :
    ((s.adjVec p v f).part p).funcMask = (s.part p).funcMask := by
  simp only [State.adjVec, State.part_adjPart_same]

@[simp] theorem State.vec_send (s : State) (o : Out) (p v : Nat) : (s.send o).vec p v = s.vec p v := rfl

/-- A change of a function that leaves its vectors alone. -/
theorem State.vec_adjPart {g : Part → Part} (h : (g (s.part p)).vecs = (s.part p).vecs) (v : Nat) :
    (s.adjPart p g).vec p v = s.vec p v := by
  simp only [State.vec, State.part_adjPart_same, h]

/-- Only a vector that the table holds has its pending bit set. -/
theorem State.mem_keys_of_pendingBit (h : (s.vec p v).pendingBit = true) : v ∈ Tbl.keys (s.part p).vecs := by
  refine Tbl.mem_keys_of_getD_ne (d := Vec.reset) fun hreset => ?_
  have : Vec.reset.pendingBit = true := hreset ▸ h
  cases this

/-! ### The operations of the masks -/

theorem State.maskVec_vec (hp : p < 128) (hv : v < 256) :
    s.maskVec p (some v) = s.adjVec p v fun x => { x with masked := true } :=
  (if_neg (Nat.not_le.2 hp)).trans (if_pos hv)

theorem State.maskVec_func (hp : p < 128) : s.maskVec p none = s.adjPart p fun q => { q with funcMask := true } :=
  if_neg (Nat.not_le.2 hp)

theorem State.unmaskVec_vec (hp : p < 128) (hv : v < 256) :
    s.unmaskVec p (some v) = (s.adjVec p v Vec.unmasked).unmask p v :=
  (if_neg (Nat.not_le.2 hp)).trans (if_pos hv)

theorem State.unmaskVec_func (hp : p < 128) :
    s.unmaskVec p none = foldS (Tbl.keys (s.part p).vecs) (fun s v => s.unmask p v)
      (s.adjPart p fun q => { q with funcMask := false }) := by
  refine (if_neg (Nat.not_le.2 hp)).trans ?_
  simp only [State.part_adjPart_same]

/-- A pending message that no mask holds back goes out. -/
theorem State.unmask_sends (hpend : (s.vec p v).pendingBit = true) (hfunc : (s.part p).funcMask = false)
    (hmask : (s.vec p v).masked = false) :
    s.unmask p v = (s.adjVec p v Vec.sent).send (.msix p v) :=
  if_pos (by rw [hpend, hfunc, hmask]; rfl)

/-- Where nothing is pending, or a mask still holds it back, nothing happens. -/
theorem State.unmask_keeps
    (h : (s.vec p v).pendingBit = false ∨ (s.part p).funcMask = true ∨ (s.vec p v).masked = true) : s.unmask p v = s := by
  rcases h with h | h | h <;> simp [State.unmask, h]

theorem State.unmaskVec_sends (hp : p < 128) (hv : v < 256) (hpend : (s.vec p v).pendingBit = true)
    (hfunc : (s.part p).funcMask = false) :
    s.unmaskVec p (some v) = ((s.adjVec p v Vec.unmasked).adjVec p v Vec.sent).send (.msix p v) := by
  rw [State.unmaskVec_vec hp hv]
  refine State.unmask_sends ?_ ((s.funcMask_adjVec ..).trans hfunc) ?_ <;> rw [State.vec_adjVec_same]
  · exact hpend
  · rfl

theorem State.unmaskVec_keeps (hp : p < 128) (hv : v < 256)
    (h : (s.vec p v).pendingBit = false ∨ (s.part p).funcMask = true) :
    s.unmaskVec p (some v) = s.adjVec p v Vec.unmasked := by
  rw [State.unmaskVec_vec hp hv]
  refine State.unmask_keeps (h.imp (fun hnone => ?_) fun hfunc => .inl ((s.funcMask_adjVec ..).trans hfunc))
  rw [State.vec_adjVec_same]
  exact hnone

/-! ### What goes out when a function's mask clears -/

/-- Each vector of partition `p` is as it was, or was unmasked and has had its message sent; vectors and messages are all that
changes, and no message is taken back. -/
structure State.Releases (p : Nat) (s t : State) : Prop where
  frame : t = { s with parts := t.parts, out := t.out }
  funcMask : (t.part p).funcMask = (s.part p).funcMask
  out : s.out ⊆ t.out
  vec : ∀ v, t.vec p v = s.vec p v ∨
    ((s.vec p v).masked = false ∧ t.vec p v = (s.vec p v).sent ∧ .msix p v ∈ t.out)

theorem State.Releases.refl (p : Nat) (s : State) : State.Releases p s s := ⟨rfl, rfl, fun _ h => h, fun _ => .inl rfl⟩

theorem State.Releases.trans (hst : State.Releases p s t) (htu : State.Releases p t u) : State.Releases p s u where
  frame := by rw [htu.frame, hst.frame]
  funcMask := htu.funcMask.trans hst.funcMask
  out := fun _ h => htu.out (hst.out h)
  vec v := by
    rcases hst.vec v with heq | ⟨hmask, hsent, hout⟩
    · rw [← heq]
      exact htu.vec v
    · refine .inr ⟨hmask, ?_, htu.out hout⟩
      rcases htu.vec v with heq | ⟨-, hagain, -⟩
      · exact heq.trans hsent
      · rw [hagain, hsent]
        rfl

theorem State.Releases.masked (h : State.Releases p s t) (v : Nat) : (t.vec p v).masked = (s.vec p v).masked := by
  rcases h.vec v with heq | ⟨-, hsent, -⟩
  · rw [heq]
  · rw [hsent]
    rfl

/-- A masked vector keeps its pending bit. -/
theorem State.Releases.pendingBit_of_masked (h : State.Releases p s t) (hmask : (s.vec p v).masked = true) :
    (t.vec p v).pendingBit = (s.vec p v).pendingBit := by
  rcases h.vec v with heq | ⟨hopen, -⟩
  · rw [heq]
  · rw [hmask] at hopen; cases hopen

theorem State.Releases.pendingBit_of_clear (h : State.Releases p s t) (hclear : (s.vec p v).pendingBit = false) :
    (t.vec p v).pendingBit = false := by
  rcases h.vec v with heq | ⟨-, hsent, -⟩
  · rw [heq, hclear]
  · rw [hsent]
    rfl

/-- A pending bit that has cleared had its message sent. -/
theorem State.Releases.sent (h : State.Releases p s t) (hpend : (s.vec p v).pendingBit = true)
    (hclear : (t.vec p v).pendingBit = false) : .msix p v ∈ t.out := by
  rcases h.vec v with heq | ⟨-, -, hout⟩
  · rw [heq, hpend] at hclear; cases hclear
  · exact hout

/-- A message of a vector goes out, or nothing happens. -/
theorem State.unmask_cases (s : State) (p v : Nat) :
    ((s.vec p v).masked = false ∧ s.unmask p v = (s.adjVec p v Vec.sent).send (.msix p v)) ∨ s.unmask p v = s := by
  cases hpend : (s.vec p v).pendingBit with
  | false => exact .inr (State.unmask_keeps (.inl hpend))
  | true =>
    cases hfunc : (s.part p).funcMask with
    | true => exact .inr (State.unmask_keeps (.inr (.inl hfunc)))
    | false =>
      cases hmask : (s.vec p v).masked with
      | true => exact .inr (State.unmask_keeps (.inr (.inr hmask)))
      | false => exact .inl ⟨rfl, State.unmask_sends hpend hfunc hmask⟩

theorem State.releases_unmask (s : State) (p v : Nat) : State.Releases p s (s.unmask p v) := by
  rcases s.unmask_cases p v with ⟨hmask, hsends⟩ | hkeeps
  · rw [hsends]
    refine ⟨rfl, s.funcMask_adjVec p v _, List.subset_append_left .., fun w => ?_⟩
    by_cases hw : v = w
    · subst hw
      exact .inr ⟨hmask, s.vec_adjVec_same p v _, List.mem_append_right _ (List.mem_singleton_self _)⟩
    · exact .inl (State.vec_adjVec_other (s := s) hw)
  · rw [hkeeps]
    exact State.Releases.refl p s

theorem State.releases_foldS_unmask (p : Nat) (vs : List Nat) (s : State) :
    State.Releases p s (foldS vs (fun s v => s.unmask p v) s) := by
  induction vs generalizing s with
  | nil => exact State.Releases.refl p s
  | cons v vs ih => exact (s.releases_unmask p v).trans (ih _)

/-- Once an unmasked vector of an unmasked function has been looked at, nothing of it is pending. -/
theorem State.pendingBit_unmask (hfunc : (s.part p).funcMask = false) (hmask : (s.vec p v).masked = false) :
    ((s.unmask p v).vec p v).pendingBit = false := by
  cases hpend : (s.vec p v).pendingBit with
  | true =>
    rw [State.unmask_sends hpend hfunc hmask, State.vec_send, State.vec_adjVec_same]
    rfl
  | false => rw [State.unmask_keeps (.inl hpend), hpend]

theorem State.pendingBit_foldS_unmask {vs : List Nat} (hv : v ∈ vs) (hfunc : (s.part p).funcMask = false)
    (hmask : (s.vec p v).masked = false) : ((foldS vs (fun s v => s.unmask p v) s).vec p v).pendingBit = false := by
  induction vs generalizing s with
  | nil => cases hv
  | cons w vs ih =>
    have hfirst := s.releases_unmask p w
    rcases List.mem_cons.1 hv with rfl | hv
    · exact (State.releases_foldS_unmask p vs _).pendingBit_of_clear (State.pendingBit_unmask hfunc hmask)
    · exact ih hv (hfirst.funcMask.trans hfunc) ((hfirst.masked v).trans hmask)

/-- What the end of a function's mask releases: every pending message of a vector that is not masked itself. -/
theorem State.unmaskVec_releases (hp : p < 128) :
    ∃ t, s.unmaskVec p none = t ∧ State.Releases p (s.adjPart p fun q => { q with funcMask := false }) t ∧
      ∀ v, (s.vec p v).pendingBit = true → (s.vec p v).masked = false → (t.vec p v).pendingBit = false := by
  refine ⟨_, State.unmaskVec_func hp, State.releases_foldS_unmask .., fun v hpend hmask => ?_⟩
  refine State.pendingBit_foldS_unmask (State.mem_keys_of_pendingBit hpend) ?_
    ((congrArg Vec.masked (State.vec_adjPart rfl v)).trans hmask)
  rw [State.part_adjPart_same]

end

/-- Settles O27: one vector by whether its message goes out; a function by the release of each vector that its table holds. -/
theorem masksAndPendingMessages : Obligations.MasksAndPendingMessages := by
  unfold Obligations.MasksAndPendingMessages
  intro s p v hs hp hv
  refine ⟨State.after_live hs (f := fun s => s.maskVec p (some v)) (State.maskVec_vec hp hv) rfl rfl rfl rfl,
    State.after_live hs (f := fun s => s.maskVec p none) (State.maskVec_func hp) rfl rfl rfl rfl, ?vector, ?function⟩
  case vector =>
    have hunmasked : (s.adjVec p v Vec.unmasked).vec p v = (s.vec p v).unmasked := s.vec_adjVec_same p v _
    by_cases hsends : (s.vec p v).pendingBit = true ∧ (s.part p).funcMask = false
    · obtain ⟨hpend, hfunc⟩ := hsends
      have hsent : (((s.adjVec p v Vec.unmasked).adjVec p v Vec.sent).send (.msix p v)).vec p v = (s.vec p v).unmasked.sent := by
        rw [State.vec_send, State.vec_adjVec_same, hunmasked]
      refine ⟨_, State.after_live hs (f := fun s => s.unmaskVec p (some v)) (State.unmaskVec_sends hp hv hpend hfunc)
        rfl rfl rfl rfl, rfl, congrArg Vec.masked hsent, fun _ _ => ⟨rfl, congrArg Vec.pendingBit hsent⟩, fun hkeeps => ?_⟩
      rcases hkeeps with hnone | hmask
      · exact nomatch hpend.symm.trans hnone
      · exact nomatch hfunc.symm.trans hmask
    · have hkeeps : (s.vec p v).pendingBit = false ∨ (s.part p).funcMask = true :=
        (Decidable.not_and_iff_not_or_not.1 hsends).imp eq_false_of_ne_true eq_true_of_ne_false
      exact ⟨_, State.after_live hs (f := fun s => s.unmaskVec p (some v)) (State.unmaskVec_keeps hp hv hkeeps) rfl rfl rfl rfl,
        rfl, congrArg Vec.masked hunmasked, fun hpend hfunc => absurd ⟨hpend, hfunc⟩ hsends,
        fun _ => ⟨rfl, (congrArg Vec.pendingBit hunmasked :)⟩⟩
  case function =>
    have hvec (u : Nat) : (s.adjPart p fun q => { q with funcMask := false }).vec p u = s.vec p u := State.vec_adjPart rfl u
    obtain ⟨t, ht, hrel, hgone⟩ := State.unmaskVec_releases (s := s) hp
    have hframe : t = { s with parts := t.parts, out := t.out } := hrel.frame
    have hexec : exec (.msixUnmask p none) s = .next t := by
      refine State.after_live hs (f := fun s => s.unmaskVec p none) ht ?_ ?_ ?_ ?_ <;> rw [hframe]
    refine ⟨t, hexec, hframe, hrel.funcMask.trans ?unmasked, fun u => ⟨?masked,
      fun hpend hmask => ⟨?out, hgone u hpend hmask⟩, fun hmask => ?held⟩⟩
    case unmasked => rw [State.part_adjPart_same]
    case masked => rw [hrel.masked, hvec]
    case out => exact hrel.sent (by rw [hvec]; exact hpend) (hgone u hpend hmask)
    case held => rw [hrel.pendingBit_of_masked (by rw [hvec]; exact hmask), hvec]

end Sys2Proof.Machine
end

section
/-! PROOFS. Postings that fail and their retries (07 R203, R215-R217): the report of a failure, and what the retry of a held
completion word writes. -/
namespace Sys2Proof.Machine

theorem Tbl.adjust_adjust {α : Type} (t : Tbl α) (n : Nat) (f g : α → α) :
    Tbl.adjust (Tbl.adjust t n f) n g = Tbl.adjust t n fun x => g (f x) := by
  simp only [Tbl.adjust, List.map_map]
  refine List.map_congr_left fun e _ => ?_
  by_cases he : e.1 = n <;> simp [he]

theorem State.adjRing_adjRing (s : State) (k : Nat) (f g : Ring → Ring) :
    (s.adjRing k f).adjRing k g = s.adjRing k fun x => g (f x) := by
  simp only [State.adjRing, Tbl.adjust_adjust]

section
variable {s : State} {k n q : Nat} {x : Ring} {hd : Hold}

/-! ### The report of a failure (07 R215, R216) -/

/-- The ring with this held state. -/
def Ring.holding (x : Ring) (hd : Hold) : Ring := { x with hold := some hd }

/-- What a ring holds back, in another state. -/
def Hold.inState (st : HoldState) (hd : Hold) : Hold := { hd with st := st }

/-- The first 64 records of what a ring holds back. -/
def Hold.cut (hd : Hold) : Hold := { hd with recs := hd.recs.take 64 }

/-- The count of the records that were not kept. -/
def PartCounts.drop (n : Nat) (c : PartCounts) : PartCounts := { c with recDrop := satAdd32 c.recDrop (n - 64) }

theorem State.cutHold_holding (hx : s.ring? k = some x) (hd : Hold) :
    (s.adjRing k fun r => r.holding hd).cutHold k =
      (s.adjRing k fun r => r.holding hd.cut).adjCounts (keyPart k) (PartCounts.drop hd.recs.length) := by
  have hring : ((s.adjRing k fun r => r.holding hd).ring? k).bind (fun r => r.hold) = some hd := by
    rw [State.ring?_adjRing_of hx]
    rfl
  simp only [State.cutHold, hring, State.adjRing_adjRing]
  rfl

/-- Nothing is counted as dropped while at most 64 records are held. -/
theorem PartCounts.drop_of_le {c : PartCounts} (hn : n ≤ 64) (hc : c.recDrop < 2 ^ 32) : c.drop n = c := by
  have hsame : satAdd32 c.recDrop (n - 64) = c.recDrop := by
    simp only [satAdd32, Config.max32]
    omega
  rw [PartCounts.drop, hsame]

theorem State.ring?_adjCounts (s : State) (p : Nat) (g : PartCounts → PartCounts) (m : Nat) :
    (s.adjCounts p g).ring? m = s.ring? m := rfl

theorem State.counts_adjCounts_self {p : Nat} {g : PartCounts → PartCounts} (h : g (s.part p).counts = (s.part p).counts)
    (m : Nat) : ((s.adjCounts p g).part m).counts = (s.part m).counts := by
  by_cases hm : p = m
  · subst hm
    rw [State.counts_adjCounts, h]
  · rw [State.adjCounts, State.part_adjPart_other s _ hm]

/-- A failure whose retries are not used up: the next retry falls due, and the held records are cut to 64. -/
theorem State.postingFailed_retries (hx : s.ring? k = some x) (hhold : x.hold = some hd) (hst : hd.st = .unanswered n)
    (hn : n < 3) (why : IoFail) :
    s.postingFailed k why = (s.adjRing k fun r => r.holding (hd.inState (.retryIn n (retryDelay n))).cut).adjCounts (keyPart k)
      (PartCounts.drop hd.recs.length) := by
  simp only [State.postingFailed, hx, hhold, hst, hn, if_true]
  exact State.cutHold_holding hx _

/-- The failure of the third retry: the ring blocks at the next boundary. -/
theorem State.postingFailed_blocks (hx : s.ring? k = some x) (hhold : x.hold = some hd) (hst : hd.st = .unanswered n)
    (hn : ¬ n < 3) (why : IoFail) :
    s.postingFailed k why =
      s.adjRing k fun r => r.holding (hd.inState (.blocking (ioStatus why).code r.heldAddr)) := by
  simp only [State.postingFailed, hx, hhold, hst, hn, if_false]
  rfl

/-- The report of an unanswered posting counts the failure in the fault unit. -/
theorem State.postingRefused_unanswered (hx : s.ring? k = some x) (hhold : x.hold = some hd) (hst : hd.st = .unanswered n)
    (why : IoFail) : ∃ f, s.postingRefused k why = (s.adjFlt f).postingFailed k why := by
  obtain ⟨f, hf⟩ := s.noteStatus_eq (ioStatus why) (ioDetail why)
  refine ⟨fun _ => f, ?_⟩
  simp only [State.postingRefused, hx, hhold, hst, if_true, State.noteFail, hf]
  rfl

/-! ### The retry of a held word (07 R203, R215) -/

/-- Either of two changes of partitions and messages is one. -/
theorem State.ite_parts_out {c : Prop} [Decidable c] {t u : State} (ht : ∃ ps o, t = { s with parts := ps, out := o })
    (hu : ∃ ps o, u = { s with parts := ps, out := o }) : ∃ ps o, (if c then t else u) = { s with parts := ps, out := o } := by
  by_cases hc : c
  · rw [if_pos hc]
    exact ht
  · rw [if_neg hc]
    exact hu

theorem State.msix_eq (s : State) (p v : Nat) : ∃ ps o, s.msix p v = { s with parts := ps, out := o } :=
  State.ite_parts_out ⟨s.parts, s.out, rfl⟩ (State.ite_parts_out ⟨_, s.out, rfl⟩ ⟨s.parts, _, rfl⟩)

/-- The check of a vector changes its partition and sends its message. -/
theorem State.coalesce1_eq (s : State) (b p v : Nat) : ∃ ps o, s.coalesce1 b p v = { s with parts := ps, out := o } :=
  State.ite_parts_out (State.msix_eq (s.adjVec p v fun x => { x with pending := 0, first := none }) p v) ⟨_, s.out, rfl⟩

/-- Bytes from an address upward are those of the place at that address. -/
theorem State.storeBytes_eq_storeLoc (bs : List Byte) (s : State) (a : Nat) : s.storeBytes a bs = s.storeLoc (.host a) bs := by
  induction bs generalizing s a with
  | nil => rfl
  | cons b bs ih => exact ih (s.store a b) (a + 1)

/-- A ring whose last completion word has been written. -/
def Ring.wordPosted (q : Nat) (x : Ring) : Ring := { x with hold := none, written := q }

/-- The held state of a retry that is due, of a word alone. -/
def Hold.wordDue (n q : Nat) : Hold := { st := .retryIn n 0, lead := none, recs := [], word := some q, events := [] }

/-- The write of a completion word is presented at the memory port. -/
def State.wordPresented (s : State) (x : Ring) : State := s.presentAt 5 true (some x.cseq) (sectorsIn x.cseq 8)

theorem State.writeWord_dev (hx : s.ring? k = some x) (hdev : x.cseqLoc = false) (q : Nat) :
    s.writeWord k q = ((s.wordPresented x).storeLoc (.host x.cseq) (leBytes 8 q)).adjRing k fun r => { r with written := q } := by
  simp only [State.writeWord, hx, hdev, State.ringWrite, Bool.false_eq_true, if_false, State.storeBytes_eq_storeLoc, length_leBytes]
  rfl

/-- The state with a completion word written and the ring's hold let go. -/
def State.wordIssued (s : State) (k : Nat) (x : Ring) (q : Nat) : State :=
  ((s.wordPresented x).storeLoc (.host x.cseq) (leBytes 8 q)).adjRing k (Ring.wordPosted q)

theorem State.issue_wordDue (hx : s.ring? k = some x) (hdev : x.cseqLoc = false) (n q : Nat) (st : HoldState) :
    s.issue k (Hold.wordDue n q) none st = s.wordIssued k x q := by
  have hword : s.issue k (Hold.wordDue n q) none st = (s.writeWord k q).adjRing k fun r => { r with hold := none } := rfl
  rw [hword, State.writeWord_dev hx hdev, State.adjRing_adjRing]
  rfl

/-- A due retry of a word alone writes the word and lets the hold go; the vector's check follows. -/
theorem State.postingRetry_wordDue (hx : s.ring? k = some x) (hhold : x.hold = some (Hold.wordDue n q))
    (hdev : x.cseqLoc = false) : ∃ ps o, s.postingRetry k none = { s.wordIssued k x q with parts := ps, out := o } := by
  obtain ⟨ps, o, hcheck⟩ := (s.wordIssued k x q).coalesce1_eq s.tick (keyPart k) x.vector
  refine ⟨ps, o, ?_⟩
  rw [← hcheck, ← State.issue_wordDue hx hdev n q (.unanswered (n + 1))]
  simp only [State.postingRetry, hx, hhold, Hold.wordDue]

/-! ### Bytes at an address -/

theorem State.readByte_storeLoc_host_same {a i : Nat} {bs : List Byte} (hi : i < bs.length) :
    (s.storeLoc (.host a) bs).readByte (a + i) = bs[i] :=
  State.readByte_storeLoc_same (s := s) (l := .host a) (fun _ _ _ _ heq => Nat.add_left_cancel heq) hi

theorem State.readByte_storeLoc_host_other {a b : Nat} {bs : List Byte} (h : b < a ∨ a + bs.length ≤ b) :
    (s.storeLoc (.host a) bs).readByte b = s.readByte b := by
  refine State.readByte_storeLoc_other fun i hi heq => ?_
  have : b = a + i := heq
  omega

end

/-- Settles O26: a failure by whether a retry is left; the retry's eight bytes land, and its ring alone lets its hold go. -/
theorem postingRetriesAndBlocking : Obligations.PostingRetriesAndBlocking := by
  unfold Obligations.PostingRetriesAndBlocking
  intro s p r n why x hd hs hstop k hx hhold
  refine ⟨fun hst => ?failure, fun q hdue hdev => ?retry⟩
  case failure =>
    obtain ⟨f, hrefused⟩ := State.postingRefused_unanswered hx hhold hst why
    have hxf : (s.adjFlt f).ring? k = some x := hx
    by_cases hn : n < 3
    · have hfails := hrefused.trans (State.postingFailed_retries hxf hhold hst hn why)
      have hring := (State.ring?_adjCounts _ (keyPart k) (PartCounts.drop hd.recs.length) k).trans
        (State.ring?_adjRing_of (f := fun r => r.holding (hd.inState (.retryIn n (retryDelay n))).cut) hxf)
      refine ⟨_, State.after_live hs (f := fun s => s.postingRefused k why) hfails rfl rfl rfl rfl, rfl, fun hlen hdrop => ?counts,
        .retryIn n (retryDelay n), hring.trans ?held, ?delay⟩
      case counts => exact State.counts_adjCounts_self (PartCounts.drop_of_le hlen hdrop)
      case held => rw [if_pos hn]; rfl
      case delay =>
        obtain rfl | rfl | rfl : n = 0 ∨ n = 1 ∨ n = 2 := by omega
        all_goals rfl
    · have hblocks := hrefused.trans (State.postingFailed_blocks hxf hhold hst hn why)
      have hring := State.ring?_adjRing_of
        (f := fun r => r.holding (hd.inState (.blocking (ioStatus why).code r.heldAddr))) hxf
      refine ⟨_, State.after_live hs (f := fun s => s.postingRefused k why) hblocks rfl rfl rfl rfl, rfl, fun _ _ _ => rfl,
        .blocking (ioStatus why).code x.heldAddr, hring.trans ?kept, ?blocks⟩
      case kept => rw [if_neg hn]; rfl
      case blocks => rw [if_neg (by omega), if_neg (by omega), if_neg (by omega)]
  case retry =>
    subst hdue
    obtain ⟨ps, o, hretry⟩ := State.postingRetry_wordDue hx hhold hdev
    obtain ⟨st, hst⟩ := State.storeLoc_eq (leBytes 8 q) (s.wordPresented x) (.host x.cseq)
    have hf : s.postingRetried k none =
        State.storing { (s.wordPresented x).adjRing k (Ring.wordPosted q) with parts := ps, out := o } st := by
      rw [State.postingRetried, State.unlessStopped, if_neg (Bool.eq_false_iff.1 hstop), hretry, State.wordIssued, hst]
      rfl
    obtain ⟨m, hexec, hland⟩ := State.after_stores (f := fun s => s.postingRetried k none) hs hf rfl rfl rfl rfl
    have hread (a : Nat) := (hland a).trans (congrArg (fun t => State.readByte t a) hst).symm
    refine ⟨_, hexec, State.ring?_adjRing_of hx, fun m hm => s.ring?_adjRing_other _ hm, rfl, rfl, rfl, fun j hj => ?byte,
      fun a ha => ?other⟩
    case byte =>
      have hj' : j < (leBytes 8 q).length := by rwa [length_leBytes]
      rw [hread, State.readByte_storeLoc_host_same hj', getElem_leBytes]
    case other =>
      rw [hread]
      exact State.readByte_storeLoc_host_other (by rwa [length_leBytes])

end Sys2Proof.Machine
end

section
/-! PROOFS. Management writes with a row of their own (08 R247, R265; 10 R327; 11 R335, R350; 12 R359, R368, R370, R374; 15 R425,
R431): each reaches one register, waits for the boundary and takes effect there. -/
namespace Sys2Proof.Machine

/-! ### The writes wait for the boundary -/

section
variable {s : State} {o n b : Nat}

/-- A write of `n` bytes of the PF at offset `o` of the management window reaches the register at `b` alone, below the staging
areas, and that register does not act at arrival. -/
structure PfWriteReaches (o n b : Nat) : Prop where
  short : n ≤ 64
  low : o + n ≤ 0x100000
  alone : ∀ v, basesOf (.mgmt o) ⟨.pf, 0x10000000 + o, n, v, []⟩ = [b]
  waits : atArrival b = false

theorem reaches_epochCtrl : PfWriteReaches 0x60008 1 0x60008 := ⟨by decide, by decide, fun _ => rfl, rfl⟩
theorem reaches_hotrowCtrl : PfWriteReaches 0x60218 4 0x60218 := ⟨by decide, by decide, fun _ => rfl, rfl⟩
theorem reaches_svcCtrl : PfWriteReaches 0x80000 4 0x80000 := ⟨by decide, by decide, fun _ => rfl, rfl⟩
theorem reaches_hangClear : PfWriteReaches 0x90022 1 0x90020 := ⟨by decide, by decide, fun _ => rfl, rfl⟩
theorem reaches_fwCmd : PfWriteReaches 0xA0200 4 0xA0200 := ⟨by decide, by decide, fun _ => rfl, rfl⟩
theorem reaches_crashCtrl : PfWriteReaches 0xA0300 4 0xA0300 := ⟨by decide, by decide, fun _ => rfl, rfl⟩
theorem reaches_gcntCtrl : PfWriteReaches 0xF0100 4 0xF0100 := ⟨by decide, by decide, fun _ => rfl, rfl⟩
theorem reaches_traceMark : PfWriteReaches 0xF0048 8 0xF0048 := ⟨by decide, by decide, fun _ => rfl, rfl⟩

theorem PfWriteReaches.space (h : PfWriteReaches o n b) (v : Nat) : spaceOf ⟨.pf, 0x10000000 + o, n, v, []⟩ = .mgmt o :=
  spaceOf_pf_mgmt rfl rfl (by have := h.low; omega)

/-- A live command that is such a write, and asks for nothing but values, joins the writes that wait and changes nothing else. -/
theorem State.after_pfWrite (h : PfWriteReaches o n b) (hs : s.live) (v : Nat)
    (hops : mgmtOps ⟨.pf, o, n, v, []⟩ b false = []) :
    s.after (fun s => s.pfWrite o n v) =
      .next { s with hostOps := s.hostOps ++ [.reg ⟨.pf, 0x10000000 + o, n, v, []⟩] } := by
  refine State.after_live hs
    (State.regWrite_mgmt_plain (a := ⟨.pf, 0x10000000 + o, n, v, []⟩) h.short (h.space v) ?arrival ?asks) rfl rfl rfl rfl
  case arrival => rw [h.alone v]; exact List.forall_mem_singleton.2 h.waits
  case asks => rw [h.alone v]; exact List.forall_mem_singleton.2 hops

/-- A write of LATCH to the window of a partition that is enabled joins the writes that wait. -/
theorem State.regWrite_partCntLatch {p : Nat} (hp : p < Config.partitions) (hup : s.isUp p = true) (straps : Nat) (ok : Bool) :
    s.regWrite ⟨.vf p, 0x80000, 4, 1, []⟩ straps ok =
      { s with hostOps := s.hostOps ++ [.reg ⟨.vf p, 0x80000, 4, 1, []⟩] } := by
  have hspace : spaceOf ⟨.vf p, 0x80000, 4, 1, []⟩ = .win p 0x80000 := spaceOf_vf rfl hp rfl (by decide)
  rw [State.regWrite_win_up (by simp only; decide) hspace hup]
  rfl

/-- A write to one management register that acts when it arrives acts, and then waits for the boundary as every write does. -/
theorem State.regWrite_mgmt_arrives {a : RegAcc} {straps : Nat} {ok : Bool} (ha : a.bytes ≤ 64) (hx : spaceOf a = .mgmt o)
    (hb : basesOf (.mgmt o) a = [b]) (harr : atArrival b = true) (hops : mgmtOps { a with addr := o } b ok = []) :
    s.regWrite a straps ok = { s.arrive { a with addr := o } b straps with
      hostOps := (s.arrive { a with addr := o } b straps).hostOps ++ [.reg a] } := by
  have hone : [b].filter atArrival = [b] := List.filter_cons_of_pos harr
  simp only [State.regWrite, Nat.min_eq_left ha, hx, Space.off, hb, hone, foldS, List.foldl_cons, List.foldl_nil,
    List.flatMap_cons, List.flatMap_nil, hops, List.append_nil]

/-- A write of FENCE decides the fencing of its core when it arrives. -/
theorem State.pfWrite_coreFence (s : State) (core : Nat) : s.pfWrite 0x90028 4 (core % 128 + 256) =
    { s.decideFence (core % 128) 3 with
      hostOps := s.hostOps ++ [.reg ⟨.pf, 0x10090028, 4, core % 128 + 256, []⟩] } := by
  have hcore : wfld ⟨.pf, 0x90028, 4, core % 128 + 256, []⟩ 0x90028 0 7 = core % 128 :=
    (wfld_of_covers rfl (by decide) rfl).trans (by simp only [bitsOf]; omega)
  have hset : sets ⟨.pf, 0x90028, 4, core % 128 + 256, []⟩ 0x90028 8 = true := by
    have hbit : wfld ⟨.pf, 0x90028, 4, core % 128 + 256, []⟩ 0x90028 8 1 = 1 :=
      (wfld_of_covers rfl (by decide) rfl).trans (by simp only [bitsOf]; omega)
    rw [sets, hbit]; rfl
  have harrive : s.arrive ⟨.pf, 0x90028, 4, core % 128 + 256, []⟩ 0x90028 s.boot.straps = s.decideFence (core % 128) 3 := by
    rw [State.arrive, if_pos rfl, hset, hcore]; rfl
  have hspace : spaceOf ⟨.pf, 0x10090028, 4, core % 128 + 256, []⟩ = .mgmt 0x90028 := spaceOf_pf_mgmt rfl rfl (by decide)
  have hwrite := State.regWrite_mgmt_arrives (s := s) (b := 0x90028) (straps := s.boot.straps) (ok := false)
    (show 4 ≤ 64 by decide) hspace rfl rfl rfl
  rw [harrive] at hwrite
  exact hwrite
end

/-- Settles O34: ten are writes of the PF to one register that holds a value; LATCH of a partition falls in its window, and
FENCE acts when it arrives. -/
theorem managementWritesWaitForTheBoundary : Obligations.ManagementWritesWaitForTheBoundary := by
  unfold Obligations.ManagementWritesWaitForTheBoundary
  intro s p core v hs write
  refine ⟨?_, ?_, ?_, ?_, ?_, ?_, ?_, ?_, ?_, ?_, fun hp hup => ?_, ?_⟩
  · exact State.after_pfWrite reaches_epochCtrl hs 1 rfl
  · exact State.after_pfWrite reaches_hotrowCtrl hs 1 rfl
  · exact State.after_pfWrite reaches_svcCtrl hs 1 rfl
  · exact State.after_pfWrite reaches_hangClear hs 1 rfl
  · exact State.after_pfWrite reaches_fwCmd hs 2 rfl
  · exact State.after_pfWrite reaches_fwCmd hs 3 rfl
  · exact State.after_pfWrite reaches_fwCmd hs 4 rfl
  · exact State.after_pfWrite reaches_crashCtrl hs 0x10000 rfl
  · exact State.after_pfWrite reaches_gcntCtrl hs 1 rfl
  · exact State.after_pfWrite reaches_traceMark hs _ rfl
  · exact State.after_live hs (f := fun s => s.regWrite _ _ _) (State.regWrite_partCntLatch hp hup _ _) rfl rfl rfl rfl
  · exact State.after_live hs (f := fun s => s.pfWrite _ _ _) (State.pfWrite_coreFence s core) rfl rfl rfl rfl

/-! ### They take effect -/

section
variable {s : State} {o n b : Nat}

theorem State.hostOp1_pfWrite (h : PfWriteReaches o n b) (un : List (Nat × Nat × Nat)) (v : Nat) :
    s.hostOp1 un (.reg ⟨.pf, 0x10000000 + o, n, v, []⟩) = s.plainMgmt ⟨.pf, o, n, v, []⟩ b :=
  State.hostOp1_reg_mgmt (h.space v) (h.alone v) h.waits h.low

/-- A marker carries the low 64 bits of what is written. -/
theorem State.marker_mod (s : State) (v writer : Nat) : s.marker (v % 2 ^ 64) writer = s.marker v writer := by
  have hlow : v % 2 ^ 64 % 2 ^ 32 = v % 2 ^ 32 := by omega
  have hhigh : v % 2 ^ 64 / 2 ^ 32 % 2 ^ 32 = v / 2 ^ 32 % 2 ^ 32 := by omega
  rw [State.marker, State.marker, hlow, hhigh]

theorem State.plainMgmt_traceMark (s : State) (v : Nat) : s.plainMgmt ⟨.pf, 0xF0048, 8, v, []⟩ 0xF0048 = s.marker v 1 := by
  have hv : wfld ⟨.pf, 0xF0048, 8, v, []⟩ 0xF0048 0 64 = v % 2 ^ 64 :=
    (wfld_of_covers rfl (by decide) rfl).trans (by rw [bitsOf, Nat.pow_zero, Nat.div_one])
  calc s.plainMgmt ⟨.pf, 0xF0048, 8, v, []⟩ 0xF0048
    _ = s.marker (wfld ⟨.pf, 0xF0048, 8, v, []⟩ 0xF0048 0 64) 1 := rfl
    _ = s.marker v 1 := by rw [hv, State.marker_mod]

/-- What the request of an activation does, by whether a core holds the duty SERVICE (12 R364). -/
theorem State.askActivation_served (h : (s.duty 10).2 = false) :
    s.askActivation = (s.adjSvc fun v => { v with acting := false }).activateTable := by
  have hduty : ((s.adjSvc fun v => { v with acting := true }).duty 10).2 = false := h
  rw [State.askActivation, State.runActivation, hduty]
  rfl

theorem State.askActivation_unserved (h : (s.duty 10).2 = true) :
    s.askActivation = s.adjSvc fun v => { v with acting := true } := by
  have hduty : ((s.adjSvc fun v => { v with acting := true }).duty 10).2 = true := h
  rw [State.askActivation, State.runActivation, hduty, Bool.not_true, Bool.and_false]
  rfl

@[simp] theorem State.duty_raise (s : State) (n d : Nat) : (s.raise n).duty d = s.duty d := by
  obtain ⟨i, hi⟩ := s.raise_eq n
  rw [hi]
  rfl

/-- Which bits a write sets does not depend on who writes. -/
theorem sets_who (a : RegAcc) (who : Agent) (b i : Nat) : sets { a with who := who } b i = sets a b i := rfl

/-- A write of LATCH takes effect: the partition's counters are to be copied at this boundary. -/
theorem State.hostOp1_partCntLatch {p : Nat} (hp : p < Config.partitions) (hup : s.isUp p = true)
    (un : List (Nat × Nat × Nat)) : s.hostOp1 un (.reg ⟨.vf p, 0x80000, 4, 1, []⟩) =
      { s with pcnt := Tbl.set s.pcnt p { s.pcount p with want := true } } := by
  have hspace : spaceOf ⟨.vf p, 0x80000, 4, 1, []⟩ = .win p 0x80000 := spaceOf_vf rfl hp rfl (by decide)
  have hbase : basesOf (.win p 0x80000) ⟨.vf p, 0x80000, 4, 1, []⟩ = [0x80000] := rfl
  have hset : sets ⟨.vf p, 0x80000, 4, 1, []⟩ 0x80000 0 = true := (sets_who ⟨.pf, 0x80000, 4, 1, []⟩ (.vf p) 0x80000 0).trans rfl
  have hlatch : s.plainWin ⟨.vf p, 0x80000, 4, 1, []⟩ p 0x80000 =
      { s with pcnt := Tbl.set s.pcnt p { s.pcount p with want := true } } :=
    if_pos (show 0x80000 = 0x80000 ∧ sets ⟨.vf p, 0x80000, 4, 1, []⟩ 0x80000 0 = true from ⟨rfl, hset⟩)
  simpa only [State.hostOp1, State.applyReg, hspace, hup, if_true, hbase, Space.off, foldS, List.foldl_cons,
    List.foldl_nil] using hlatch
end

/-- Settles O35: each write reaches one register, and what that register's write does is read off it. -/
theorem managementWritesTakeTheirEffect : Obligations.ManagementWritesTakeTheirEffect := by
  unfold Obligations.ManagementWritesTakeTheirEffect
  intro s un p v applied
  refine ⟨?flip, ?hotrow, fun hduty => ?activate, fun hduty => ?waits, ?hang, ?fwActivate, ?fwAbort, ?fwCommit, ?crash, ?gcnt,
    ?mark, fun hp hup => State.hostOp1_partCntLatch hp hup un⟩
  case flip => exact State.hostOp1_pfWrite reaches_epochCtrl un 1
  case hotrow => exact State.hostOp1_pfWrite reaches_hotrowCtrl un 1
  case activate =>
    exact (State.hostOp1_pfWrite reaches_svcCtrl un 1).trans
      (State.askActivation_served (s := s.raise 43) (by rwa [State.duty_raise]))
  case waits =>
    exact (State.hostOp1_pfWrite reaches_svcCtrl un 1).trans
      (State.askActivation_unserved (s := s.raise 43) (by rwa [State.duty_raise]))
  case hang => exact State.hostOp1_pfWrite reaches_hangClear un 1
  case fwActivate => exact State.hostOp1_pfWrite reaches_fwCmd un 2
  case fwAbort => exact State.hostOp1_pfWrite reaches_fwCmd un 3
  case fwCommit => exact State.hostOp1_pfWrite reaches_fwCmd un 4
  case crash => exact State.hostOp1_pfWrite reaches_crashCtrl un 0x10000
  case gcnt => exact State.hostOp1_pfWrite reaches_gcntCtrl un 1
  case mark => exact (State.hostOp1_pfWrite reaches_traceMark un v).trans (State.plainMgmt_traceMark s v)

end Sys2Proof.Machine
end

section
/-! PROOFS. The epoch cycle (08 R241, R246-R250, R254): the fills of the carried sets, the flip, DRAIN, CATCHUP and the
coordinator's wait. -/
namespace Sys2Proof.Machine

/-! ### The fills of the carried sets -/

section
variable {s : State} {u : Nat}

/-- Stores one after another are stores. -/
theorem State.foldS_storing {α : Type} {f : State → α → State} (hf : ∀ (s : State) x, ∃ st, f s x = s.storing st) (l : List α)
    (s : State) : ∃ st, foldS l f s = s.storing st :=
  List.foldlRecOn (motive := fun t => ∃ st, t = s.storing st) l f ⟨s.stores, rfl⟩ fun t ⟨_, ht⟩ x _ => by
    obtain ⟨st, h⟩ := hf t x
    exact ⟨st, by rw [h, ht]; rfl⟩

theorem State.setHalf_eq (s : State) (t : Table) (half : Nat) (r : Nat × Nat) : ∃ st, s.setHalf t half r = s.storing st :=
  State.storeLoc_eq ..

/-- A table whose committed set is filled. -/
def Table.fillCommitted (t : Table) : Table := { t with committed := t.committed.map fun c => { c with filled := true } }

theorem Table.fillCommitted_none {t : Table} (h : t.committed = none) : t.fillCommitted = t := by
  obtain ⟨⟩ := t
  cases h
  rfl

theorem Table.fillCommitted_some {t : Table} {c : RowSet} (h : t.committed = some c) :
    t.fillCommitted = { t with committed := some { c with filled := true } } := by
  rw [Table.fillCommitted, h]
  rfl

theorem Table.fillCommitted_idem (t : Table) : t.fillCommitted.fillCommitted = t.fillCommitted := by
  rw [Table.fillCommitted, Table.fillCommitted, Option.map_map]
  rfl

/-- The state with these stores open, this memory port and these tables. -/
def State.filledWith (s : State) (st : List Host.Cell) (ar : Arb) (tb : Tbl Table) : State :=
  { s with stores := st, arb := ar, tables := tb }

/-- The fill of a table's set opens stores and marks the set as filled; no other table changes. -/
theorem State.fillSet_eq (s : State) (u : Nat) : (∃ st ar tb, s.fillSet u = s.filledWith st ar tb) ∧
    ∀ v, (s.fillSet u).table? v = if v = u then (s.table? v).map Table.fillCommitted else s.table? v := by
  have hsame : (s.table? u).map Table.fillCommitted = s.table? u → s.fillSet u = s →
      (∃ st ar tb, s.fillSet u = s.filledWith st ar tb) ∧
      ∀ v, (s.fillSet u).table? v = if v = u then (s.table? v).map Table.fillCommitted else s.table? v := fun hmap hs => by
    rw [hs]
    refine ⟨⟨s.stores, s.arb, s.tables, rfl⟩, fun v => ?_⟩
    split
    · next hv => rw [hv, hmap]
    · rfl
  cases ht : s.table? u with
  | none => exact hsame (by rw [ht]; rfl) (by rw [State.fillSet, ht])
  | some t =>
    cases hc : t.committed with
    | none =>
      exact hsame (by rw [ht, Option.map_some, Table.fillCommitted_none hc]) (by simp only [State.fillSet, ht, hc])
    | some c =>
      obtain ⟨st, hst⟩ := State.foldS_storing (fun s r => s.setHalf_eq t s.nextHalf r) c.rows (s.presentAt 2 true none c.rows.length)
      have hfill : s.fillSet u = State.adjTable ((s.presentAt 2 true none c.rows.length).storing st) u fun t =>
          { t with committed := some { c with filled := true } } := by
        simp only [State.fillSet, ht, hc, hst]
      rw [hfill]
      refine ⟨⟨st, _, _, rfl⟩, fun v => ?_⟩
      split
      · next hv =>
        rw [hv, State.table?_adjTable_same, ht, Option.map_some, Table.fillCommitted_some hc]
        exact congrArg (Option.map _) ht
      · next hv => exact State.table?_adjTable_other _ _ hv

/-- The fills of several tables' sets. -/
theorem State.fillSets_eq (us : List Nat) (s : State) : (∃ st ar tb, foldS us State.fillSet s = s.filledWith st ar tb) ∧
    ∀ v, (foldS us State.fillSet s).table? v = if v ∈ us then (s.table? v).map Table.fillCommitted else s.table? v := by
  induction us generalizing s with
  | nil => exact ⟨⟨s.stores, s.arb, s.tables, rfl⟩, fun v => rfl⟩
  | cons u us ih =>
    obtain ⟨⟨st, ar, tb, hfirst⟩, htable⟩ := s.fillSet_eq u
    obtain ⟨⟨st', ar', tb', hrest⟩, htables⟩ := ih (s.fillSet u)
    refine ⟨⟨st', ar', tb', hrest.trans (by rw [hfirst]; rfl)⟩, fun v => (htables v).trans ?_⟩
    rw [htable v]
    by_cases hv : v = u
    · rw [if_pos hv, if_pos (List.mem_cons.2 (.inl hv))]
      split
      · rw [Option.map_map, show Table.fillCommitted ∘ Table.fillCommitted = Table.fillCommitted from
          funext Table.fillCommitted_idem]
      · rfl
    · simp only [hv, if_false, List.mem_cons, false_or]

theorem State.scheduleFlip_eq (s : State) : s.scheduleFlip = { s with
    cop := if s.soleDomain = true then { s.cop with flipDue := true } else { s.cop with readyDue := true } } := by
  rw [State.scheduleFlip, apply_ite (f := fun c => ({ s with cop := c } : State))]
  rfl

/-- While PREPARE waits for the carried fills, their end fills every set that is carried and not filled yet, and schedules the
flip. -/
theorem State.carriedFillEnds_preparing (hstop : s.stop.stopped = false) (hduty : s.epochDuty = true) (hphase : s.cop.phase = .prepare)
    (hflip : s.cop.flipDue = false) (hready : s.cop.readyDue = false) (host : List Word) :
    s.carriedFillEnds (.ok host) = (foldS s.unfilled State.fillSet s).scheduleFlip := by
  rw [State.carriedFillEnds, hstop, hduty, hphase, hflip, hready]
  rfl

end

/-! ### DRAIN and the grace period -/

section
variable {s : State} {e : Nat}

theorem State.epochEvent_eq (s : State) : ∃ tr, s.epochEvent = { s with free := s.free + 1, trace := tr } :=
  State.event_eq ..

/-- What Coppice knows once the previous epoch is retired. -/
def Coppice.retired (c : Coppice) : Coppice :=
  { c with prev := none, phase := .catchup, retireDue := false, clearFrom := [], waited := 0 }

theorem State.retire_eq (s : State) : ∃ tr, s.retire = { s with cop := s.cop.retired, free := s.free + 1, trace := tr } :=
  State.epochEvent_eq ({ s with cop := s.cop.retired } : State)

/-- A drained epoch without pins is retired, by a chip alone at once and by one of several when RETIRE has come. -/
theorem State.retirePrevious_drained (hstop : s.stop.stopped = false) (hduty : s.epochDuty = true) (hprev : s.cop.prev = some e)
    (hphase : s.cop.phase = .drain) (hpins : s.epochPins e = 0) (hgo : s.soleDomain = true ∨ s.cop.retireDue = true) :
    s.retirePrevious = s.retire := by
  have hgo' : (s.soleDomain || s.cop.retireDue) = true := by rwa [Bool.or_eq_true]
  have hguard : (s.stop.stopped || s.cop.phase != .drain || s.epochPins e != 0 || !s.epochDuty) = false := by
    rw [hstop, hphase, hpins, hduty]
    rfl
  simp only [State.retirePrevious, hprev, hguard, hgo', Bool.false_eq_true, if_false, if_true]

theorem State.foldS_decideAbort (hs : List AbortTo) (st : Status) (d : Nat) (u : Bool) (s : State) :
    foldS hs (fun s h => s.decideAbort h st d u) s = { s with
      aborts := s.aborts ++ hs.map fun h => { whom := h, st := st, detail := d, urgent := u } } := by
  induction hs generalizing s with
  | nil => simp only [foldS, List.foldl_nil, List.map_nil, List.append_nil]
  | cons h hs ih =>
    refine (ih (s.decideAbort h st d u)).trans ?_
    simp only [State.decideAbort_aborts, List.map_cons, List.append_assoc, List.singleton_append]
    rfl

/-- When the grace period has run out, every holder of the previous epoch is to be aborted urgently. -/
theorem State.graceExpires_over (hstop : s.stop.stopped = false) (hprev : s.cop.prev = some e) (hdone : s.cop.graceDone = false)
    (hover : s.cop.graceMs * 1000000 ≤ s.cop.ran * 64) :
    s.graceExpires = { s with
      aborts := s.aborts ++ (s.holders e).map fun h => { whom := h, st := .epochExpired, detail := 0x02AD, urgent := true }
      cop := { s.cop with
        graceDone := true, expired := s.cop.expired || (s.holders e) != [], waited := 0
        expiredCount := min (2 ^ 32 - 1) (s.cop.expiredCount + (s.holders e).length) } } := by
  have hno : decide (s.cop.ran * 64 < s.cop.graceMs * 1000000) = false := decide_eq_false (Nat.not_lt.2 hover)
  have habort : s.graceExpires = State.adjCop (foldS (s.holders e) (fun s h => s.decideAbort h .epochExpired 0x02AD true) s) fun c =>
      { c with graceDone := true, expired := c.expired || (s.holders e) != [],
               expiredCount := min Config.max32 (c.expiredCount + (s.holders e).length), waited := 0 } := by
    simp only [State.graceExpires, hprev, hstop, hdone, hno, Bool.or_self, Bool.false_eq_true, if_false]
  rw [habort, State.foldS_decideAbort]
  rfl

/-! ### CATCHUP -/

theorem State.catchupEnds_catchup (hstop : s.stop.stopped = false) (hduty : s.epochDuty = true) (hphase : s.cop.phase = .catchup) :
    s.catchupEnds = s.defer .catchup := by
  rw [State.catchupEnds, hstop, hduty, hphase]
  rfl

/-- The state with these stores open, this memory port and this marshal. -/
def State.caughtUp (s : State) (st : List Host.Cell) (ar : Arb) (m : Marshal) : State :=
  { s with stores := st, arb := ar, marshal := m }

/-- What CATCHUP does for the rows of one table. -/
def State.catchUpRows (s : State) (c : Nat × List Nat) : State :=
  match s.table? c.1 with
  | none => s
  | some t =>
    let free := s.retiredSlots t
    (foldS c.2 (fun s i => s.setHalf t s.nextHalf (i, s.mapHalf t i s.cop.half))
      (s.presentAt 2 true none c.2.length)).dropRowLines c.1 free

theorem State.catchupDone_rows (s : State) : s.catchupDone =
    let s2 := (State.adjCop (foldS s.cop.carriedRows State.catchUpRows s) fun c =>
      { c with phase := .opening, carriedRows := [] }).epochEvent
    if s.cop.prepareHeld then s2.beginPrepare else s2 := rfl

theorem State.catchUpRows_eq (s : State) (c : Nat × List Nat) : ∃ st ar m, s.catchUpRows c = s.caughtUp st ar m := by
  rw [State.catchUpRows]
  split
  · exact ⟨s.stores, s.arb, s.marshal, rfl⟩
  · next t ht =>
    obtain ⟨st, hst⟩ := State.foldS_storing (fun s i => s.setHalf_eq t s.nextHalf (i, s.mapHalf t i s.cop.half)) c.2
      (s.presentAt 2 true none c.2.length)
    rw [hst]
    exact ⟨_, _, _, rfl⟩

theorem State.foldS_catchUpRows (l : List (Nat × List Nat)) (s : State) :
    ∃ st ar m, foldS l State.catchUpRows s = s.caughtUp st ar m :=
  List.foldlRecOn (motive := fun t => ∃ st ar m, t = s.caughtUp st ar m) l _ ⟨s.stores, s.arb, s.marshal, rfl⟩
    fun t ⟨_, _, _, ht⟩ c _ => by
      obtain ⟨st, ar, m, h⟩ := t.catchUpRows_eq c
      exact ⟨st, ar, m, by rw [h, ht]; rfl⟩

/-- The end of CATCHUP copies halves, frees slots and opens the phase OPEN; a PREPARE that is held would be entered next. -/
theorem State.catchupDone_eq (hheld : s.cop.prepareHeld = false) : ∃ st ar m tr, s.catchupDone =
    { s.caughtUp st ar m with cop := { s.cop with phase := .opening, carriedRows := [] }, free := s.free + 1, trace := tr } := by
  obtain ⟨st, ar, m, hrows⟩ := State.foldS_catchUpRows s.cop.carriedRows s
  obtain ⟨tr, hevent⟩ := State.epochEvent_eq { s.caughtUp st ar m with cop := { s.cop with phase := .opening, carriedRows := [] } }
  refine ⟨st, ar, m, tr, ?_⟩
  rw [State.catchupDone_rows, hheld, hrows]
  exact hevent

/-! ### The coordinator's wait and the flip -/

/-- A message to the domain: one flit goes out, and the chip holds its own copy. -/
theorem State.sendDomain_eq (s : State) (op : Nat) : ∃ x f, s.sendDomain op = { s with fab := x, out := s.out ++ [.flit f] } ∧
    f.kind = 0x30 ∧ f.eff = s.tick + s.lead ∧ f.w0 = BitVec.ofNat 64 (s.epoch + 2 ^ 32 * op) := by
  obtain ⟨f, hsend, hkind, -, -, -, heff, hw0, -⟩ := s.sendFlit_eq 0x30 s.domainDst (s.tick + s.lead)
    (BitVec.ofNat 64 (s.epoch + 2 ^ 32 * op)) 0 0
  refine ⟨(s.sendDomain op).fab, f, ?_, hkind, heff, hw0⟩
  simp only [State.sendDomain, State.sendEpoch, hsend]

theorem epochOpOf_of_w0 {f : Flit} {op : Nat} (hepoch : e < 2 ^ 32) (hop : op < 2 ^ 8) (hw0 : f.w0 = BitVec.ofNat 64 (e + 2 ^ 32 * op)) :
    epochOpOf f = op := by
  rw [epochOpOf, hw0, BitVec.toNat_ofNat, bitsOf]
  omega

/-- A live command that ends in such a message and a change of what Coppice knows. -/
theorem State.after_sendDomain {f : State → State} {g : Coppice → Coppice} {op : Nat} (hs : s.live) (hepoch : s.epoch < 2 ^ 32)
    (hop : op < 2 ^ 8) (hf : f s = (s.sendDomain op).adjCop g) :
    GoesTo (s.after f) fun t => t = { s with cop := g s.cop, fab := t.fab, out := t.out } ∧
      ∃ x, t.out = s.out ++ [.flit x] ∧ x.kind = 0x30 ∧ epochOpOf x = op ∧ x.eff = s.tick + s.lead := by
  obtain ⟨fab, x, hsend, hkind, heff, hw0⟩ := s.sendDomain_eq op
  rw [hsend] at hf
  exact ⟨_, State.after_live hs hf rfl rfl rfl rfl, rfl, x, rfl, hkind, epochOpOf_of_w0 hepoch hop hw0, heff⟩

/-- FLIP_WAIT_MS has passed at the coordinator of several chips. -/
def State.flipWaited (s : State) : Prop :=
  s.soleDomain = false ∧ s.coordinates = true ∧ s.fab.sync = .locked ∧ s.cop.flipWaitMs * 1000000 ≤ s.cop.waited * 64

/-- Then nothing keeps the end of the wait from being acted on. -/
theorem State.flipWaited_unguarded (hstop : s.stop.stopped = false) (hduty : s.epochDuty = true) (hwait : s.flipWaited) :
    (s.stop.stopped || !s.epochDuty || s.soleDomain || !s.coordinates || s.fab.sync != .locked ||
      decide (s.cop.waited * 64 < s.cop.flipWaitMs * 1000000)) = false := by
  obtain ⟨hsole, hcoord, hsync, hover⟩ := hwait
  have hno : decide (s.cop.waited * 64 < s.cop.flipWaitMs * 1000000) = false := decide_eq_false (Nat.not_lt.2 hover)
  rw [hstop, hduty, hsole, hcoord, hsync, hno]
  rfl

theorem State.flipWaitExpires_prepare (hstop : s.stop.stopped = false) (hduty : s.epochDuty = true) (hwait : s.flipWaited)
    (hphase : s.cop.phase = .prepare) (hsent : s.cop.requestSent = true) (hflip : s.cop.flipSent = false) :
    s.flipWaitExpires = (s.sendDomain 7).adjCop fun c => { c with waited := 0 } := by
  rw [State.flipWaitExpires, State.flipWaited_unguarded hstop hduty hwait, hphase, hsent, hflip]
  rfl

theorem State.flipWaitExpires_drain (hstop : s.stop.stopped = false) (hduty : s.epochDuty = true) (hwait : s.flipWaited)
    (hphase : s.cop.phase = .drain) (hdone : s.cop.graceDone = true) (hretire : s.cop.retireDue = false) :
    s.flipWaitExpires = (s.sendDomain 6).adjCop fun c => { c with waited := 0, clearFrom := [] } := by
  rw [State.flipWaitExpires, State.flipWaited_unguarded hstop hduty hwait, hphase, hdone, hretire]
  rfl

/-- What Coppice knows after a flip from `epoch` at `ftc` that took `rows` with it. -/
def Coppice.flipped (c : Coppice) (epoch ftc : Nat) (rows : List (Nat × List Nat)) : Coppice :=
  { c with half := 1 - c.half, prev := some epoch, phase := .drain, request := none, flipDue := false, ran := 0,
           graceDone := false, carriedRows := rows, lastFlip := ftc % 2 ^ 63, requestSent := false, readyDue := false,
           readySent := false, flipSent := false, readyFrom := [], clearFrom := [], clearSent := false, retireDue := false,
           waited := 0 }

theorem State.flip_eq (s : State) : ∃ tb rows tr, s.flip = { s with
    epoch := nextEpoch s.epoch, tables := tb, cop := s.cop.flipped s.epoch s.ftc rows, free := s.free + 1, trace := tr } := by
  obtain ⟨tr, h⟩ := State.epochEvent_eq _
  exact ⟨_, _, tr, h⟩

end

/-- Settles O58: each clause says that the guards of its event hold, and what is then done. -/
theorem theEpochCycleGoesOn : Obligations.TheEpochCycleGoesOn := by
  unfold Obligations.TheEpochCycleGoesOn
  intro s host e hs hstop hduty
  refine ⟨fun hphase hflip hready => ?filled, fun hprev hphase hpins hgo => ?retired, fun hprev hdone hover => ?expired,
    fun hphase => ?catchup, fun hphase hheld t ht => ?opened,
    fun hsole hcoord hsync hepoch hover => ⟨fun hphase hsent hflip => ?cancel, fun hphase hdone hretire => ?retire⟩, ?flip⟩
  case filled =>
    obtain ⟨⟨st, ar, tb, hfill⟩, htables⟩ := State.fillSets_eq s.unfilled s
    have hends := State.carriedFillEnds_preparing hstop hduty hphase hflip hready host
    rw [hfill, State.scheduleFlip_eq] at hends
    obtain ⟨m, hexec, -⟩ := State.after_stores (f := fun s => s.carriedFillEnds (.ok host)) (st := st)
      (u := { s with arb := ar, tables := tb
                     cop := if s.soleDomain = true then { s.cop with flipDue := true } else { s.cop with readyDue := true } })
      hs hends rfl rfl rfl rfl
    refine ⟨_, hexec, rfl, rfl, rfl, rfl, rfl, fun u x c hu hx hc => ?_⟩
    have hu' := htables u
    rw [hfill, if_pos hu, hx, Option.map_some, Table.fillCommitted_some hc] at hu'
    exact hu'
  case retired =>
    obtain ⟨tr, hretire⟩ := s.retire_eq
    exact ⟨_, State.after_live hs (f := fun s => s.retirePrevious)
      ((State.retirePrevious_drained hstop hduty hprev hphase hpins hgo).trans hretire) rfl rfl rfl rfl, rfl, rfl⟩
  case expired =>
    exact State.after_live hs (f := fun s => s.graceExpires) (State.graceExpires_over hstop hprev hdone hover) rfl rfl rfl rfl
  case catchup => exact State.after_defer hs (f := fun s => s.catchupEnds) (State.catchupEnds_catchup hstop hduty hphase)
  case opened =>
    obtain ⟨st, ar, m, tr, hdone⟩ := State.catchupDone_eq hheld
    have happly : s.applyLater .catchup = s.catchupDone := by
      rw [State.applyLater, hphase]
      rfl
    rw [ht, happly, hdone]
    exact ⟨rfl, rfl, rfl, rfl⟩
  case cancel =>
    exact State.after_sendDomain hs (f := fun s => s.flipWaitExpires) hepoch (by decide)
      (State.flipWaitExpires_prepare hstop hduty ⟨hsole, hcoord, hsync, hover⟩ hphase hsent hflip)
  case retire =>
    exact State.after_sendDomain hs (f := fun s => s.flipWaitExpires) hepoch (by decide)
      (State.flipWaitExpires_drain hstop hduty ⟨hsole, hcoord, hsync, hover⟩ hphase hdone hretire)
  case flip =>
    obtain ⟨tb, rows, tr, hflip⟩ := s.flip_eq
    rw [hflip]
    exact ⟨rfl, rfl, rfl, rfl, rfl⟩

end Sys2Proof.Machine
end

section
/-! PROOFS. A batch that closes with sectors to fetch writes the descriptors of its gather segments on input 6 of the memory port
(08 R235-R237), so BATCH_CLOSE changes the memory port beside the marshal. -/
namespace Sys2Proof.Machine

section
variable {s : State} {b : Batch}

theorem cutSegs_nil {α : Type} (n : Nat) : cutSegs n ([] : List α) = [] := by
  cases n <;> rfl

theorem cutSegs_of_le {α : Type} {l : List α} (hne : l ≠ []) (hlen : l.length ≤ 1024) (n : Nat) : cutSegs (n + 1) l = [l] := by
  cases l with
  | nil => exact absurd rfl hne
  | cons x l =>
    rw [cutSegs, List.take_of_length_le hlen, List.drop_of_length_le hlen, cutSegs_nil]
    exact List.cons_ne_nil x l

/-- Sectors that fit one gather segment are one access of the memory port, and one segment. -/
theorem State.queueSegs_of_le {sectors : List (Nat × List (Nat × Nat))} (hne : sectors ≠ []) (hlen : sectors.length ≤ 1024)
    (s : State) (since : Nat) : s.queueSegs since sectors = (s.present 6 (ceilDiv (8 * sectors.length) 64)).adjMarshal fun m =>
      { m with segs := Tbl.set m.segs m.nextSeg { sectors := sectors, since := since }, nextSeg := m.nextSeg + 1 } := by
  rw [State.queueSegs, cutSegs_of_le hne hlen]
  rfl

/-- The batch that what does not fit in a closing one waits in. -/
def Marshal.leftBatch (m : Marshal) (b : Batch) (tick : Nat) : Option Batch :=
  if b.entries.drop Config.batchEntries = [] then none
  else some { opened := tick, window := m.window, entries := b.entries.drop Config.batchEntries }

/-- The marshal once a batch has closed. -/
def Marshal.closed (m : Marshal) (b : Batch) (tick : Nat) : Marshal := { m with batch := m.leftBatch b tick }

theorem State.closeLocal_due (hb : s.marshal.batch = some b) (hdue : s.batchDue b.opened b.window b.entries.length = true) :
    ∃ tr, s.closeLocal = State.queueSegs { s with marshal := s.marshal.closed b s.tick, free := s.free + 1, trace := tr }
      (s.tick + 1) (s.mergeSectors (sortBy BatchEntry.le (b.entries.take Config.batchEntries))) := by
  obtain ⟨tr, hevent⟩ := State.event_eq { s with marshal := s.marshal.closed b s.tick } 802 0x06 none
    (b.entries.take Config.batchEntries).length
    (s.mergeSectors (sortBy BatchEntry.le (b.entries.take Config.batchEntries))).length s.marshal.window
  refine ⟨tr, ?_⟩
  rw [State.closeLocal, hb]
  simp only [hdue, Bool.not_true, Bool.false_eq_true, if_false]
  exact congrArg (fun t => State.queueSegs t _ _) hevent

theorem State.closeRemotes_nil (h : s.marshal.remotes = []) : s.closeRemotes = s := by
  have hsame : (s.adjMarshal fun m => { m with remotes := [] }) = s := by
    rw [State.adjMarshal, ← h]
  rw [State.closeRemotes, h]
  exact hsame

/-- A batch that closes with sectors for one gather segment, where no remote batch is open, presents the segment's descriptors at
input 6. -/
theorem State.batchCloses_presents (hstop : s.stop.stopped = false) (hb : s.marshal.batch = some b)
    (hdue : s.batchDue b.opened b.window b.entries.length = true) (hremotes : s.marshal.remotes = [])
    {sectors : List (Nat × List (Nat × Nat))}
    (hsectors : s.mergeSectors (sortBy BatchEntry.le (b.entries.take Config.batchEntries)) = sectors) (hne : sectors ≠ [])
    (hlen : sectors.length ≤ 1024) : s.batchCloses.arb = (s.present 6 (ceilDiv (8 * sectors.length) 64)).arb := by
  obtain ⟨tr, hlocal⟩ := State.closeLocal_due hb hdue
  rw [hsectors, State.queueSegs_of_le hne hlen] at hlocal
  have hnil : s.closeLocal.marshal.remotes = [] := by rw [hlocal]; exact hremotes
  have hclose : s.batchCloses = s.closeLocal := by
    rw [State.batchCloses, State.unlessStopped, hstop, if_neg Bool.false_ne_true, State.closeBatch, State.closeRemotes_nil hnil]
  rw [hclose, hlocal]
  rfl

end

/-! ### A machine whose batch closes -/

/-- A READY table of two rows of 32 bytes, by key 77. -/
def sharedTable : Table :=
  { part := 0, num := some 1, state := .ready, rowBytes := 32, format := 0, rows := 2, shards := 1, chip0 := 0, shard := 0, tier := 0,
    cache := 0, shadow := 2, key := 77, slots := 0, map := 0, loadSrc := none, loadFence := none, loadStatus := 0, loadDetail := 0,
    openRows := [], openFailed := false, committed := none, stages := [], stageStatus := 0, stageDetail := 0, stageElem := 0,
    lastEpoch := 0 }

/-- A request segment of chip 3 for row 0 of that table, which awaits the row. -/
def requestOfChip3 : Gather :=
  { tables := [(0, 0)], bags := [], pos := [.local_ 0 0 1 false], peers := [], allPeers := [], xid := 6, lastSent := none, segNo := [],
    noEndpoint := false, lost := none
    serves := some { chip := 3, xid := 6, part := 0, epoch := 0, key := 77, no := 0, last := true, status := 0, rowBytes := 32 } }

/-- The open batch with that row's granule. -/
def rowBatch : Batch := { opened := 0, window := 2, entries := [{ channel := 0, bank := 0, granule := 0, work := 0, pos := 0 }] }

/-- A machine after reset with the table, the segment that it serves and the batch: nothing awaits elements, so the batch is due. -/
def closingMachine : State :=
  { State.reset with
    objs := [(0, { part := 0, tier := 0, size := 2 ^ 20, pages := [0] })], nextObj := 1, tables := [(0, sharedTable)], nextTable := 1
    nextWork := 1
    marshal := { Marshal.reset with
      batch := some rowBatch, gathers := [(0, requestOfChip3)], served := [{ chip := 3, xid := 6, epoch := 0, part := 0 }] } }

theorem closingMachine_live : closingMachine.live := ⟨⟨rfl, rfl, rfl⟩, rfl⟩

theorem closingMachine_sectors :
    closingMachine.mergeSectors (sortBy BatchEntry.le (rowBatch.entries.take Config.batchEntries)) = [(0, [(0, 0)])] := by
  decide

/-- Its batch closes with one transfer at input 6, which had none. -/
theorem closingMachine_presents : (closingMachine.arb.queues.getD 6 []).length = 0 ∧
    (closingMachine.batchCloses.arb.queues.getD 6 []).length = 1 := by
  rw [State.batchCloses_presents (b := rowBatch) rfl rfl (by decide) rfl closingMachine_sectors (by decide) (by decide)]
  decide

/-- Refutes O59: its first clause lets BATCH_CLOSE change nothing but the marshal and the trace, where the descriptors of the
gather segments go to input 6 of the memory port. -/
theorem not_theMarshalGoesOn : ¬ Obligations.TheMarshalGoesOn := by
  unfold Obligations.TheMarshalGoesOn
  intro h
  obtain ⟨hclose, -⟩ := h closingMachine rowBatch 0 0 0 0 0 0 0 0 0 0 0 0 0 [] ⟨0, false, 0, 0, 0⟩ ⟨0, 0, 0, [], false⟩ requestOfChip3
    (Work.fresh (.node 0 0) 0 0 0 0 0 [] 0 0 .notNeeded) sharedTable closingMachine_live rfl
  obtain ⟨t, hexec, hframe, -⟩ := hclose rfl (by decide) rfl
  have harb : t.arb = closingMachine.batchCloses.arb := by
    have hrun : exec .batchClose closingMachine = .next (closingMachine.run fun s => s.batchCloses) := State.after_eq rfl _
    rw [hrun, State.run_eq closingMachine_live.1] at hexec
    injection hexec with ht
    rw [← ht]
  have hsame : t.arb = closingMachine.arb := by rw [hframe]
  obtain ⟨hbefore, hafter⟩ := closingMachine_presents
  rw [← harb, hsame, hbefore] at hafter
  exact absurd hafter (by decide)

end Sys2Proof.Machine
end

section
/-! PROOFS. Requests enter the service (10 R312, R314-R316, R326): a receive descriptor, a header that passes every check, and a
message that finds no slot. -/
namespace Sys2Proof.Machine

section
variable {s : State} {q i : Nat} {r : Request} {l : Listener} {m : Model}

theorem State.unlessStopped_running (hst : s.stop.stopped = false) (f : State → State) : s.unlessStopped f = f s := by
  simp only [State.unlessStopped, hst, Bool.false_eq_true, if_false]

/-! ### The service alone changes -/

theorem State.svc_trans {t u : State} (hst : t = { s with svc := t.svc }) (htu : u = { t with svc := u.svc }) :
    u = { s with svc := u.svc } := by
  rw [htu, hst]

theorem State.adjRequest_svc (s : State) (q : Nat) (f : Request → Request) :
    s.adjRequest q f = { s with svc := (s.adjRequest q f).svc } := rfl

/-- A live command that changes the service alone. -/
theorem State.after_svc {f : State → State} {t : State} (hs : s.live) (hf : f s = t) (ht : t = { s with svc := t.svc }) :
    s.after f = .next t := by
  rw [ht] at hf ⊢
  exact State.after_live hs hf rfl rfl rfl rfl

/-! ### The network side (10 R312, R326) -/

/-- An NX engine posts the first descriptor of this tick, for a slot that its listener has in stock. -/
theorem State.postDesc_stocked {d : RxDesc} (hnx : d.nx < 2) (hl : s.listenerFor d.nx d.qpn = some (i, l))
    (hstock : l.stock.contains d.slot = true) (hfirst : s.svc.descs = []) :
    s.postDesc d = { s with svc := { s.svc with descs := [d] } } := by
  have hengine : ¬ 2 ≤ d.nx := Nat.not_le.2 hnx
  simp only [State.postDesc, hl, hstock, hfirst, List.all_nil, Bool.and_self, hengine, Bool.true_eq_false, or_self, if_false,
    List.nil_append, State.adjSvc]

theorem State.rnrNak_listener (hl : Tbl.get? s.svc.listeners i = some l) :
    s.rnrNak i = (s.adjList i fun c => { c with noslot := satInc 32 c.noslot }).send (.rnr i) := by
  simp only [State.rnrNak, hl, Option.isSome_some, if_true]

/-! ### Changes of one request -/

theorem State.adjRequest_adjRequest (s : State) (q : Nat) (f g : Request → Request) :
    (s.adjRequest q f).adjRequest q g = s.adjRequest q fun x => g (f x) := by
  simp only [State.adjRequest, State.adjSvc, Tbl.adjust_adjust]

@[simp] theorem State.request?_adjRequest_same (s : State) (q : Nat) (f : Request → Request) :
    (s.adjRequest q f).request? q = (s.request? q).map f := Tbl.get?_adjust_same s.svc.requests q f

theorem State.request?_adjRequest_other (s : State) {q k : Nat} (f : Request → Request) (h : k ≠ q) :
    (s.adjRequest q f).request? k = s.request? k := Tbl.get?_adjust_other s.svc.requests f h

@[simp] theorem State.request?_adjListener (s : State) (i k : Nat) (f : Listener → Listener) :
    (s.adjListener i f).request? k = s.request? k := rfl

/-! ### A header that passes every check (10 R314-R316) -/

/-- A request as its header describes it, for a model. -/
def State.parsed (s : State) (r : Request) (m : Model) : Request :=
  let limit := (s.svcClass (s.hdr r 6 1 % 16)).deadlineUs
  { r with
    cls := s.hdr r 6 1 % 16, reqId := s.hdr r 16 8, ncand := s.hdr r 12 4, model := some m
    nresult := if s.hdr r 28 4 = 0 then s.hdr r 12 4 else s.hdr r 28 4
    deadline := r.arrival % 2 ^ 63 + (if s.hdr r 24 4 = 0 then limit else min (s.hdr r 24 4) limit) * 1000 }

/-- The service with a request as number `n` of its listener. -/
def State.numbered (s : State) (q : Nat) (r : Request) (n : Nat) : State :=
  (s.adjListener r.lno fun l => { l with seq := n }).adjRequest q fun _ => { r with num := n }

theorem State.numbered_svc (s : State) (q : Nat) (r : Request) (n : Nat) :
    s.numbered q r n = { s with svc := (s.numbered q r n).svc } := rfl

theorem State.numbered_eq (s : State) (q : Nat) (r : Request) (n : Nat) :
    ((s.adjRequest q fun _ => r).adjListener r.lno fun l => { l with seq := n }).adjRequest q (fun x => { x with num := n }) =
      s.numbered q r n :=
  State.adjRequest_adjRequest (s.adjListener r.lno fun l => { l with seq := n }) q (fun _ => r) fun x => { x with num := n }

/-- It is numbered, and Clipper decides on it. -/
theorem State.parseHeader_passes (hrx : r.rx = 0) (hok : s.hdrOk r = true) (hl : Tbl.get? s.svc.listeners r.lno = some l)
    (hopen : l.isOpen = true) (hclosed : r.lst.closed = false) (hm : r.modelFor (s.hdr r 8 4) = some m) (hsome : s.hdr r 12 4 ≠ 0)
    (hmax : s.hdr r 12 4 ≤ m.maxCand) (hres : s.hdr r 28 4 ≤ s.hdr r 12 4) : s.parseHeader q r =
      (s.numbered q (s.parsed r m) (l.seq + 1)).clip q { s.parsed r m with num := l.seq + 1 } := by
  have hcode : ¬ r.rx ≠ 0 := fun h => h hrx
  have hshape : ∀ c id nc nr mo dl,
      s.hdrOk { r with cls := c, reqId := id, ncand := nc, nresult := nr, model := mo, deadline := dl } = true :=
    fun _ _ _ _ _ _ => hok
  have hcount : ¬ (s.hdr r 12 4 = 0 ∨ m.maxCand < s.hdr r 12 4 ∨
      s.hdr r 12 4 < if s.hdr r 28 4 = 0 then s.hdr r 12 4 else s.hdr r 28 4) := by
    split <;> omega
  simp only [State.parseHeader, if_neg hcode, hshape, hl, hopen, hclosed, hm, if_neg hcount, if_false, Bool.not_true,
    Bool.not_false, Bool.and_self, Bool.false_eq_true]
  exact congrArg (State.clip · q _) (s.numbered_eq q (s.parsed r m) (l.seq + 1))

/-- Clipper holds a request that it has no reason to refuse. -/
theorem State.clip_holds (hshed : s.shedNow r.cls = false) (hlate : s.lateNow r = false)
    (hchip : (s.heldBy fun _ => true) < 4096)
    (hpart : (s.heldBy fun p => p == r.lst.part) < (s.part r.lst.part).quota.requests) :
    s.clip q r = s.adjRequest q fun x => { x with held := true, st := .queued } := by
  simp only [State.clip, hshed, hlate, Nat.not_le.2 hchip, Nat.not_le.2 hpart, Bool.false_eq_true, if_false]

theorem State.headerArrival_reading (hr : s.request? q = some r) (hst : r.st = .reading) (host : List Word) :
    s.headerArrival q (.ok host) = s.parseHeader q r := by
  simp only [State.headerArrival, hr, hst, ne_eq, not_true_eq_false, if_false]

/-- The request as its number and a later change leave it. -/
theorem State.request?_adjRequest_numbered (hr : s.request? q = some r) (x : Request) (n : Nat) (f : Request → Request) :
    ((s.numbered q x n).adjRequest q f).request? q = some (f { x with num := n }) := by
  rw [State.request?_adjRequest_same, State.numbered, State.request?_adjRequest_same, State.request?_adjListener, hr,
    Option.map_some, Option.map_some]

end

/-- Settles O42: a header that passes every check is numbered by its parse and held by Clipper. -/
theorem requestsEnterTheService : Obligations.RequestsEnterTheService := by
  unfold Obligations.RequestsEnterTheService
  intro s d q i r r1 m host l u hs hst
  refine ⟨fun hnx hbytes hqpn hrx hl hstock hfirst => ?descriptor,
    fun hr hreading hrx hok hl hopen hclosed hm hsome hmax hres hu hr1 hshed hlate hroom => ?header, fun hl => ?notReady⟩
  case descriptor =>
    refine State.after_live hs (f := fun s => s.postDesc _) ?_ rfl rfl rfl rfl
    rw [Nat.mod_eq_of_lt hbytes, Nat.mod_eq_of_lt hqpn, Nat.mod_eq_of_lt hrx]
    exact State.postDesc_stocked hnx hl hstock hfirst
  case header =>
    obtain rfl : r1 = { s.parsed r m with num := l.seq + 1 } := by rw [hr1, hu]; rfl
    obtain ⟨hchip, hpart⟩ := hroom _ rfl
    have hholds : s.unlessStopped (fun s => s.headerArrival q (.ok host)) =
        (s.numbered q (s.parsed r m) (l.seq + 1)).adjRequest q fun x => { x with held := true, st := .queued } := by
      rw [State.unlessStopped_running hst, State.headerArrival_reading hr hreading,
        State.parseHeader_passes hrx hok hl hopen hclosed hm hsome hmax hres]
      exact State.clip_holds hshed hlate hchip hpart
    have hframe := State.svc_trans (s.numbered_svc q (s.parsed r m) (l.seq + 1)) <|
      State.adjRequest_svc _ q fun x => { x with held := true, st := .queued }
    refine ⟨_, State.after_svc hs hholds hframe, hframe, ?_, ?_, fun k hk => ?_⟩
    · exact State.request?_adjRequest_numbered hr _ _ _
    · exact (Tbl.get?_adjust_same s.svc.listeners r.lno fun y => { y with seq := l.seq + 1 }).trans (by rw [hl, Option.map_some])
    · rw [State.request?_adjRequest_other _ _ hk, State.numbered, State.request?_adjRequest_other _ _ hk,
        State.request?_adjListener]
  case notReady =>
    exact ⟨_, State.after_live hs (f := fun s => s.rnrNak i) (State.rnrNak_listener hl) rfl rfl rfl rfl, rfl,
      congrArg ListCount.noslot (Tbl.getD_set_same ..)⟩

end Sys2Proof.Machine
end

section
/-! PROOFS. Requests leave the service (10 R319, R322), listeners open (10 R311; 02 R61), and the service starts (10 R309, R310). -/
namespace Sys2Proof.Machine

section
variable {s : State} {q i ck : Nat} {r : Request} {y : Listener}

/-! ### A deadline and the end of a send (10 R319, R322) -/

theorem State.requestDeadline_aborts {l since ep : Nat} (hr : s.request? q = some r) (hst : r.st = .launched l since ep)
    (hdue : r.deadline ≤ s.tick * 64) (hlate : (s.svcClass r.cls).lateOk = false) :
    s.requestDeadline q = s.decideAbort (.launch l) .deadline 0x02C8 true := by
  have hover : ¬ s.tick * 64 < r.deadline := Nat.not_lt.2 hdue
  simp only [State.requestDeadline, hr, hst, hover, hlate, Bool.false_eq_true, or_self, if_false]

/-- A listener with one more slot in its receive queue. -/
def Listener.stocked (k : Nat) (y : Listener) : Listener := { y with stock := y.stock ++ [k] }

theorem State.restock_served (hy : Tbl.get? s.svc.listeners r.lno = some y) (hsame : y.same r.lst = true) (hclosed : y.closed = false)
    (hused : y.stock.contains r.slot = false) (hslot : r.slot < y.slots) : s.restock r = { s with
      svc := { s.svc with listeners := Tbl.adjust s.svc.listeners r.lno (Listener.stocked r.slot) }
      out := s.out ++ [.stock y.port r.lno r.slot] } := by
  have hin : ¬ y.slots ≤ r.slot := Nat.not_le.2 hslot
  simp only [State.restock, hy, hsame, hclosed, hused, hin, decide_false, Bool.not_true, Bool.or_self, Bool.false_eq_true, if_false]
  rfl

theorem State.sendDone_sending {nx : Nat} (hr : s.request? q = some r) (hst : r.st = .sending) (hport : r.lst.port = nx) :
    s.sendDone nx q = (s.dropRequest q).restock r := by
  simp only [State.sendDone, hr, hst, hport, and_self, if_true]

/-! ### Victims (02 R60, R61; 10 R311) -/

theorem minBy_eq_none {α : Type} {f : α → Nat} {l : List α} : minBy f l = none ↔ l = [] := by
  cases l with
  | nil => exact ⟨fun _ => rfl, fun _ => rfl⟩
  | cons x xs =>
    refine ⟨fun h => ?_, nofun⟩
    simp only [minBy] at h
    split at h
    · cases h
    · split at h <;> cases h

theorem State.lru_eq_none {l : List Nat} : s.lru l = none ↔ l = [] := minBy_eq_none

/-- A load finds no victim where no context that may be evicted is of its partition, or of one above its RES_MIN. -/
theorem State.victim_eq_none {p : Nat} : s.victim p = none ↔ ∀ k ∈ Tbl.keys s.ctxs, s.evictable k = true →
    s.resCount (keyPart k) ≤ (s.part (keyPart k)).quota.resMin ∧ keyPart k ≠ p := by
  have hboth : s.victim p = none ↔
      ((Tbl.keys s.ctxs).filter s.evictable).filter
        (fun k => decide ((s.part (keyPart k)).quota.resMin < s.resCount (keyPart k))) = [] ∧
      ((Tbl.keys s.ctxs).filter s.evictable).filter (fun k => keyPart k == p) = [] := by
    rw [← State.lru_eq_none (s := s), ← State.lru_eq_none (s := s), State.victim]
    split
    next k hk => simp only [hk, reduceCtorEq, false_and]
    next hk => simp only [hk, true_and]
  simp only [hboth, List.filter_eq_nil_iff, List.mem_filter, decide_eq_true_eq, beq_iff_eq, Nat.not_lt]
  exact ⟨fun ⟨hmin, hpart⟩ k hk hev => ⟨hmin k ⟨hk, hev⟩, hpart k ⟨hk, hev⟩⟩,
    fun h => ⟨fun k ⟨hk, hev⟩ => (h k hk hev).1, fun k ⟨hk, hev⟩ => (h k hk hev).2⟩⟩

/-- A listener, opened. -/
def Listener.opened (y : Listener) : Listener := { y with isOpen := true }

/-- The contexts of open listeners stay permanent when another opens. -/
theorem State.mem_permanent_opened {k : Nat} (h : k ∈ s.permanent) : k ∈ (s.adjListener i Listener.opened).permanent := by
  obtain ⟨e, he, hk⟩ := List.mem_map.1 h
  obtain ⟨hmem, hopen⟩ := List.mem_filter.1 he
  by_cases hi : e.1 = i
  · exact List.mem_map.2 ⟨(e.1, e.2.opened), List.mem_filter.2 ⟨List.mem_map.2 ⟨e, hmem, if_pos hi⟩, rfl⟩, hk⟩
  · exact List.mem_map.2 ⟨e, List.mem_filter.2 ⟨List.mem_map.2 ⟨e, hmem, if_neg hi⟩, hopen⟩, hk⟩

theorem State.evictable_of_opened {k : Nat} (h : (s.adjListener i Listener.opened).evictable k = true) :
    s.evictable k = true := by
  simp only [State.evictable, Bool.and_eq_true, Bool.not_eq_true', List.contains_eq_mem, decide_eq_false_iff_not] at h ⊢
  obtain ⟨⟨hres, hbusy⟩, hperm⟩ := h
  exact ⟨⟨hres, hbusy⟩, fun hk => hperm (State.mem_permanent_opened hk)⟩

theorem State.victim_opened {p : Nat} (h : s.victim p = none) : (s.adjListener i Listener.opened).victim p = none :=
  State.victim_eq_none.2 fun k hk hev => State.victim_eq_none.1 h k hk (State.evictable_of_opened hev)

/-! ### A context takes a slot (02 R61, R62) -/

/-- What taking a slot changes, a victim's eviction included. -/
def State.slotting (s : State) (cs : Tbl Ctx) (ls : List CtxLoad) (rs : Tbl Ring) (ps : Tbl Part) (a : Arb) : State :=
  { s with ctxs := cs, loads := ls, rings := rs, parts := ps, arb := a }

/-- The state in which a context has taken a resident slot. -/
def State.seat (s : State) (ck : Nat) : State :=
  (({ s.present 4 16 with loads := s.loads.filter fun l => l.key != ck } : State).adjCtx ck fun c =>
    { c with resident := true, lastUse := s.tick }).adjCounts (keyPart ck) fun c => { c with ctxLoads := satInc 32 c.ctxLoads }

theorem State.seat_eq (s : State) (ck : Nat) : s.seat ck = { s with
    ctxs := (s.seat ck).ctxs, loads := s.loads.filter fun l => l.key != ck, parts := (s.seat ck).parts, arb := (s.seat ck).arb } :=
  rfl

theorem State.ctx?_seat_same {c : Ctx} (hc : s.ctx? ck = some c) :
    (s.seat ck).ctx? ck = some { c with resident := true, lastUse := s.tick } :=
  (State.ctx?_adjCtx_same s ck fun c => { c with resident := true, lastUse := s.tick }).trans (congrArg (Option.map _) hc)

theorem State.ctx?_seat_other {k : Nat} (hk : k ≠ ck) : (s.seat ck).ctx? k = s.ctx? k :=
  State.ctx?_adjCtx_other s (fun c => { c with resident := true, lastUse := s.tick }) hk

theorem State.counts_seat (s : State) (ck : Nat) : ((s.seat ck).part (keyPart ck)).counts =
    { (s.part (keyPart ck)).counts with ctxLoads := satInc 32 (s.part (keyPart ck)).counts.ctxLoads } :=
  State.counts_adjCounts s (keyPart ck) fun c => { c with ctxLoads := satInc 32 c.ctxLoads }

theorem State.takeSlot_resident {c : Ctx} (hc : s.ctx? ck = some c) (hres : c.resident = true) : s.takeSlot ck = s := by
  simp only [State.takeSlot, hc, hres, Bool.true_or, if_true]

theorem State.takeSlot_free {c : Ctx} (hc : s.ctx? ck = some c) (hres : c.resident = false) (hlost : c.lost = false)
    (hfree : s.slotsUsed < 256) : s.takeSlot ck = s.seat ck := by
  have hslot : s.slotsUsed < Config.residentSlots := hfree
  simp only [State.takeSlot, hc, hres, hlost, hslot, Bool.or_self, Bool.false_eq_true, if_false, if_true]
  rfl

theorem State.takeSlot_waits {c : Ctx} (hc : s.ctx? ck = some c) (hres : c.resident = false) (hlost : c.lost = false)
    (hfull : 256 ≤ s.slotsUsed) (hvictim : s.victim (keyPart ck) = none) : s.takeSlot ck = s.queueLoad ck := by
  have hslot : ¬ s.slotsUsed < Config.residentSlots := Nat.not_lt.2 hfull
  simp only [State.takeSlot, hc, hres, hlost, hslot, hvictim, Bool.or_self, Bool.false_eq_true, if_false]

theorem State.queueLoad_first (h : s.loads = []) :
    s.queueLoad ck = { s with loads := [{ key := ck, loading := false, waited := false }] } := by
  simp only [State.queueLoad, h, List.any_nil, Bool.false_eq_true, if_false, List.nil_append]

theorem State.queueLoad_eq (s : State) (ck : Nat) : ∃ ls, s.queueLoad ck = { s with loads := ls } := by
  simp only [State.queueLoad]
  split
  · exact ⟨s.loads, rfl⟩
  · exact ⟨_, rfl⟩

theorem State.evict_eq (s : State) (ck : Nat) : ∃ cs ls rs, s.evict ck = s.slotting cs ls rs s.parts s.arb := by
  simp only [State.evict]
  split
  · obtain ⟨ls, hls⟩ := State.queueLoad_eq _ ck
    exact ⟨_, ls, _, hls⟩
  · exact ⟨_, s.loads, s.rings, rfl⟩

/-- What a context that asks for a slot gets: none if it has one, a free one, that of a victim, or a place in the queue. -/
theorem State.takeSlot_cases (s : State) (ck : Nat) : s.takeSlot ck = s ∨ s.takeSlot ck = s.seat ck ∨
    (∃ v, s.takeSlot ck = ((s.evict v).present 4 16).seat ck) ∨ s.takeSlot ck = s.queueLoad ck := by
  simp only [State.takeSlot]
  split
  · exact .inl rfl
  · split
    · exact .inl rfl
    · split
      · exact .inr (.inl rfl)
      · split
        · exact .inr (.inr (.inl ⟨_, rfl⟩))
        · exact .inr (.inr (.inr rfl))

theorem State.takeSlot_eq (s : State) (ck : Nat) : ∃ cs ls rs ps a, s.takeSlot ck = s.slotting cs ls rs ps a := by
  obtain h | h | ⟨v, h⟩ | h := s.takeSlot_cases ck
  · exact ⟨s.ctxs, s.loads, s.rings, s.parts, s.arb, h⟩
  · exact ⟨_, _, _, _, _, h.trans (s.seat_eq ck)⟩
  · obtain ⟨cs, ls, rs, hev⟩ := s.evict_eq v
    rw [hev] at h
    exact ⟨_, _, _, _, _, h.trans (State.seat_eq _ ck)⟩
  · obtain ⟨ls, hls⟩ := s.queueLoad_eq ck
    exact ⟨_, _, _, _, _, h.trans hls⟩

/-! ### A listener opens (10 R311) -/

/-- What a listener's opening is for the context that asks next: a change of the service that makes no victim. -/
theorem State.adjListener_opened (hy : Tbl.get? s.svc.listeners i = some y) : ∃ v : Svc,
    s.adjListener i Listener.opened = { s with svc := v } ∧ Tbl.get? v.listeners i = some y.opened ∧
    ∀ p, s.victim p = none → State.victim { s with svc := v } p = none :=
  ⟨_, rfl, (Tbl.get?_adjust_same ..).trans (congrArg (Option.map _) hy), fun _ => State.victim_opened⟩

/-- A listener that is due opens, and its context asks for a slot. -/
theorem State.openListener_due (hy : Tbl.get? s.svc.listeners i = some y) (hactive : s.svc.st = 2) (hopen : y.isOpen = false)
    (hclosed : y.closed = false) (hdue : y.openFence = none ∨ ∃ f, y.openFence = some f ∧
      (s.fenceView (pkey y.part f)).2 = false ∧ y.openValue ≤ (s.fenceView (pkey y.part f)).1) :
    s.openListener i = (s.adjListener i Listener.opened).takeSlot (pkey y.part y.ctx) := by
  obtain hnone | ⟨f, hf, hok, hval⟩ := hdue
  · simp only [State.openListener, hy, hactive, hopen, hclosed, hnone, and_self, if_true]
    rfl
  · simp only [State.openListener, hy, hactive, hopen, hclosed, hf, hok, hval, Bool.not_false, decide_true, Bool.and_self, and_self,
      if_true]
    rfl

theorem State.openListener_cases (s : State) (i : Nat) :
    s.openListener i = s ∨ ∃ ck, s.openListener i = (s.adjListener i Listener.opened).takeSlot ck := by
  unfold State.openListener
  split
  · exact .inl rfl
  · exact iteInduction (motive := fun t => t = s ∨ ∃ ck, t = (s.adjListener i Listener.opened).takeSlot ck)
      (fun _ => .inr ⟨_, rfl⟩) fun _ => .inl rfl

/-! ### The service starts (10 R309, R310; 12 R352) -/

theorem State.serviceStarted_waits (hduty : (s.duty 10).2 = false) (hst : s.svc.st = 1) (himage : s.svc.image ≠ [])
    (hfirst : s.later.any Later.isSvcStart = false) (io : Io) : s.serviceStarted io = s.defer (.svcStart io) := by
  simp only [State.serviceStarted, hst, himage, hduty, hfirst, ne_eq, not_true_eq_false, Bool.false_eq_true, or_self, if_false]

theorem State.serviceStarts_refused (hduty : (s.duty 10).2 = false) (hst : s.svc.st = 1) (himage : s.svc.image ≠ []) {x : Nat × Nat}
    (hcheck : s.tableCheck s.svc.image false = some x) (io : Io) :
    s.serviceStarts io = (s.svcFail x 0 0).adjSvc fun v => { v with st := 3 } := by
  simp only [State.serviceStarts, hst, himage, hduty, hcheck, ne_eq, not_true_eq_false, Bool.false_eq_true, or_self, if_false]

/-- The service with a table in effect. -/
def State.serves (s : State) (t : List Host.Cell) : State := (s.adoptTable t).adjSvc fun v => { v with st := 2 }

/-- A table that passes, without start entries, takes effect, and every listener of it is stocked. -/
theorem State.serviceStarts_adopts (hduty : (s.duty 10).2 = false) (hst : s.svc.st = 1) (himage : s.svc.image ≠ [])
    (hcheck : s.tableCheck s.svc.image false = none) (hstart : tblStart s.svc.image = 0) (hblob : tn s.svc.image 28 4 = 0)
    (hobjs : s.objectCheck s.svc.image = none) (io : Io) : s.serviceStarts io =
      foldS (Tbl.keys (s.serves s.svc.image).svc.listeners) State.stockListener (s.serves s.svc.image) := by
  simp only [State.serviceStarts, hst, himage, hduty, hcheck, hstart, hblob, hobjs, ne_eq, not_true_eq_false, Bool.false_eq_true,
    or_self, if_false, if_true, List.range_zero, State.placeBlobs, State.runStartList]
  rfl

/-- Of the service the listeners alone differ. -/
def State.SameButListeners (s t : State) : Prop := ∃ ls, t.svc = { s.svc with listeners := ls }

theorem State.SameButListeners.of_svc {t : State} (h : t.svc = s.svc) : s.SameButListeners t := ⟨s.svc.listeners, h⟩

theorem State.SameButListeners.trans {t u : State} (hst : s.SameButListeners t) (htu : t.SameButListeners u) :
    s.SameButListeners u := by
  obtain ⟨ls, hls⟩ := hst
  obtain ⟨ms, hms⟩ := htu
  exact ⟨ms, by rw [hms, hls]⟩

theorem State.SameButListeners.foldS {α : Type} {f : State → α → State} (hf : ∀ s x, State.SameButListeners s (f s x)) (l : List α)
    (s : State) : s.SameButListeners (foldS l f s) := by
  induction l generalizing s with
  | nil => exact .of_svc rfl
  | cons x xs ih => exact (hf s x).trans (ih (f s x))

theorem State.sameButListeners_openListener (s : State) (i : Nat) : s.SameButListeners (s.openListener i) := by
  obtain h | ⟨ck, h⟩ := s.openListener_cases i
  · exact .of_svc (congrArg State.svc h)
  · obtain ⟨cs, ls, rs, ps, a, hslot⟩ := State.takeSlot_eq (s.adjListener i Listener.opened) ck
    have hsvc := congrArg State.svc (h.trans hslot)
    exact ⟨_, hsvc⟩

theorem State.sameButListeners_stockListener (s : State) (i : Nat) : s.SameButListeners (s.stockListener i) := by
  simp only [State.stockListener]
  split
  · exact .of_svc rfl
  next l _ =>
    have hsent := State.SameButListeners.foldS (fun s k => .of_svc (State.send_svc s (.stock l.port i k))) l.stock s
    split
    · exact hsent.trans (State.sameButListeners_openListener _ i)
    · exact hsent

end

/-- Settles O43: an opening goes by what its context gets of a slot, a start by the checks of its table; what follows the adoption
of a table changes the listeners alone. -/
theorem requestsLeaveTheService : Obligations.RequestsLeaveTheService := by
  unfold Obligations.RequestsLeaveTheService
  intro s q i nx l ok r y since ep io hs hst
  refine ⟨fun hr hlaunched hdue hlate => ?deadline, fun hr hsending hport hy hsame hclosed hused hslot => ?send,
    fun hy hactive hopen hclosed hdue => ?opens, fun hduty hst1 himage hfirst => ?waits,
    fun x hduty hst1 himage hcheck => ?refused, fun hduty hst1 himage hcheck hstart hblob hobjs t ht => ?adopts⟩
  case deadline =>
    exact State.after_live hs (f := fun s => s.unlessStopped fun s => s.requestDeadline q)
      ((State.unlessStopped_running hst _).trans (State.requestDeadline_aborts hr hlaunched hdue hlate)) rfl rfl rfl rfl
  case send =>
    have hdone := (State.sendDone_sending hr hsending hport).trans
      (State.restock_served (s := s.dropRequest q) hy hsame hclosed hused hslot)
    refine ⟨_, State.after_live hs (f := fun s => s.sendDone nx q) hdone rfl rfl rfl rfl, rfl, Tbl.get?_erase_same .., ?_⟩
    exact (Tbl.get?_adjust_same ..).trans (congrArg (Option.map _) hy)
  case opens =>
    obtain ⟨v, hv, hlisted, hvictims⟩ := State.adjListener_opened (s := s) hy
    have hopens : s.unlessStopped (fun s => s.openListener i) = State.takeSlot { s with svc := v } (pkey y.part y.ctx) := by
      rw [State.unlessStopped_running hst, State.openListener_due hy hactive hopen hclosed hdue, hv]
    obtain ⟨cs, ls, rs, ps, a, hslot⟩ := State.takeSlot_eq { s with svc := v } (pkey y.part y.ctx)
    refine ⟨_, State.after_live hs (f := fun s => s.unlessStopped fun s => s.openListener i) (hopens.trans hslot) rfl rfl rfl rfl,
      hlisted, ?_⟩
    rintro ck c rfl hc
    rw [← hslot]
    refine ⟨fun hres => ?resident, fun hres hlost hfree => ?free, fun hres hlost hfull hvictim hloads => ?full⟩
    case resident =>
      rw [State.takeSlot_resident (s := { s with svc := v }) hc hres]
    case free =>
      rw [State.takeSlot_free (s := { s with svc := v }) hc hres hlost hfree]
      exact ⟨State.seat_eq _ _, State.ctx?_seat_same hc, fun k hk => State.ctx?_seat_other hk.symm, State.counts_seat _ _⟩
    case full =>
      rw [State.takeSlot_waits (s := { s with svc := v }) hc hres hlost hfull (hvictims _ hvictim),
        State.queueLoad_first (s := { s with svc := v }) hloads]
  case waits =>
    exact State.after_live hs (f := fun s => s.unlessStopped fun s => s.serviceStarted io)
      ((State.unlessStopped_running hst _).trans (State.serviceStarted_waits hduty hst1 himage hfirst io)) rfl rfl rfl rfl
  case refused => exact State.serviceStarts_refused hduty hst1 himage hcheck io
  case adopts =>
    obtain ⟨ls, hls⟩ := State.SameButListeners.foldS State.sameButListeners_stockListener
      (Tbl.keys (s.serves s.svc.image).svc.listeners) (s.serves s.svc.image)
    rw [ht, State.applyLater, State.serviceStarts_adopts hduty hst1 himage hcheck hstart hblob hobjs io, hls]
    exact ⟨rfl, rfl, rfl, rfl⟩

end Sys2Proof.Machine
end

section
/-! PROOFS. Faults of endpoints and of Mahorn's control path (11 R331-R334, R339): the watchdog of a segment, the declaration of
an endpoint, and a machine check. -/
namespace Sys2Proof.Machine

section
variable {s : State} {e w i kind code : Nat} {g : Seg}

/-! ### The watchdog (11 R332) -/

/-- The watchdog of a segment of a command, run out, decides the abort of the entry above that command. -/
theorem State.segWatchdog_expires (hst : s.stop.stopped = false) (hseg : (s.ep e).seg = some g) (howner : g.owner = .work w i)
    (hfirst : g.watched = none) (hlong : g.segNs + s.hangUs * 1000 < g.ran) : s.segWatchdog e =
      (s.adjEp e fun x => { x with seg := some { g with watched := some (s.tick + 1) } }).decideAbort (s.entryOf w) .timeout
        0x02E7 true := by
  have hover : ¬ g.ran ≤ g.segNs + s.hangUs * 1000 := Nat.not_le.2 hlong
  simp only [State.segWatchdog, hseg, hst, hfirst, hover, Option.isSome_none, decide_false, Bool.or_self, Bool.false_eq_true,
    if_false, howner]
  rfl

/-! ### The declaration of an endpoint (11 R333) -/

/-- The fault registers once an endpoint of a core is declared, with its capture record. -/
def Faults.declares (core kind : Nat) (record : List Byte) (f : Faults) : Faults :=
  let f1 : Faults := { f with hang := true, fencing := f.fencing ++ [(core, kind)] }
  if f.recs.length < 16 then { f1 with recs := f1.recs ++ [record] } else { f1 with lost := satInc 16 f1.lost }

section
variable {f : Faults} {core : Nat} {record : List Byte}

theorem Faults.declares_room (h : f.recs.length < 16) : f.declares core kind record =
    { f with hang := true, fencing := f.fencing ++ [(core, kind)], recs := f.recs ++ [record] } := if_pos h

theorem Faults.declares_full (h : 16 ≤ f.recs.length) : f.declares core kind record =
    { f with hang := true, fencing := f.fencing ++ [(core, kind)], lost := satInc 16 f.lost } := if_neg (Nat.not_lt.2 h)

/-- The capture record is kept while fewer than 16 are, and counted as lost otherwise. -/
theorem Faults.declares_captures :
    (f.recs.length < 16 → (f.declares core kind record).recs = f.recs ++ [record] ∧ (f.declares core kind record).lost = f.lost) ∧
    (16 ≤ f.recs.length → (f.declares core kind record).recs = f.recs ∧
      (f.declares core kind record).lost = satInc 16 f.lost) := by
  refine ⟨fun h => ?_, fun h => ?_⟩
  · rw [Faults.declares_room h]
    exact ⟨rfl, rfl⟩
  · rw [Faults.declares_full h]
    exact ⟨rfl, rfl⟩

/-- Whether its record is written or counted, HANG is set, the core's fencing is decided and the vector stays. -/
theorem Faults.declares_always : (f.declares core kind record).hang = true ∧
    (f.declares core kind record).fencing = f.fencing ++ [(core, kind)] ∧ (f.declares core kind record).vector = f.vector := by
  by_cases h : f.recs.length < 16
  · rw [Faults.declares_room h]
    exact ⟨rfl, rfl, rfl⟩
  · rw [Faults.declares_full (Nat.not_lt.1 h)]
    exact ⟨rfl, rfl, rfl⟩

end

/-- An endpoint once it is declared. -/
def Ep.declared (x : Ep) : Ep := { x with hung := true }

/-- A declaration sets HUNG, captures, and sends the message of the PF. -/
theorem State.declare_eq (s : State) (e kind code : Nat) (words : List Word) : ∃ i, s.declare e kind code words =
    { s.adjEp e Ep.declared with
      flt := s.flt.declares (e / 4) kind (s.hangRecord e kind code words), ic := i, out := s.out ++ [.pfMsix s.flt.vector] } := by
  obtain ⟨i, hi⟩ := State.raise_eq ((s.adjEp e Ep.declared).mgmtFault
    (Faults.declares (e / 4) kind (s.hangRecord e kind code words))) 34
  obtain ⟨-, -, hvec⟩ := Faults.declares_always (f := s.flt) (core := e / 4) (kind := kind)
    (record := s.hangRecord e kind code words)
  refine ⟨i, hi.trans ?_⟩
  rw [← hvec]
  rfl

/-- An endpoint whose aborted segment goes on for 4 us is declared hung. -/
theorem State.declareHung_late {a b : Nat} (hst : s.stop.stopped = false) (hseg : (s.ep e).seg = some g)
    (habort : (s.ep e).abortAt = some a) (hwatched : g.watched = some b) (hhung : (s.ep e).hung = false)
    (hclock : (s.ep e).clockStopped = false) (hlate : a * 64 + 4000 ≤ s.tick * 64) (words : List Word) :
    s.declareHung e words = s.declare e 1 0 words := by
  have hover : ¬ s.tick * 64 < a * 64 + 4000 := Nat.not_lt.2 hlate
  simp only [State.declareHung, hseg, habort, hst, hwatched, hhung, hclock, hover, Option.isNone_some, decide_false,
    Bool.or_self, Bool.false_eq_true, if_false]

/-- An endpoint of an unfenced core that reported a fatal error is declared failed. -/
theorem State.declareFailed_fatal (hst : s.stop.stopped = false) (hfatal : (s.ep e).fatal = some code)
    (hhung : (s.ep e).hung = false) (hfenced : s.isFenced (e / 4) = false) (words : List Word) :
    s.declareFailed e words = s.declare e 2 code words := by
  simp only [State.declareFailed, hfatal, hst, hhung, hfenced, Bool.or_self, Bool.false_eq_true, if_false]

/-! ### A stop of this chip, and the machine check (11 R331, R339) -/

theorem State.foldS_send {α : Type} (o : α → Out) (l : List α) (s : State) :
    foldS l (fun s x => s.send (o x)) s = { s with out := s.out ++ l.map o } := by
  induction l generalizing s with
  | nil => simp only [foldS, List.foldl_nil, List.map_nil, List.append_nil]
  | cons x l ih =>
    have hrest := ih (s.send (o x))
    simp only [State.send_out, List.append_assoc] at hrest
    exact hrest

/-- STOP goes out, or not yet. -/
theorem State.sendStops_eq (s : State) : ∃ sent o, s.sendStops = { s with stop := { s.stop with gone := sent }, out := o } := by
  simp only [State.sendStops]
  split
  · split
    · exact ⟨true, _, State.foldS_send ..⟩
    · exact ⟨s.stop.gone, s.out, rfl⟩
  · exact ⟨s.stop.gone, s.out, rfl⟩

/-- Where no stop is in force or scheduled, a request of this chip for itself schedules one, not before the next tick. -/
theorem State.chipStop_schedules (hst : s.stop.stopped = false) (hplan : s.stop.plan = none) (reason tick : Nat) :
    ∃ x o, s.chipStop reason tick = { s with stop := x, out := o } ∧
      x.plan = some { at_ := max (s.tick + 1) tick, reason := reason, scope := 0, id := (s.stop.sent + 1) % 2 ^ 32,
                      origin := s.fab.chip } := by
  have htakes (p : StopPlan) : s.stopTakes p = true := by
    simp only [State.stopTakes, hst, hplan, Bool.not_false, Bool.and_self]
  have htakes' (n : Nat) (p : StopPlan) : (s.adjStop fun x => { x with sent := n }).stopTakes p = true := htakes p
  simp only [State.chipStop, htakes, if_true, State.planStop, htakes']
  obtain ⟨gone, o, hsent⟩ := State.sendStops_eq _
  rw [hsent]
  exact ⟨_, o, rfl, rfl⟩

/-- The syndrome names its cause in bits [15:8]. -/
theorem syndrome_cause (cause seqr addr quarters opcode : Nat) : (cause % 256 * 2 ^ 8 + seqr % 32 * 2 ^ 16 + addr % 2 ^ 15 * 2 ^ 24 +
    quarters % 16 * 2 ^ 39 + opcode % 256 * 2 ^ 43) / 2 ^ 8 % 2 ^ 8 = cause % 256 := by
  omega

/-- A machine check while no syndrome is held, and no stop is in force or scheduled: the syndrome is kept, MCHK is set and a stop
of this chip is scheduled for the next tick. -/
theorem State.machineCheck_first (hst : s.stop.stopped = false) (hplan : s.stop.plan = none) (hsyn : s.bw.synValid = false)
    (cause seqr addr quarters opcode : Nat) : ∃ syn x o ic, s.machineCheck cause seqr addr quarters opcode =
      { s with bw := { s.bw with mchks := satInc 32 s.bw.mchks, synValid := true, syn := syn, synFtc := s.ftc % 2 ^ 63 }
               stop := x, flt := { s.flt with mchk := true }, ic := ic, out := o } ∧
      syn / 2 ^ 8 % 2 ^ 8 = cause % 256 ∧
      x.plan = some { at_ := s.tick + 1, reason := 3, scope := 0, id := (s.stop.sent + 1) % 2 ^ 32, origin := s.fab.chip } := by
  simp only [State.machineCheck, hsyn, Bool.false_eq_true, if_false]
  obtain ⟨x, o, hstop, hx⟩ := State.chipStop_schedules (s := { s with bw := { s.bw with
    mchks := satInc 32 s.bw.mchks, synValid := true, synFtc := s.ftc % 2 ^ 63
    syn := cause % 256 * 2 ^ 8 + seqr % 32 * 2 ^ 16 + addr % 2 ^ 15 * 2 ^ 24 + quarters % 16 * 2 ^ 39 + opcode % 256 * 2 ^ 43 } })
    hst hplan 3 0
  rw [hstop]
  obtain ⟨ic, hraise⟩ := State.raise_eq _ 32
  exact ⟨_, x, _, ic, hraise, syndrome_cause .., hx⟩

end

/-- Settles O49: each command by the condition under which it acts; both declarations are one operation. -/
theorem watchdogsHangsAndMachineChecks : Obligations.WatchdogsHangsAndMachineChecks := by
  unfold Obligations.WatchdogsHangsAndMachineChecks
  intro s e w i part detail g words hs hst he hseg declared
  have declares {kind code : Nat} {f : State → State} (hf : f s = s.declare e kind code words) :
      GoesTo (s.after f) (declared kind code) := by
    obtain ⟨ic, hdecl⟩ := s.declare_eq e kind code words
    obtain ⟨hhang, hfencing, -⟩ := Faults.declares_always (f := s.flt) (core := e / 4) (kind := kind)
      (record := s.hangRecord e kind code words)
    obtain ⟨hroom, hfull⟩ := Faults.declares_captures (f := s.flt) (core := e / 4) (kind := kind)
      (record := s.hangRecord e kind code words)
    exact ⟨_, State.after_live hs (hf.trans hdecl) rfl rfl rfl rfl, rfl, s.ep_adjEp_same e Ep.declared,
      fun k hk => s.ep_adjEp_other Ep.declared hk,
      hhang, hfencing, hroom, hfull⟩
  refine ⟨fun howner hfirst hlong => ?watchdog, fun b a hwatched habort hhung hclock hlate => ?hung,
    fun code hfatal hhung hfenced => ?failed, fun hpart hplan hsyn => ?check⟩
  case watchdog =>
    exact State.after_live hs (f := fun s => s.segWatchdog e) (State.segWatchdog_expires hst hseg howner hfirst hlong) rfl rfl rfl rfl
  case hung =>
    exact declares (f := fun s => s.declareHung e words)
      (State.declareHung_late hst hseg habort hwatched hhung hclock hlate words)
  case failed =>
    exact declares (f := fun s => s.declareFailed e words) (State.declareFailed_fatal hst hfatal hhung hfenced words)
  case check =>
    obtain ⟨syn, x, o, ic, hcheck, hcause, hx⟩ := State.machineCheck_first (s := s.countUe (min part 1)) hst hplan hsyn (3 + part) 0
      detail 0 0
    have hf : s.controlError part detail = (s.countUe (min part 1)).machineCheck (3 + part) 0 detail 0 0 :=
      if_neg (Nat.not_le.2 hpart)
    refine ⟨_, State.after_live hs (f := fun s => s.controlError part detail) (hf.trans hcheck) rfl rfl rfl rfl, rfl, rfl, rfl, rfl,
      hcause.trans ?_, hx⟩
    omega

end Sys2Proof.Machine
end

section
/-! PROOFS. The end of a global stop by a flit (11 R344, R345; 13 R381): a RESUME without an enabled group of sequencers. -/
namespace Sys2Proof.Machine

section
variable {s : State} {f : Flit}

/-- A flit that carries the CRC of its bytes is intact. -/
theorem flitCrcOk_sealed (f : Flit) : flitCrcOk { f with crc := crc32 (flitBytes f) } = true := beq_self_eq_true _

/-- A RESUME for the stop in force is refused while no group of sequencers is enabled (13 R381). -/
theorem State.takeEndFlit_refused (hst : s.stop.stopped = true) (hend : s.stop.endAt = none) (hscope : s.stop.last.scope ≠ 0)
    (horigin : s.stop.last.origin = f.src) (hid : s.stop.last.id = bitsOf f.w0.toNat 32 32) (hop : bitsOf f.w0.toNat 0 8 = 2)
    (hgroups : s.bw.groups = 0) : s.takeEndFlit f = s.refuseStop := by
  have hok : s.endFlitOk f = true := by
    simp only [State.endFlitOk, hst, hop, horigin, hid, beq_self_eq_true, Bool.true_or, Bool.and_self, Bool.true_and, bne_iff_ne]
    exact hscope
  simp only [State.takeEndFlit, hok, hend, hop, hgroups, Option.isSome_none, Bool.false_eq_true, and_self, if_true, if_false]

/-- A RESUME flit in time that the chip refuses so is held all the same, and sets REFUSED alone in the stop unit. -/
theorem State.endFlitIn_refused (hd : s.isDest f = true) (hcrc : flitCrcOk f = true) (hseen : s.seenFlit f = false)
    (hsync : s.refusesTimed = false) (hearly : s.tick < flitTick f) (hahead : flitTick f ≤ s.tick + 65536)
    (hroom : s.fab.hold.length < 4096) (hk : f.kind = 0x21) (hst : s.stop.stopped = true) (hend : s.stop.endAt = none)
    (hscope : s.stop.last.scope ≠ 0) (horigin : s.stop.last.origin = flitFrom f)
    (hid : s.stop.last.id = bitsOf f.w0.toNat 32 32) (hop : bitsOf f.w0.toNat 0 8 = 2) (hgroups : s.bw.groups = 0) :
    s.endFlitIn false f = { s.holding f s.fab.late with stop := { s.stop with refused := true } } := by
  have hok : (f.kind == 0x21 && ((bitsOf f.w0.toNat 0 8 == 3) == false)) = true := by rw [hk, hop]; rfl
  have hnote : (s.noteSeen f).noteLate f = s.noteSeen f := State.noteLate_early hearly
  have hrefused : (s.noteSeen f).takeEndFlit { f with src := flitFrom f, eff := flitTick f } = (s.noteSeen f).refuseStop :=
    State.takeEndFlit_refused hst hend hscope horigin hid hop hgroups
  rw [State.endFlitIn, State.timedFlit_good hok hd hcrc hseen hsync hahead hroom, hnote, hrefused]
  rfl

end

/-! ### A machine that no group of sequencers serves -/

/-- A LOCKED machine in a group stop of chip 3, all of whose sequencer groups were disabled by parity errors. -/
def stoppedMachine : State :=
  { State.reset with
    fab := { State.reset.fab with sync := .locked }
    bw := { Boxwood.reset with groups := 0 }
    stop := { Stop.reset with stopped := true, last := { at_ := 0, reason := 1, scope := 1, id := 7, origin := 3 } } }

theorem stoppedMachine_live : stoppedMachine.live := ⟨⟨rfl, rfl, rfl⟩, rfl⟩

/-- The RESUME of that stop by chip 3, for the earliest tick of R344, before its CRC. -/
def resumeBody : Flit :=
  { kind := 0x21, hops := 5, src := 3, dst := 0, seq := 0, eff := 16384, w0 := stopWord 2 1 1 7, w1 := 0, w2 := 0, inc := 0, crc := 0 }

/-- The flit with its CRC. -/
def resumeOfChip3 : Flit := { resumeBody with crc := crc32 (flitBytes resumeBody) }

/-- The flit is answered with REFUSED, and the stop has no end. -/
theorem stoppedMachine_refuses : exec (.resumeFlit resumeOfChip3) stoppedMachine = .next
    { stoppedMachine.holding resumeOfChip3 0 with stop := { stoppedMachine.stop with refused := true } } :=
  State.after_live stoppedMachine_live (f := fun s => s.endFlitIn false resumeOfChip3)
    (State.endFlitIn_refused (by decide) (flitCrcOk_sealed _) rfl rfl (by decide) (by decide) (by decide) rfl rfl rfl
      (by decide) rfl rfl rfl rfl) rfl rfl rfl rfl

/-- Refutes O50: its clause on RESUME flits lets every one that matches the stop in force end it, where one that comes while no
group of sequencers is enabled sets REFUSED. -/
theorem not_stopsAreScheduled : ¬ Obligations.StopsAreScheduled := by
  unfold Obligations.StopsAreScheduled
  intro h
  obtain ⟨-, -, -, -, -, -, hflits⟩ :=
    h stoppedMachine [] 0 ⟨.pf, 0x10090030, 8, 0, []⟩ resumeOfChip3 stoppedMachine_live rfl (by decide)
  obtain ⟨-, hend⟩ := hflits (by decide) (flitCrcOk_sealed _) rfl rfl (by decide) (by decide) (by decide)
  obtain ⟨hresume, -⟩ := hend rfl rfl rfl (by decide) rfl rfl
  obtain ⟨t, hexec, -, hstop⟩ := hresume rfl
  rw [stoppedMachine_refuses] at hexec
  injection hexec with ht
  have hnoEnd : t.stop.endAt = none := by rw [← ht]; rfl
  rw [hstop] at hnoEnd
  exact absurd hnoEnd (Option.some_ne_none _)

end Sys2Proof.Machine
end

section
/-! PROOFS. The end of a snapshot (11 R341, R347; 13 R385, R387): its bytes pass through input 7 of the memory port. -/
namespace Sys2Proof.Machine

/-! ### Accesses at the memory port -/

theorem cutXfers_ne_nil {most n : Nat} (hn : 0 < n) : cutXfers most n ≠ [] := by
  by_cases hrest : n % most = 0
  · have hfull : n / most ≠ 0 := fun hnone => by
      have hsplit := Nat.div_add_mod n most
      rw [hnone, hrest] at hsplit
      omega
    exact List.append_ne_nil_of_left_ne_nil (mt (List.replicate_eq_nil_iff _).1 hfull) _
  · rw [cutXfers, if_neg hrest]
    exact List.append_ne_nil_of_right_ne_nil _ (List.cons_ne_nil _ _)

theorem xfersOf_ne_nil {n : Nat} (hn : 0 < n) (k : Nat) (write : Bool) (addr : Option Nat) : xfersOf k write addr n ≠ [] := by
  intro hnil
  have hlen : (cutXfers (arbMost k) n).length = 0 := List.range_eq_nil.1 (List.map_eq_nil_iff.1 hnil)
  exact cutXfers_ne_nil hn (List.length_eq_zero_iff.1 hlen)

theorem sectorsIn_pos (a : Nat) {n : Nat} (hn : 0 < n) : 0 < sectorsIn a n := by
  have hne : n ≠ 0 := Nat.ne_of_gt hn
  simp only [sectorsIn, if_neg hne]
  omega

/-- At an idle arbiter the first four transfers of an access at input 7 are pending there. -/
theorem State.presentAt_idle {s : State} (h : s.arb = Arb.reset) (write : Bool) (addr : Option Nat) (n : Nat) :
    (s.presentAt 7 write addr n).arb.queues.getD 7 [] = (xfersOf 7 write addr n).take 4 := by
  rw [State.presentAt, h]
  rfl

/-! ### The snapshot (11 R347) -/

/-- A header has reserved bytes at its end. -/
theorem State.snapHeader_ne_nil (s : State) (length crc : Nat) : s.snapHeader length crc ≠ [] :=
  List.append_ne_nil_of_right_ne_nil _ (List.cons_ne_nil _ _)

theorem State.snapshot_length_pos (s : State) : 0 < s.snapshot.length := by
  rw [State.snapshot, List.append_assoc]
  exact List.length_pos_of_ne_nil (List.append_ne_nil_of_left_ne_nil (s.snapHeader_ne_nil _ _) _)

/-- The state whose snapshot is written: SNAP_DONE is set with its FTC. -/
def State.snapTaken (s : State) : State :=
  { s with free := s.free + 1
           stop := { s.stop with snapDone := true, doneFtc := s.ftc + Config.pick s.free % 64
                                 frozenFtc := if s.stop.frozenFtc = 0 then s.ftc else s.stop.frozenFtc } }

/-- The access that writes a state's snapshot is presented at the memory port. -/
def State.snapPresented (s : State) : State :=
  s.presentAt 7 true (some s.boot.stopBase) (sectorsIn s.boot.stopBase s.snapshot.length)

/-- With every endpoint frozen the snapshot is presented and stored, and its interrupt and message go out. -/
theorem State.snapshotDone_writes {s : State} (hst : s.stop.stopped = true) (hdone : s.stop.snapDone = false)
    (howed : s.freezeOwed = false) : ∃ st ic, s.snapshotDone =
      State.storing { s.snapTaken.snapPresented with
        flt := { s.flt with snapped := true }, out := s.out ++ [.pfMsix s.flt.vector], ic := ic } st := by
  have hdone' : s.snapshotDone =
      ((s.snapTaken.snapPresented.storeBytes s.boot.stopBase s.snapTaken.snapshot).mgmtFault fun f =>
        { f with snapped := true }).raise 35 := by
    have hready : (s.stop.stopped && !s.stop.snapDone && !s.freezeOwed) = true := by rw [hst, hdone, howed]; rfl
    rw [State.snapshotDone, if_pos hready]
    rfl
  obtain ⟨st, hstore⟩ := State.storeLoc_eq s.snapTaken.snapshot s.snapTaken.snapPresented (.host s.boot.stopBase)
  obtain ⟨ic, hraise⟩ := State.raise_eq ((s.snapTaken.snapPresented.storing st).mgmtFault fun f => { f with snapped := true }) 35
  refine ⟨st, ic, ?_⟩
  rw [hdone', State.storeBytes_eq_storeLoc, hstore, hraise]
  rfl

/-- A machine after reset in a stop of its own, with nothing to freeze. -/
def frozenMachine : State :=
  { State.reset with
    stop := { Stop.reset with stopped := true, last := { at_ := 0, reason := 1, scope := 0, id := 1, origin := 0 } } }

theorem frozenMachine_live : frozenMachine.live := ⟨⟨rfl, rfl, rfl⟩, rfl⟩

/-- Its snapshot's transfers are pending at input 7, which had none. -/
theorem frozenMachine_presents : frozenMachine.arb.queues.getD 7 [] = [] ∧
    frozenMachine.snapTaken.snapPresented.arb.queues.getD 7 [] ≠ [] := by
  refine ⟨rfl, ?_⟩
  rw [State.snapPresented, State.presentAt_idle rfl]
  intro hnil
  rcases List.take_eq_nil_iff.1 hnil with h | h
  · exact absurd h (by decide)
  · exact xfersOf_ne_nil (sectorsIn_pos _ (State.snapshot_length_pos _)) _ _ _ h

/-- Refutes O51: its frame lets SNAPSHOT_DONE leave the arbiter of the memory port as it was, where the snapshot's transfers join
the queue of input 7. -/
theorem not_theSnapshotIsWritten : ¬ Obligations.TheSnapshotIsWritten := by
  unfold Obligations.TheSnapshotIsWritten
  intro h
  obtain ⟨t, hexec, hframe, -⟩ := h frozenMachine frozenMachine.snapTaken frozenMachine_live rfl rfl rfl rfl
  obtain ⟨st, ic, hdone⟩ := State.snapshotDone_writes (s := frozenMachine) rfl rfl rfl
  obtain ⟨m, hrun, -⟩ := State.after_stores (f := fun s => s.snapshotDone) frozenMachine_live hdone rfl rfl rfl rfl
  have hanswer : exec .snapshotDone frozenMachine = frozenMachine.after fun s => s.snapshotDone := rfl
  rw [hanswer, hrun] at hexec
  injection hexec with ht
  have hafter : t.arb = frozenMachine.snapTaken.snapPresented.arb := by rw [← ht]; rfl
  have hsame : t.arb = frozenMachine.arb := by rw [hframe]; rfl
  obtain ⟨hnone, hsome⟩ := frozenMachine_presents
  rw [← hafter, hsame] at hsome
  exact hsome hnone

end Sys2Proof.Machine
end

section
/-! PROOFS. The board management port (12 R352, R371-R373): MCTP messages, the requests that they bring, and the sensors. -/
namespace Sys2Proof.Machine

/-! ### Messages (12 R371) -/

@[simp] theorem State.fw_raise (s : State) (n : Nat) : (s.raise n).fw = s.fw := by
  obtain ⟨i, hi⟩ := s.raise_eq n
  rw [hi]

@[simp] theorem State.telemetryUp_raise (s : State) (n : Nat) : (s.raise n).telemetryUp = s.telemetryUp := by
  simp only [State.telemetryUp, State.procUp, State.proc, State.duty, State.fw_raise]

/-- Raising a source neither reads nor changes the firmware. -/
theorem State.adjFw_raise (s : State) (n : Nat) (f : Fw → Fw) : (s.raise n).adjFw f = (s.adjFw f).raise n := by
  by_cases h : (icReset n).isSome
  · simp only [State.raise, State.adjSrc, h, if_true]
    rfl
  · simp only [State.raise, State.adjSrc, h]
    rfl

section
variable {s : State} {eid mtype code : Nat} {body : List Word}

/-- A PLDM or SPDM request is handed over where its requester has none in progress. -/
theorem State.mctpIn_request (hup : s.telemetryUp = true) (htype : mtype = 1 ∨ mtype = 5) : s.mctpIn eid mtype body =
    (if (s.fw.busy.any fun m => m.1 == eid) = true then s
      else s.adjFw fun x => { x with busy := (eid, mtype) :: x.busy }).raise 39 := by
  have hcontrol : mtype ≠ 0 := by omega
  simp only [State.mctpIn, State.telemetryUp_raise, hup, Bool.not_true, Bool.false_eq_true, if_false, if_neg hcontrol,
    if_pos htype, State.fw_raise]
  split
  · rfl
  · exact State.adjFw_raise s 39 _

theorem State.mctpIn_unknown (hup : s.telemetryUp = true) (hmin : 2 ≤ mtype) (hspdm : mtype ≠ 5) :
    s.mctpIn eid mtype body = (s.raise 39).mctpReply eid mtype [] := by
  have hcontrol : mtype ≠ 0 := by omega
  have hrequest : ¬ (mtype = 1 ∨ mtype = 5) := by omega
  simp only [State.mctpIn, State.telemetryUp_raise, hup, Bool.not_true, Bool.false_eq_true, if_false, if_neg hcontrol,
    if_neg hrequest]

/-! ### Requests (12 R372, R373) -/

theorem State.mctpHas_of_busy (hup : s.telemetryUp = true) (hbusy : s.fw.busy.contains (eid, mtype) = true) :
    s.mctpHas eid mtype = true := by
  rw [State.mctpHas, hup, hbusy]
  rfl

theorem State.mctpHas_of_free (hfree : s.fw.busy.contains (eid, mtype) = false) : s.mctpHas eid mtype = false := by
  rw [State.mctpHas, hfree, Bool.and_false]

theorem State.spdmIn_unasked (h : s.mctpHas eid 5 = false) : s.spdmIn eid code body = s := if_pos (by rw [h]; rfl)

theorem State.pldmIn_unasked (h : s.mctpHas eid 1 = false) : s.pldmIn eid code body = s := if_pos (by rw [h]; rfl)

theorem State.spdmIn_known (h : s.mctpHas eid 5 = true) (hsec : s.procUp 8 = true) (hknown : spdmKnown code = true) :
    s.spdmIn eid code body =
      (s.mctpEnds eid).mctpReply eid 5 (BitVec.ofNat 64 (code % 128 * 2 ^ 8) :: s.spdmBody code body) := by
  simp only [State.spdmIn, h, hsec, hknown, Bool.not_true, Bool.false_eq_true, if_false, if_true]

/-- The body of an SPDM ERROR, with its error code. -/
def spdmError (cause : Nat) : Word := BitVec.ofNat 64 (0x7F * 2 ^ 8 + cause * 2 ^ 16)

/-- An ERROR answers while SEC is down, and a request that SEC does not support. -/
theorem State.spdmIn_error (h : s.mctpHas eid 5 = true) (herr : s.procUp 8 = false ∨ spdmKnown code = false) :
    ∃ x, s.spdmIn eid code body = (s.mctpEnds eid).send (.mctp eid 5 [x]) := by
  cases hsec : s.procUp 8 with
  | false =>
    refine ⟨spdmError 3, ?_⟩
    simp only [State.spdmIn, h, hsec, Bool.not_true, Bool.not_false, Bool.false_eq_true, if_false, if_true]
    rfl
  | true =>
    have hunknown : spdmKnown code = false := herr.resolve_left (ne_false_of_eq_true hsec)
    refine ⟨spdmError 7, ?_⟩
    simp only [State.spdmIn, h, hsec, hunknown, Bool.not_true, Bool.false_eq_true, if_false]
    rfl

theorem State.pldmIn_sensor (h : s.mctpHas eid 1 = true) (w : Word) : s.pldmIn eid 2 (w :: body) =
    (s.mctpEnds eid).send (.mctp eid 1 [BitVec.ofNat 64 (s.fw.sensors.getD w.toNat 0)]) := if_neg (by rw [h]; decide)

/-- A firmware update's message is queued with a free value, which says how its flash write ends, and answered. -/
theorem State.pldmIn_update (h : s.mctpHas eid 1 = true) : ∃ ok, s.pldmIn eid 5 body =
    (({ s.mctpEnds eid with free := s.free + 1 } : State).hostOp (.pldm body ok)).mctpReply eid 1 [] :=
  ⟨Config.flip (Config.pick s.free), by rw [State.pldmIn, h]; rfl⟩

/-! ### Sensors (12 R373) -/

theorem State.sensorUpdate_early (hup : s.telemetryUp = true) (hearly : s.sinceReset < s.fw.sensorAt + 100000000) (r : List Nat) :
    s.sensorUpdate r = s := by
  simp only [State.sensorUpdate, hup, hearly, Bool.not_true, decide_true, Bool.or_true, if_true]

theorem State.sensorUpdate_due (hup : s.telemetryUp = true) (hdue : ¬ s.sinceReset < s.fw.sensorAt + 100000000) (a b c e : Nat) :
    s.sensorUpdate [a, b, c, e] = { s with fw := { s.fw with
      sensors := [a, b, c, s.pwr.level, e, s.fencedCount], sensorAt := s.sinceReset } } := by
  simp only [State.sensorUpdate, hup, hdue, Bool.not_true, decide_false, Bool.or_false, Bool.false_eq_true, if_false]
  rfl

end

/-- Settles O54: a message goes by its type and a request by whether it came as a message, each answered by the lemma of its
kind. -/
theorem theManagementPortAnswers : Obligations.TheManagementPortAnswers := by
  unfold Obligations.TheManagementPortAnswers
  intro s eid mtype code body w r hs hup freed rebusy
  refine ⟨fun htype => ?request, fun hmin hspdm => ?unknown, fun hfree => ?noSpdm, fun hfree => ?noPldm,
    fun hbusy hsec hknown => ?spdm, fun hbusy herr => ?spdmError, fun hbusy => ?sensor, fun hbusy => ?update,
    fun a b c e hr => ?sensors⟩
  case request =>
    have hin := State.mctpIn_request (eid := eid) (body := body) hup htype
    split at hin
    next hbusy =>
      rw [if_pos hbusy]
      exact State.after_raise hs (f := fun s => s.mctpIn eid mtype body) 39 hin rfl rfl rfl rfl
    next hidle =>
      rw [if_neg hidle]
      exact State.after_raise hs (f := fun s => s.mctpIn eid mtype body) 39 hin rfl rfl rfl rfl
  case unknown =>
    obtain ⟨i, hi⟩ := s.raise_eq 39
    have hin := State.mctpIn_unknown (eid := eid) (body := body) hup hmin hspdm
    rw [hi] at hin
    exact ⟨_, State.after_live hs (f := fun s => s.mctpIn eid mtype body) hin rfl rfl rfl rfl, rfl, _, rfl⟩
  case noSpdm =>
    exact State.after_unchanged hs (f := fun s => s.spdmIn eid code body) (State.spdmIn_unasked (State.mctpHas_of_free hfree))
  case noPldm =>
    exact State.after_unchanged hs (f := fun s => s.pldmIn eid code body) (State.pldmIn_unasked (State.mctpHas_of_free hfree))
  case spdm =>
    exact ⟨_, State.after_live hs (f := fun s => s.spdmIn eid code body)
      (State.spdmIn_known (State.mctpHas_of_busy hup hbusy) hsec hknown) rfl rfl rfl rfl, rfl, _, rfl⟩
  case spdmError =>
    obtain ⟨x, hx⟩ := State.spdmIn_error (body := body) (State.mctpHas_of_busy hup hbusy) herr
    exact ⟨x, State.after_live hs (f := fun s => s.spdmIn eid code body) hx rfl rfl rfl rfl⟩
  case sensor =>
    exact State.after_live hs (f := fun s => s.pldmIn eid 2 (w :: body))
      (State.pldmIn_sensor (State.mctpHas_of_busy hup hbusy) w) rfl rfl rfl rfl
  case update =>
    obtain ⟨ok, hok⟩ := State.pldmIn_update (body := body) (State.mctpHas_of_busy hup hbusy)
    exact ⟨_, State.after_live hs (f := fun s => s.pldmIn eid 5 body) hok rfl rfl rfl rfl, rfl, ok, _, rfl, rfl⟩
  case sensors =>
    subst hr
    split
    next hearly => exact State.after_unchanged hs (f := fun s => s.sensorUpdate _) (State.sensorUpdate_early hup hearly _)
    next hdue =>
      exact State.after_live hs (f := fun s => s.sensorUpdate _) (State.sensorUpdate_due hup hdue a b c e) rfl rfl rfl rfl

end Sys2Proof.Machine
end

section
/-! PROOFS. Firmware updates (12 R353, R355, R356, R367-R369): staging, the switch of a processor, and the ends of flash writes. -/
namespace Sys2Proof.Machine

/-! ### Processors -/

section
variable {s : State} {n : Nat}

@[simp] theorem State.procs_adjProc (s : State) (n : Nat) (f : Proc → Proc) :
    (s.adjProc n f).fw.procs = s.fw.procs.set n (f (s.proc n)) := rfl

/-- Of processors of which one is replaced, that one and every other. -/
theorem State.proc_of_procs_set {t : State} {p : Proc} (h : t.fw.procs = s.fw.procs.set n p) :
    (n < s.fw.procs.length → t.proc n = p) ∧ ∀ k, k ≠ n → t.proc k = s.proc k := by
  refine ⟨fun hn => ?_, fun k hk => ?_⟩
  · rw [State.proc, h, List.getD_eq_getElem?_getD, List.getElem?_set_self hn]
    rfl
  · rw [State.proc, h, List.getD_eq_getElem?_getD, List.getElem?_set_ne hk.symm, ← List.getD_eq_getElem?_getD]
    rfl

end

/-! ### Changes of one part of the state, made in order -/

/-- Changes that each replace one part of the state replace that part together. -/
theorem State.foldS_replaces {α β : Type} {put : State → β → State} (hself : ∀ s, ∃ b, s = put s b)
    (hput : ∀ s a b, put (put s a) b = put s b) {f : State → α → State} (hf : ∀ s x, ∃ b, f s x = put s b) (l : List α)
    (s : State) : ∃ b, foldS l f s = put s b := by
  induction l generalizing s with
  | nil => exact hself s
  | cons x xs ih =>
    obtain ⟨a, ha⟩ := hf s x
    obtain ⟨b, hb⟩ := ih (f s x)
    exact ⟨b, hb.trans (by rw [ha, hput])⟩

/-- The state with this interrupt controller. -/
def State.withIc (s : State) (i : Ic) : State := { s with ic := i }

theorem State.foldS_withIc {α : Type} {f : State → α → State} (hf : ∀ s x, ∃ i, f s x = s.withIc i) (l : List α) (s : State) :
    ∃ i, foldS l f s = s.withIc i :=
  State.foldS_replaces (put := State.withIc) (fun s => ⟨s.ic, rfl⟩) (fun _ _ _ => rfl) hf l s

theorem State.adjSrc_eq (s : State) (m : Nat) (f : IcSrc → IcSrc) : ∃ i, s.adjSrc m f = s.withIc i := by
  rw [State.adjSrc]
  split
  · exact ⟨_, rfl⟩
  · exact ⟨s.ic, rfl⟩

theorem State.moveSources_eq (s : State) (n : Nat) : ∃ i, s.moveSources n = s.withIc i := by
  rw [State.moveSources]
  split
  · exact ⟨s.ic, rfl⟩
  · exact State.foldS_withIc (fun s m => s.adjSrc_eq m _) _ s

/-- Sources that a processor gives up change the interrupt controller alone. -/
theorem State.releaseSources_eq (s : State) (n : Nat) : ∃ i, s.releaseSources n = s.withIc i := by
  obtain ⟨i, hi⟩ := State.foldS_withIc (fun s m => s.adjSrc_eq m fun x => { x with pending := true, active := false })
    (sharedSources.filter fun i => (s.icSrc i).target == n && (s.icSrc i).active) s
  obtain ⟨j, hj⟩ := (s.withIc i).moveSources_eq n
  simp only [State.releaseSources, hi]
  split
  · exact ⟨j, hj⟩
  · exact ⟨i, rfl⟩

/-- What a change of the engine clocks changes: power, endpoints, and the counters of the chip and of partitions. -/
structure ClockParts where
  pwr : Power
  eps : Tbl Ep
  gcnt : Counters
  pcnt : Tbl Counters

/-- The state with these parts. -/
def State.withClocks (s : State) (c : ClockParts) : State :=
  { s with pwr := c.pwr, eps := c.eps, gcnt := c.gcnt, pcnt := c.pcnt }

theorem State.foldS_withClocks {α : Type} {f : State → α → State} (hf : ∀ s x, ∃ c, f s x = s.withClocks c) (l : List α)
    (s : State) : ∃ c, foldS l f s = s.withClocks c :=
  State.foldS_replaces (put := State.withClocks) (fun s => ⟨⟨s.pwr, s.eps, s.gcnt, s.pcnt⟩, rfl⟩) (fun _ _ _ => rfl) hf l s

theorem State.countBusy_withClocks (s : State) (e now : Nat) : ∃ c, s.countBusy e now = s.withClocks c := by
  cases hseg : (s.ep e).seg with
  | none => exact ⟨⟨s.pwr, s.eps, s.gcnt, s.pcnt⟩, by simp only [State.countBusy, hseg]; rfl⟩
  | some g =>
    obtain ⟨gc, pc, h⟩ := State.countBusy_eq now hseg
    exact ⟨⟨s.pwr, _, gc, pc⟩, h⟩

theorem State.setClocks_eq (s : State) (core nx : Nat) : ∃ c, s.setClocks core nx = s.withClocks c := by
  let paced : State := { s with pwr := { s.pwr with coreStep := core, nxStep := nx } }
  obtain ⟨c, hc⟩ : ∃ c, paced.countBusyAll s.ftc = paced.withClocks c :=
    State.foldS_withClocks (fun s e => s.countBusy_withClocks e _) _ _
  have hclock (e : Nat) (x : State) : ∃ c, (if decide (e < 512) && x.isFenced (e / 4) then x
      else x.adjEp e fun y => y.clock x.ftc (if e < 520 then core else nx)) = x.withClocks c := by
    split
    · exact ⟨⟨x.pwr, x.eps, x.gcnt, x.pcnt⟩, rfl⟩
    · exact ⟨⟨x.pwr, _, x.gcnt, x.pcnt⟩, rfl⟩
  obtain ⟨d, hd⟩ := State.foldS_withClocks (fun x e => hclock e x) (List.range 526) (paced.withClocks c)
  exact ⟨d, (congrArg (foldS (List.range 526) _) hc).trans hd⟩

theorem State.clampClocks_eq (s : State) : ∃ c, s.clampClocks = s.withClocks c := by
  obtain ⟨c, hc⟩ := State.setClocks_eq { s with pwr := { s.pwr with clamp := true } } (if s.pwr.coreStep = 0 then 0 else 8) 8
  exact ⟨c, hc⟩

/-! ### What processors leave unchanged -/

/-- Rings, fences, memory with the changes of the running command, and the queue: what a processor's first crash and its switch
leave as they are. -/
structure Outside where
  rings : Tbl Ring
  fences : Tbl Fence
  mem : List Host.Cell
  stores : List Host.Cell
  cleared : List (Nat × Nat)
  pending : List Instr

/-- These parts of a state. -/
def State.outside (s : State) : Outside := ⟨s.rings, s.fences, s.mem, s.stores, s.cleared, s.pending⟩

section
variable {s t : State}

@[simp] theorem State.outside_adjFw (s : State) (f : Fw → Fw) : (s.adjFw f).outside = s.outside := rfl
@[simp] theorem State.outside_adjProc (s : State) (n : Nat) (f : Proc → Proc) : (s.adjProc n f).outside = s.outside := rfl
@[simp] theorem State.outside_cacheComp (s : State) (c : Nat) (b : Bool) : (s.cacheComp c b).outside = s.outside := rfl
@[simp] theorem State.outside_withIc (s : State) (i : Ic) : (s.withIc i).outside = s.outside := rfl
@[simp] theorem State.outside_withClocks (s : State) (c : ClockParts) : (s.withClocks c).outside = s.outside := rfl
@[simp] theorem State.fw_withIc (s : State) (i : Ic) : (s.withIc i).fw = s.fw := rfl
@[simp] theorem State.fw_withClocks (s : State) (c : ClockParts) : (s.withClocks c).fw = s.fw := rfl
@[simp] theorem State.procs_cacheComp (s : State) (c : Nat) (b : Bool) : (s.cacheComp c b).fw.procs = s.fw.procs := rfl

/-- A live command whose effect leaves these parts as they were has it in full. -/
theorem State.after_outside {f : State → State} (hs : s.live) (hf : f s = t) (h : t.outside = s.outside) : s.after f = .next t :=
  State.after_live hs hf (congrArg Outside.stores h) (congrArg Outside.cleared h) (congrArg Outside.mem h)
    (congrArg Outside.pending h)

theorem State.sameMemory_of_outside (h : t.outside = s.outside) : SameMemory s t := by
  have hmem : t.mem = s.mem := congrArg Outside.mem h
  have hst : t.stores = s.stores := congrArg Outside.stores h
  have hcl : t.cleared = s.cleared := congrArg Outside.cleared h
  intro a
  rw [State.readByte, hmem, hst, hcl]
  rfl

end

/-! ### Staging (12 R358, R367) -/

section
variable {s : State} {o b : Nat} {a : RegAcc}

/-- A write to one management register that does not act when it arrives queues what it asks for, and then itself. -/
theorem State.regWrite_mgmt_asks {straps : Nat} {ok : Bool} (ha : a.bytes ≤ 64) (hx : spaceOf a = .mgmt o)
    (hb : basesOf (.mgmt o) a = [b]) (harr : atArrival b = false) : s.regWrite a straps ok =
      { s with hostOps := s.hostOps ++ mgmtOps { a with addr := o } b ok ++ [.reg a] } := by
  have hnone : [b].filter atArrival = [] := List.filter_cons_of_neg (by rw [harr]; exact Bool.false_ne_true)
  simp only [State.regWrite, Nat.min_eq_left ha, hx, Space.off, hb, hnone, foldS, List.foldl_nil, List.flatMap_cons,
    List.flatMap_nil, List.append_nil]

/-- The write of STAGE queues the staging before itself. -/
theorem State.regWrite_fwStage (straps : Nat) (ok : Bool) : s.regWrite ⟨.pf, 0x100A0200, 4, 1, []⟩ straps ok =
    { s with hostOps := s.hostOps ++ [.fwStage ok, .reg ⟨.pf, 0x100A0200, 4, 1, []⟩] } := by
  rw [State.regWrite_mgmt_asks reaches_fwCmd.short (reaches_fwCmd.space 1) (reaches_fwCmd.alone 1) reaches_fwCmd.waits,
    List.append_assoc]
  rfl

/-- STAGE outside recovery: an image that passes is to go to the slot that does not run, one that fails leaves its cause. -/
theorem State.stage_checks (hidle : s.fw.act ≠ 1 ∧ s.fw.act ≠ 3 ∧ s.fw.act ≠ 4 ∧ s.fw.reverting = false)
    (hsec : s.procUp 8 = true) (hphase : s.boot.phase ≠ .recovery) (len : Nat) (ok : Bool) : s.stage len ok =
    { s with fw := match imgCheck s.fw.staged len s.fw.fuseSvn s.cfg.keyDigest with
      | none => { s.fw with act := 1, fail := 0
                            writes := s.fw.writes ++ [.image (!s.runB) (s.fw.staged.filter fun c => decide (c.1 < len)) ok] }
      | some c => { s.fw with act := 7, fail := c } } := by
  have hnot : ¬ (s.fw.act = 1 ∨ s.fw.act = 3 ∨ s.fw.act = 4 ∨ s.fw.reverting = true) := by
    obtain ⟨h1, h3, h4, hrev⟩ := hidle
    simp only [h1, h3, h4, hrev, Bool.false_eq_true, or_self, not_false_eq_true]
  have hslot : (s.boot.phase != .recovery) = true := bne_iff_ne.2 hphase
  cases hcheck : imgCheck s.fw.staged len s.fw.fuseSvn s.cfg.keyDigest with
  | none =>
    simp only [State.stage, if_neg hnot, hsec, hslot, hcheck, Bool.true_and, Bool.not_true, Bool.false_eq_true, if_false]
    rfl
  | some c =>
    simp only [State.stage, if_neg hnot, hsec, hcheck, Bool.not_true, Bool.false_eq_true, if_false]
    rfl

end

/-! ### The switch of a processor (12 R368, R369) -/

/-- The state with these duties, and these cores that are to have duties back. -/
def State.withDuties (s : State) (duties : List (Nat × Bool)) (lost : Tbl (List Nat)) : State :=
  s.adjFw fun w => { w with duties := duties, lost := lost }

@[simp] theorem State.outside_withDuties (s : State) (ds : List (Nat × Bool)) (lost : Tbl (List Nat)) :
    (s.withDuties ds lost).outside = s.outside := rfl
@[simp] theorem State.procs_withDuties (s : State) (ds : List (Nat × Bool)) (lost : Tbl (List Nat)) :
    (s.withDuties ds lost).fw.procs = s.fw.procs := rfl

theorem State.moveDuties_eq (s : State) (n : Nat) : ∃ ds lost, s.moveDuties n = s.withDuties ds lost := ⟨_, _, rfl⟩

/-- Before a processor switches, duties, sources and clocks move and its new component is cached. -/
theorem State.beginSwitch_eq (s : State) (n : Nat) : ∃ c ds lost i, s.beginSwitch n =
    ((((s.withClocks c).withDuties ds lost).withIc i).cacheComp (compOf n) !(s.proc n).imageB).adjProc n
      fun p => { p with st := .switching } := by
  have hmoved : ∃ c ds lost, (if n < 8 then s.moveDuties n else if n = 9 then s.clampClocks else s) =
      (s.withClocks c).withDuties ds lost := by
    split
    · obtain ⟨ds, lost, h⟩ := s.moveDuties_eq n
      exact ⟨⟨s.pwr, s.eps, s.gcnt, s.pcnt⟩, ds, lost, h⟩
    · split
      · obtain ⟨c, hc⟩ := s.clampClocks_eq
        exact ⟨c, s.fw.duties, s.fw.lost, hc⟩
      · exact ⟨⟨s.pwr, s.eps, s.gcnt, s.pcnt⟩, s.fw.duties, s.fw.lost, rfl⟩
  obtain ⟨c, ds, lost, hmoved⟩ := hmoved
  obtain ⟨i, hi⟩ := ((s.withClocks c).withDuties ds lost).releaseSources_eq n
  exact ⟨c, ds, lost, i, by rw [State.beginSwitch, hmoved, hi]⟩

theorem State.procs_beginSwitch (s : State) (n : Nat) :
    (s.beginSwitch n).fw.procs = s.fw.procs.set n { s.proc n with st := .switching } := by
  obtain ⟨c, ds, lost, i, h⟩ := s.beginSwitch_eq n
  rw [h]
  simp only [State.procs_adjProc, State.proc, State.procs_cacheComp, State.fw_withIc, State.procs_withDuties,
    State.fw_withClocks]

@[simp] theorem State.outside_beginSwitch (s : State) (n : Nat) : (s.beginSwitch n).outside = s.outside := by
  obtain ⟨c, ds, lost, i, h⟩ := s.beginSwitch_eq n
  rw [h]
  simp only [State.outside_adjProc, State.outside_cacheComp, State.outside_withIc, State.outside_withDuties,
    State.outside_withClocks]

theorem State.fwSwitch_next {s : State} {n : Nat} (hact : s.fw.act = 3) (hnext : s.fw.next = n) (hmay : s.maySwitch n = true) :
    s.fwSwitch n = (s.beginSwitch n).adjFw fun w => { w with act := 4 } := if_pos ⟨hact, hnext, hmay⟩

/-! ### The ends of flash writes (12 R353, R356) -/

section
variable {s : State} {x : FlashWrite} {l : List FlashWrite}

theorem State.flashDone_unserved (hw : s.fw.writes = x :: l) (hduty : (s.duty 13).2 = true) : s.flashDone = s := by
  simp only [State.flashDone, hw, hduty, if_true]

theorem State.flashDone_first (hw : s.fw.writes = x :: l) (hduty : (s.duty 13).2 = false) :
    s.flashDone = ((s.adjFw fun w => { w with writes := l }).flashed x).raise 41 := by
  simp only [State.flashDone, hw, hduty, Bool.false_eq_true, if_false]

/-- A live end of the oldest write, by the effect that the write has. -/
theorem State.after_flashDone {t : State} (hs : s.live) (hw : s.fw.writes = x :: l) (hduty : (s.duty 13).2 = false)
    (ht : (s.adjFw fun w => { w with writes := l }).flashed x = t) (hst : t.stores = s.stores) (hcl : t.cleared = s.cleared)
    (hmem : t.mem = s.mem) (hq : t.pending = s.pending) : exec .flashWriteDone s = .next (t.raise 41) :=
  State.after_raise hs (f := fun s => s.flashDone) 41 (by rw [State.flashDone_first hw hduty, ht]) hst hcl hmem hq

theorem State.imageWritten_running (hphase : s.boot.phase ≠ .recovery) (b : Bool) (t : List Host.Cell) : s.imageWritten b t =
    { s with fw := { s.fw with
      act := 2, fail := 0, stagedOk := true, stagedVersion := tn t 8 4, stagedSvn := tn t 12 1
      flash := s.fw.flash.put (offSlot b) imageSlotBytes t } } := if_neg hphase

/-- A boot record is written; the version that it ends an activation with waits for the boundary. -/
theorem State.recordWritten_eq (s : State) (b : Bool) (v : Option (Nat × Nat)) : s.recordWritten b v =
    { s with
      fw := { s.fw with flash := s.fw.flash.record b, activeB := b }
      later := s.later ++ match v with | some w => [Later.fwVersion w.1 w.2 b] | none => [] } := by
  cases v with
  | none => rw [List.append_nil]; rfl
  | some w => rfl

end

/-- Settles O53: STAGE is a management write; a switch and the end of a flash write go by the equations of their operations. -/
theorem firmwareUpdates : Obligations.FirmwareUpdates := by
  unfold Obligations.FirmwareUpdates
  intro s un n len ok image hs hprocs
  refine ⟨?arrives, ?applied, fun h1 h3 h4 hrev hsec hphase himage => ?checked, fun hn hact hnext hmay => ?switches,
    fun x l hw hduty => ?unserved, fun x l hw hduty => ?served⟩
  case arrives =>
    exact State.after_live hs (f := fun s => s.regWrite _ _ _) (State.regWrite_fwStage s.boot.straps ok) rfl rfl rfl rfl
  case applied => rfl
  case checked =>
    rw [himage]
    exact State.stage_checks ⟨h1, h3, h4, hrev⟩ hsec hphase len ok
  case switches =>
    have hout : ((s.beginSwitch n).adjFw fun w => { w with act := 4 }).outside = s.outside :=
      (State.outside_adjFw _ _).trans (s.outside_beginSwitch n)
    have hset : ((s.beginSwitch n).adjFw fun w => { w with act := 4 }).fw.procs =
        s.fw.procs.set n { s.proc n with st := .switching } := s.procs_beginSwitch n
    obtain ⟨hsame, hother⟩ := State.proc_of_procs_set hset
    exact ⟨_, State.after_outside hs (f := fun s => s.fwSwitch n) (State.fwSwitch_next hact hnext hmay) hout, rfl,
      congrArg Proc.st (hsame (hn.trans_eq hprocs.symm)), hother, congrArg Outside.rings hout, congrArg Outside.fences hout⟩
  case unserved => exact State.after_unchanged hs (f := fun s => s.flashDone) (State.flashDone_unserved hw hduty)
  case served =>
    intro written
    refine ⟨fun b hx hphase => ?image, fun b hx => ?torn, fun b v z hx hz => ?record, fun r hx => ?crash, fun v hx => ?snapshot⟩
    all_goals subst hx
    case image => exact State.after_flashDone hs hw hduty (State.imageWritten_running (s := s.adjFw _) hphase b image) rfl rfl rfl rfl
    case torn => exact State.after_flashDone hs hw hduty rfl rfl rfl rfl rfl
    case record =>
      subst hz
      exact State.after_flashDone hs hw hduty (State.recordWritten_eq _ b v) rfl rfl rfl rfl
    case crash => exact State.after_flashDone hs hw hduty rfl rfl rfl rfl rfl
    case snapshot => exact State.after_flashDone hs hw hduty rfl rfl rfl rfl rfl

end Sys2Proof.Machine
end

section
/-! PROOFS. Firmware processors (12 R353, R360-R365; 13 R395): a crash and what it logs, the restart, the return of duties and the
gate of a CCC. -/
namespace Sys2Proof.Machine

/-! ### A crash (12 R360, R362, R364, R365) -/

/-- The state with these started commands and this Pleach. -/
def State.withWorks (s : State) (x : Tbl Work × Pleach) : State := { s with works := x.1, pleach := x.2 }


theorem State.ite_withWorks {c : Prop} [Decidable c] {s t : State} (h : ∃ x, t = s.withWorks x) :
    ∃ x, (if c then t else s) = s.withWorks x := by
  split
  · exact h
  · exact ⟨(s.works, s.pleach), rfl⟩

/-- Admin commands that run again change started commands and leave Pleach. -/
theorem State.rerunAdmin_eq (s : State) (n : Nat) : ∃ x, s.rerunAdmin n = s.withWorks x := by
  refine State.foldS_replaces (put := State.withWorks) (fun s => ⟨(s.works, s.pleach), rfl⟩) (fun _ _ _ => rfl) (fun t w => ?_) _ s
  split
  · split
    · exact State.ite_withWorks ⟨(_, _), rfl⟩
    · exact State.ite_withWorks ⟨(_, _), rfl⟩
    · exact State.ite_withWorks ⟨(_, t.pleach), rfl⟩
    · exact ⟨(t.works, t.pleach), rfl⟩
  · exact ⟨(t.works, t.pleach), rfl⟩

theorem State.crashSources_eq (s : State) (n : Nat) : ∃ i, s.crashSources n = s.withIc i := by
  obtain ⟨i, hi⟩ := (s.adjIcProc n fun _ => IcProc.reset).releaseSources_eq n
  exact ⟨i, hi⟩

@[simp] theorem State.outside_crashSources (s : State) (n : Nat) : (s.crashSources n).outside = s.outside := by
  obtain ⟨i, hi⟩ := s.crashSources_eq n
  rw [hi, State.outside_withIc]

@[simp] theorem State.fw_crashSources (s : State) (n : Nat) : (s.crashSources n).fw = s.fw := by
  obtain ⟨i, hi⟩ := s.crashSources_eq n
  rw [hi, State.fw_withIc]

@[simp] theorem State.outside_raise (s : State) (n : Nat) : (s.raise n).outside = s.outside := by
  obtain ⟨i, hi⟩ := s.raise_eq n
  rw [hi]
  rfl

/-- The flash, its writes and the crash records. -/
structure Logs where
  flash : Flash
  writes : List FlashWrite
  recs : List (List Byte)

/-- These parts of a state. -/
def State.logs (s : State) : Logs := ⟨s.fw.flash, s.fw.writes, s.fw.crashRecs⟩

/-- A crash that leaves its processor restarting closes the launch gate of a CCC. -/
def State.closeGate (s : State) (n : Nat) : State :=
  if 11 ≤ n then s.adjProc n fun p => { p with gate := true } else s

/-- What a crash does to the device leaves the logs alone, and of the processors it closes a gate. -/
theorem State.crashEffects_keeps (s : State) (n : Nat) : (s.crashEffects n false).outside = s.outside ∧
    (s.crashEffects n false).logs = s.logs ∧ (s.crashEffects n false).fw.procs = (s.closeGate n).fw.procs := by
  by_cases hcore : n < 8
  · obtain ⟨x, hx⟩ := s.rerunAdmin_eq n
    obtain ⟨ds, lost, hmoved⟩ := (s.withWorks x).moveDuties_eq n
    rw [State.closeGate, if_neg (by omega), State.crashEffects, if_pos hcore, hx, hmoved]
    split
    · exact ⟨rfl, rfl, rfl⟩
    · exact ⟨rfl, rfl, rfl⟩
  · by_cases hpwr : n = 9
    · obtain ⟨c, hc⟩ := s.clampClocks_eq
      rw [State.closeGate, if_neg (by omega), State.crashEffects, if_neg hcore, if_pos hpwr, hc]
      exact ⟨rfl, rfl, rfl⟩
    · rw [State.closeGate, State.crashEffects, if_neg hcore, if_neg hpwr]
      split
      · exact ⟨rfl, rfl, rfl⟩
      · exact ⟨rfl, rfl, rfl⟩

/-- A crash record is asked of FLASH, and kept while there is room. -/
theorem State.logCrash_logs (s : State) (r : List Byte) : (s.logCrash r).outside = s.outside ∧
    (s.logCrash r).fw.procs = s.fw.procs ∧ (s.logCrash r).fw.flash = s.fw.flash ∧
    (s.logCrash r).fw.writes = s.fw.writes ++ [.crash r] ∧
    (s.fw.crashRecs.length < 16 → (s.logCrash r).fw.crashRecs = s.fw.crashRecs ++ [r]) := by
  by_cases hroom : s.fw.crashRecs.length < 16
  · have hlog : s.logCrash r = State.askFlash (s.adjFw fun w => { w with crashRecs := w.crashRecs ++ [r] }) (.crash r) := by
      simp only [State.logCrash, State.adjFw, if_pos hroom]
    rw [hlog]
    exact ⟨rfl, rfl, rfl, rfl, fun _ => rfl⟩
  · have hlog : s.logCrash r = State.askFlash (s.adjFw fun w => { w with crashLost := satInc 8 w.crashLost }) (.crash r) := by
      simp only [State.logCrash, State.adjFw, if_neg hroom]
    rw [hlog]
    exact ⟨rfl, rfl, rfl, rfl, fun h => absurd h hroom⟩

/-- A processor that is declared crashed for the first time. -/
def Proc.crashed (cause crashes ftc : Nat) (p : Proc) : Proc :=
  { p with sramUe := cause == 3, st := .restarting, crashes := crashes, cause := cause, declared := [ftc], switched := none }

/-- The record of such a crash. -/
def State.firstRecord (s : State) (n cause pc info : Nat) : List Byte :=
  s.crashRecord n cause (satInc 8 (s.proc n).crashes) false pc info

/-- Such a crash is logged, and its processor is held in reset. -/
def State.heldCrashed (s : State) (n cause pc info : Nat) : State :=
  (State.logCrash { s with free := s.free + 2 } (s.firstRecord n cause pc info)).adjProc n
    (Proc.crashed cause (satInc 8 (s.proc n).crashes) s.ftc)

/-- The first crash of a processor: once it is logged and held, its effects follow and its interrupts move. -/
def State.firstCrash (s : State) (n cause pc info : Nat) : State :=
  (((s.heldCrashed n cause pc info).crashEffects n false).crashSources n).raise 44

section
variable {s : State} {n cause pc info : Nat}

theorem State.procCrash_first (hn : n < 19) (hsec : n ≠ 8) (hst : (s.proc n).st = .running) (hmay : s.mayCrash n cause = true)
    (hswitched : (s.proc n).switched = none) (hfirst : (s.proc n).declared = []) :
    s.procCrash n cause pc info = s.firstCrash n cause pc info := by
  have hin : ¬ 19 ≤ n := Nat.not_le.2 hn
  have hsec' : (n == 8) = false := beq_false_of_ne hsec
  simp only [State.procCrash, hst, hmay, hswitched, hfirst, hin, hsec, hsec', decide_false, Bool.not_true, Bool.or_self,
    Bool.false_and, Bool.false_eq_true, if_false, false_and, List.filter_nil, List.length_singleton, Nat.reduceLeDiff]
  rfl

theorem State.mayCrash_of_due (hlow : 1 ≤ cause) (hhigh : cause ≤ 4)
    (hwdt : cause = 1 → (s.proc n).wdtFrom + s.wdtNs n ≤ s.sinceReset) : s.mayCrash n cause = true := by
  rw [State.mayCrash, decide_eq_true (⟨hlow, hhigh⟩ : 1 ≤ cause ∧ cause ≤ 4), Bool.true_and]
  by_cases h : cause = 1
  · rw [decide_eq_true (hwdt h), Bool.or_true]
  · rw [bne_iff_ne.2 h, Bool.true_or]

theorem State.outside_firstCrash : (s.firstCrash n cause pc info).outside = s.outside := by
  obtain ⟨hlog, -⟩ := State.logCrash_logs { s with free := s.free + 2 } (s.firstRecord n cause pc info)
  obtain ⟨heffects, -⟩ := (s.heldCrashed n cause pc info).crashEffects_keeps n
  rw [State.firstCrash, State.outside_raise, State.outside_crashSources, heffects, State.heldCrashed, State.outside_adjProc, hlog]
  rfl

/-- FLASH is asked for the entry, and the record is kept while there is room. -/
theorem State.logs_firstCrash : (s.firstCrash n cause pc info).fw.flash = s.fw.flash ∧
    (s.firstCrash n cause pc info).fw.writes = s.fw.writes ++ [.crash (s.firstRecord n cause pc info)] ∧
    (s.fw.crashRecs.length < 16 →
      (s.firstCrash n cause pc info).fw.crashRecs = s.fw.crashRecs ++ [s.firstRecord n cause pc info]) := by
  obtain ⟨-, -, hflash, hwrites, hrecs⟩ := State.logCrash_logs { s with free := s.free + 2 } (s.firstRecord n cause pc info)
  obtain ⟨-, hlogs, -⟩ := (s.heldCrashed n cause pc info).crashEffects_keeps n
  rw [State.firstCrash, State.fw_raise, State.fw_crashSources]
  exact ⟨(congrArg Logs.flash hlogs).trans hflash, (congrArg Logs.writes hlogs).trans hwrites,
    fun hroom => (congrArg Logs.recs hlogs).trans (hrecs hroom)⟩

/-- The processor is crashed, with its gate closed where it is a CCC, and no other one changes. -/
theorem State.procs_firstCrash (hn : n < s.fw.procs.length) : ∃ g, (11 ≤ n → g = true) ∧
    (s.firstCrash n cause pc info).fw.procs =
      s.fw.procs.set n { (s.proc n).crashed cause (satInc 8 (s.proc n).crashes) s.ftc with gate := g } := by
  obtain ⟨-, hprocs, -⟩ := State.logCrash_logs { s with free := s.free + 2 } (s.firstRecord n cause pc info)
  obtain ⟨-, -, heffects⟩ := (s.heldCrashed n cause pc info).crashEffects_keeps n
  have hproc : (State.logCrash { s with free := s.free + 2 } (s.firstRecord n cause pc info)).proc n = s.proc n :=
    congrArg (fun l => l.getD n Proc.reset) hprocs
  have hheld : (s.heldCrashed n cause pc info).fw.procs =
      s.fw.procs.set n ((s.proc n).crashed cause (satInc 8 (s.proc n).crashes) s.ftc) := by
    rw [State.heldCrashed, State.procs_adjProc, hproc, hprocs]
  rw [State.firstCrash, State.fw_raise, State.fw_crashSources, heffects]
  by_cases hccc : 11 ≤ n
  · obtain ⟨hsame, -⟩ := State.proc_of_procs_set hheld
    refine ⟨true, fun _ => rfl, ?_⟩
    rw [State.closeGate, if_pos hccc, State.procs_adjProc, hsame hn, hheld, List.set_set]
  · refine ⟨(s.proc n).gate, fun h => absurd h hccc, ?_⟩
    rw [State.closeGate, if_neg hccc, hheld]
    rfl

end

/-! ### A restart (12 R361) -/

theorem Tbl.has_set_same {α : Type} (t : Tbl α) (n : Nat) (v : α) : Tbl.has (Tbl.set t n v) n = true := by
  rw [Tbl.has, Tbl.get?_set_same]
  rfl

/-- The key of the component that a processor runs. -/
def State.runKey (s : State) (n : Nat) : Nat := cacheKey (compOf n) (s.proc n).imageB

/-- Does a processor that restarts read its component from flash? -/
def State.refetches (s : State) (n : Nat) : Bool :=
  Config.flip s.free || s.fw.bad.contains (s.runKey n) || !Tbl.has s.fw.cache (s.runKey n)

/-- A restarting processor that has its component runs, and its crash record is stamped. -/
def State.reloads (s : State) (n : Nat) : State :=
  let s0 : State := { s with free := s.free + 2 }
  ((if s.refetches n then s0.cacheComp (compOf n) (s.proc n).imageB else s0).adjProc n fun p =>
    { p.runs s.sinceReset with degraded := false }).adjFw fun w =>
      { w with refetch := w.refetch || s.refetches n
               bad := if s.refetches n then w.bad.filter fun k => k != s.runKey n else w.bad
               crashRecs := stampRestart n (s.ftc + (Config.word (s.free + 1)).toNat % 64) w.crashRecs }

section
variable {s : State} {n : Nat}

/-- It has its component where no read from flash is needed, where SEC runs, and where it is SEC. -/
theorem State.procRestart_reloads (hst : (s.proc n).st = .restarting) (hsec : n = 8 ∨ s.procUp 8 = true) :
    s.procRestart n = ((s.reloads n).returnSources n).takeDuties n := by
  have hhas : (s.refetches n && n != 8 && !s.procUp 8) = false := by
    rcases hsec with rfl | hup
    · simp only [bne_self_eq_false, Bool.and_false, Bool.false_and]
    · simp only [hup, Bool.not_true, Bool.and_false]
  rw [State.refetches, State.runKey] at hhas
  simp only [State.procRestart, hst, hhas, Bool.false_eq_true, if_false]
  rfl

/-- While SEC is down a component that is not there is waited for. -/
theorem State.procRestart_waits (hst : (s.proc n).st = .restarting) (hother : n ≠ 8) (hsec : s.procUp 8 = false)
    (hcache : Tbl.has s.fw.cache (s.runKey n) = false) :
    s.procRestart n = State.adjFw { s with free := s.free + 2 } fun w => { w with bad := dedupNat (s.runKey n :: w.bad) } := by
  have hwait : (s.refetches n && n != 8 && !s.procUp 8) = true := by
    simp only [State.refetches, hcache, hsec, bne_iff_ne.2 hother, Bool.not_false, Bool.or_true, Bool.and_self]
  rw [State.refetches, State.runKey] at hwait
  simp only [State.procRestart, hst, hwait, if_true]
  rfl

/-- What a processor that runs again has: its state and its component. -/
theorem State.reloads_eq (s : State) (n : Nat) : ∃ w : Fw, s.reloads n = { s with free := s.free + 2, fw := w } ∧
    w.procs = s.fw.procs.set n { (s.proc n).runs s.sinceReset with degraded := false } ∧ w.duties = s.fw.duties ∧
    Tbl.has w.cache (s.runKey n) = true := by
  refine ⟨(s.reloads n).fw, ?_⟩
  cases hre : s.refetches n with
  | true =>
    simp only [State.reloads, hre, if_true]
    exact ⟨rfl, rfl, rfl, Tbl.has_set_same ..⟩
  | false =>
    have hcache : Tbl.has s.fw.cache (s.runKey n) = true := by
      simp only [State.refetches, Bool.or_eq_false_iff, Bool.not_eq_false'] at hre
      exact hre.2
    simp only [State.reloads, hre, Bool.false_eq_true, if_false]
    exact ⟨rfl, rfl, rfl, hcache⟩

theorem State.returnSources_eq (s : State) (n : Nat) : ∃ i, s.returnSources n = s.withIc i :=
  State.foldS_withIc (fun s m => s.adjSrc_eq m _) _ s

/-- The duties once a processor has taken up those that wait. -/
def takenDuties (n : Nat) (ds : List (Nat × Bool)) : List (Nat × Bool) :=
  if n < 8 then ds.map fun d => if d.2 then (n, false) else d else ds

theorem State.takeDuties_eq (s : State) (n : Nat) :
    s.takeDuties n = s.adjFw fun w => { w with duties := takenDuties n w.duties } := by
  rw [State.takeDuties]
  split
  next hcore => simp only [takenDuties, if_pos hcore]
  next hother => simp only [takenDuties, if_neg hother]; rfl

theorem getD_takenDuties_waiting {ds : List (Nat × Bool)} {k : Nat} (hcore : n < 8) (hwaits : (ds.getD k (0, false)).2 = true) :
    (takenDuties n ds).getD k (0, false) = (n, false) := by
  rw [takenDuties, if_pos hcore]
  refine (List.getD_map ds (0, false) fun d : Nat × Bool => if d.2 then (n, false) else d).trans ?_
  exact if_pos hwaits

/-- A processor that runs again changes the firmware and the interrupt controller alone. -/
theorem State.procRestart_runs (hst : (s.proc n).st = .restarting) (hsec : n = 8 ∨ s.procUp 8 = true) : ∃ (w : Fw) (i : Ic),
    s.procRestart n = { s with free := s.free + 2, fw := w, ic := i } ∧
    w.procs = s.fw.procs.set n { (s.proc n).runs s.sinceReset with degraded := false } ∧
    Tbl.has w.cache (s.runKey n) = true ∧ w.duties = takenDuties n s.fw.duties := by
  obtain ⟨w, hreloads, hprocs, hduties, hcache⟩ := s.reloads_eq n
  obtain ⟨i, hi⟩ := (s.reloads n).returnSources_eq n
  refine ⟨{ w with duties := takenDuties n w.duties }, i, ?_, hprocs, hcache, congrArg (takenDuties n) hduties⟩
  rw [State.procRestart_reloads hst hsec, hi, State.takeDuties_eq, hreloads]
  rfl

end

/-! ### Duties and gates (12 R362) -/

section
variable {s : State} {n m d home : Nat}

theorem State.icSrc_adjSrc_same (h : (icReset n).isSome = true) (f : IcSrc → IcSrc) : (s.adjSrc n f).icSrc n = f (s.icSrc n) := by
  rw [State.adjSrc, if_pos h]
  exact Tbl.getD_set_same s.ic.srcs n _ _

theorem State.icSrc_adjSrc_other (h : m ≠ n) (f : IcSrc → IcSrc) : (s.adjSrc n f).icSrc m = s.icSrc m := by
  rw [State.adjSrc]
  split
  · exact Tbl.getD_set_other s.ic.srcs _ _ h.symm
  · rfl

/-- The ADMIN_DB source of a partition goes to a core. -/
def State.aimAdminDb (home : Nat) (s : State) (p : Nat) : State := s.adjSrc (64 + p) fun x => { x with target := home }

theorem State.target_foldS_aimAdminDb {q : Nat} (hq : q < 128) (ps : List Nat) (s : State)
    (h : q ∈ ps ∨ (s.icSrc (64 + q)).target = home) :
    ((foldS ps (State.aimAdminDb home) s).icSrc (64 + q)).target = home := by
  induction ps generalizing s with
  | nil => exact h.resolve_left List.not_mem_nil
  | cons p ps ih =>
    refine ih (s.aimAdminDb home p) ?_
    by_cases hp : p = q
    · subst hp
      rw [State.aimAdminDb, State.icSrc_adjSrc_same (icReset_adminDb hq)]
      exact .inr rfl
    · rw [State.aimAdminDb, State.icSrc_adjSrc_other (by omega)]
      exact h.imp_left fun hmem => (List.mem_cons.1 hmem).resolve_left (Ne.symm hp)

/-- A duty that a core has back. -/
def State.dutyBack (s : State) (d home : Nat) : State := s.adjFw fun w =>
  { w with duties := w.duties.set d (home, false)
           lost := Tbl.set w.lost d ((Tbl.getD s.fw.lost d []).takeWhile fun k => k != home) }

section
variable (hd : d < 14) (hhome : (Tbl.getD s.fw.lost d []).find? (fun k => s.procUp k) = some home)
  (hquiet : s.dutyQuiet d = true)
include hd hhome hquiet

/-- At its quiet point a duty returns, an ADMIN duty with the sources of its partitions. -/
theorem State.dutyReturn_quiet : s.dutyReturn d = if d < 8 then
    foldS ((List.range 128).filter fun p => p % 8 == d) (State.aimAdminDb home) (s.dutyBack d home) else s.dutyBack d home := by
  have hin : ¬ 14 ≤ d := Nat.not_le.2 hd
  simp only [State.dutyReturn, hhome, hin, hquiet, decide_false, Bool.not_true, Bool.or_self, Bool.false_eq_true, if_false]
  rfl

theorem State.dutyReturn_admin (hadmin : d < 8) : ∃ i, s.dutyReturn d = (s.dutyBack d home).withIc i ∧
    ∀ q, q < 128 → q % 8 = d → (((s.dutyBack d home).withIc i).icSrc (64 + q)).target = home := by
  obtain ⟨i, hi⟩ : ∃ i, foldS ((List.range 128).filter fun p => p % 8 == d) (State.aimAdminDb home) (s.dutyBack d home) =
      (s.dutyBack d home).withIc i := State.foldS_withIc (fun s p => s.adjSrc_eq (64 + p) _) _ _
  refine ⟨i, by rw [State.dutyReturn_quiet hd hhome hquiet, if_pos hadmin, hi], fun q hq hmod => ?_⟩
  have hmem : q ∈ (List.range 128).filter fun p => p % 8 == d := List.mem_filter.2 ⟨List.mem_range.2 hq, beq_iff_eq.2 hmod⟩
  rw [← hi]
  exact State.target_foldS_aimAdminDb hq _ _ (.inl hmem)

theorem State.dutyReturn_other (hother : 8 ≤ d) : s.dutyReturn d = s.dutyBack d home := by
  rw [State.dutyReturn_quiet hd hhome hquiet, if_neg (Nat.not_lt.2 hother)]

end

theorem State.gateTimeout_due {at_ : Nat} {rest : List Nat} (hn : n < 19) (hccc : 11 ≤ n) (hgate : (s.proc n).gate = true)
    (hdown : (s.proc n).st ≠ .running) (hdeclared : (s.proc n).declared = at_ :: rest) (hdue : at_ + 5000000 ≤ s.ftc) :
    s.gateTimeout n = s.adjProc n fun p => { p with gate := false, degraded := true } := by
  have hup : s.procUp n = false := beq_false_of_ne hdown
  simp only [State.gateTimeout, hn, hccc, hgate, hup, hdeclared, hdue, and_self, decide_true, Bool.not_false,
    Bool.and_self, if_true]

end

/-- Settles O52: each event goes by the equation of its operation, and what it leaves of processors, duties and sources by the
lemmas of that operation. -/
theorem processorsCrashAndRestart : Obligations.ProcessorsCrashAndRestart := by
  unfold Obligations.ProcessorsCrashAndRestart
  rintro s n d cause pc info home p lost hs hn hprocs hduties rfl
  have hlen : n < s.fw.procs.length := hn.trans_eq hprocs.symm
  refine ⟨fun hst hlow hhigh hwdt hswitched hfirst hsec => ?crash, fun hst hsec => ?restart, fun hst hother hsec hcache => ?waits,
    fun hd hlost hhome hquiet => ?returns, fun at_ rest hccc hgate hdown hdeclared hdue => ?gate⟩
  case crash =>
    have hmay := State.mayCrash_of_due hlow hhigh hwdt
    have hout := State.outside_firstCrash (s := s) (n := n) (cause := cause) (pc := pc) (info := info)
    obtain ⟨hflash, hwrites, hrecs⟩ := State.logs_firstCrash (s := s) (n := n) (cause := cause) (pc := pc) (info := info)
    obtain ⟨g, hg, hset⟩ := State.procs_firstCrash (cause := cause) (pc := pc) (info := info) hlen
    obtain ⟨hsame, hother⟩ := State.proc_of_procs_set hset
    have hp := hsame hlen
    exact ⟨_, State.after_outside hs (f := fun s => s.procCrash n cause pc info)
      (State.procCrash_first hn hsec hst hmay hswitched hfirst) hout, congrArg Proc.st hp, congrArg Proc.cause hp,
      congrArg Proc.crashes hp, congrArg Proc.declared hp, fun k hk => congrArg Proc.st (hother k hk), congrArg Proc.sramUe hp,
      hflash, hwrites, hrecs, fun hccc => (congrArg Proc.gate hp).trans (hg hccc), congrArg Outside.fences hout,
      congrArg Outside.rings hout, State.sameMemory_of_outside hout⟩
  case restart =>
    obtain ⟨w, i, hrestart, hset, hcache, htaken⟩ := State.procRestart_runs hst hsec
    obtain ⟨hsame, hother⟩ := State.proc_of_procs_set (t := { s with free := s.free + 2, fw := w, ic := i }) hset
    have hp := hsame hlen
    refine ⟨_, State.after_live hs (f := fun s => s.procRestart n) hrestart rfl rfl rfl rfl, congrArg Proc.st hp,
      congrArg Proc.degraded hp, congrArg Proc.sramUe hp, congrArg Proc.wdtFrom hp, hcache, hother, fun k hcore _ hwaits => ?_, rfl⟩
    rw [State.duty, htaken]
    exact getD_takenDuties_waiting hcore hwaits
  case waits =>
    exact ⟨_, State.after_live hs (f := fun s => s.procRestart n) (State.procRestart_waits hst hother hsec hcache) rfl rfl rfl rfl,
      fun _ => rfl, rfl⟩
  case returns =>
    subst hlost
    by_cases hadmin : d < 8
    · obtain ⟨i, hreturn, htargets⟩ := State.dutyReturn_admin hd hhome hquiet hadmin
      exact ⟨_, State.after_live hs (f := fun s => s.dutyReturn d) hreturn rfl rfl rfl rfl, rfl,
        fun hother => absurd hadmin (Nat.not_lt.2 hother), fun q _ hq hmod => htargets q hq hmod⟩
    · have hreturn := State.dutyReturn_other hd hhome hquiet (Nat.not_lt.1 hadmin)
      exact ⟨_, State.after_live hs (f := fun s => s.dutyReturn d) hreturn rfl rfl rfl rfl, rfl, fun _ => rfl,
        fun q h => absurd h hadmin⟩
  case gate =>
    exact State.after_live hs (f := fun s => s.gateTimeout n) (State.gateTimeout_due hn hccc hgate hdown hdeclared hdue)
      rfl rfl rfl rfl

end Sys2Proof.Machine
end

section
/-! PROOFS. What every step keeps of device memory (14 R411, R412), the state after power-on reset (14 R399),
and the register writes that ask for a reset (14 R400). -/
namespace Sys2Proof.Machine

/-! ### Device memory -/

/-- Whichever way a command answers, a next state is the state with some effect run on it. -/
theorem exists_run_of_exec_eq_next {c : Instr} {s t : State} (h : exec c s = .next t) : ∃ f, t = s.run f := by
  cases hpower : actsUnpowered c with
  | true =>
    obtain ⟨f, hf⟩ := exec_eq_always s hpower
    exact ⟨f, (Host.Outcome.next.inj (hf.symm.trans h)).symm⟩
  | false =>
    cases hreport : engineReport c with
    | none =>
      obtain ⟨f, hf⟩ := exec_eq_after c s hpower hreport
      exact ⟨_, (Host.Outcome.next.inj (hf.symm.trans h)).symm⟩
    | some report =>
      obtain ⟨node, e, r⟩ := report
      rw [exec_engineReport s hreport] at h
      split at h
      case isTrue => cases h
      case isFalse => exact ⟨_, (Host.Outcome.next.inj h).symm⟩

/-- Settles O3: an idle step answers the state itself, and every other runs an effect, which keeps memory canonical. -/
theorem memoryStaysCanonical : Obligations.MemoryStaysCanonical := by
  unfold Obligations.MemoryStaysCanonical
  intro s t hs hstep
  cases hqueue : s.pending with
  | nil =>
    have hidle : step s = .next s := (stepRunsTheFrontCommand s .pcSample []).2 hqueue
    obtain rfl := Host.Outcome.next.inj (hidle.symm.trans hstep)
    exact hs
  | cons c rest =>
    have hfront : step s = exec c { s with pending := rest } := (stepRunsTheFrontCommand s c rest).1 hqueue
    obtain ⟨f, rfl⟩ := exists_run_of_exec_eq_next (hfront.symm.trans hstep)
    obtain ⟨hwf, -, -⟩ := hs
    exact State.run_settled _ f hwf

/-! ### The state after power-on reset -/

theorem State.reset_settled : State.reset.settled := ⟨rfl, rfl, rfl⟩

/-- Settles O4: each part is read off the state after power-on reset, whose tables are empty. -/
theorem resetIsSettledAndEmpty : Obligations.ResetIsSettledAndEmpty := by
  unfold Obligations.ResetIsSettledAndEmpty
  have hlive : State.reset.live := ⟨State.reset_settled, rfl⟩
  have hnumbered : ∀ p r c f g : Nat, State.reset.part p = Part.reset ∧ State.reset.ring? (pkey p r) = none ∧
      State.reset.ctx? (pkey p c) = none ∧ State.reset.fence? (pkey p f) = none ∧ State.reset.graph? g = none ∧
      State.reset.table? g = none := fun p r c f g => ⟨rfl, rfl, rfl, rfl, rfl, rfl⟩
  have hbytes : ∀ a, State.reset.readByte a = 0 := fun a => rfl
  exact ⟨State.reset_settled, hlive, rfl, rfl, rfl, hnumbered, rfl, rfl, rfl, rfl, rfl, hbytes⟩

/-! ### Resets that a register asks for -/

section
variable {s : State} {a : RegAcc} {d kind straps : Nat}

/-- A write without CONFIRM 0x5A does nothing (14 R400). -/
theorem State.rstWrite_unconfirmed (h : bitsOf d 8 8 ≠ 0x5A) : s.rstWrite d straps = s := if_pos h

/-- MH_RST_CTRL acts when the write arrives; the write itself then waits for the boundary as every write does. -/
theorem State.resetWrite_pf (hkind : bitsOf d 0 2 = kind) : s.resetWrite ⟨.pf, 0x100E0004, 4, d, []⟩ kind straps =
    { s.rstWrite (d % 2 ^ 16) straps with
      hostOps := (s.rstWrite (d % 2 ^ 16) straps).hostOps ++ [.reg ⟨.pf, 0x100E0004, 4, d, []⟩] } := by
  have hspace : spaceOf ⟨.pf, 0x100E0004, 4, d, []⟩ = .mgmt 0xE0004 := spaceOf_pf_mgmt rfl rfl (by decide)
  have hnames : names ⟨.pf, 0x100E0004, 4, d, []⟩ 0xE0004 = true := by rw [names, hspace]; rfl
  have hdata : wfld ⟨.pf, 0xE0004, 4, d, []⟩ 0xE0004 0 16 = d % 2 ^ 16 :=
    (wfld_of_covers rfl (by decide) rfl).trans (by rw [bitsOf, Nat.pow_zero, Nat.div_one])
  have harrive : s.arrive ⟨.pf, 0xE0004, 4, d, []⟩ 0xE0004 straps = s.rstWrite (d % 2 ^ 16) straps :=
    congrArg (s.rstWrite · straps) hdata
  have hwrite := State.regWrite_mgmt_arrives (s := s) (b := 0xE0004) (straps := straps) (ok := false)
    (show 4 ≤ 64 by decide) hspace rfl rfl rfl
  rw [harrive] at hwrite
  have hnamed : (names ⟨.pf, 0x100E0004, 4, d, []⟩ 0xE0004 && bitsOf d 0 2 == kind) = true := by
    rw [hnames, hkind]
    exact beq_self_eq_true kind
  exact (if_pos hnamed).trans hwrite

end

/-- Settles O40: both writes name MH_RST_CTRL with CONFIRM and their KIND. -/
theorem resetsAreAskedForByRegister : Obligations.ResetsAreAskedForByRegister := by
  unfold Obligations.ResetsAreAskedForByRegister
  rintro s straps a b hs rfl rfl
  refine ⟨?mahorn, ?whole, fun d hd => State.rstWrite_unconfirmed hd⟩
  case mahorn =>
    exact State.after_live hs (f := fun s => s.resetWrite _ 1 s.boot.straps) (State.resetWrite_pf rfl) rfl rfl rfl rfl
  case whole =>
    exact State.after_live hs (f := fun s => s.resetWrite _ 2 straps) (State.resetWrite_pf rfl) rfl rfl rfl rfl

end Sys2Proof.Machine
end

section
/-! PROOFS. The kinds of reset (14 R399, R400, R408, R411, R413): what each ends, and what it keeps. -/
namespace Sys2Proof.Machine

/-! ### What a reset ends -/

/-- Nothing volatile is left (14 R399): no partition, context, ring, command, launch, graph, fence, object,
table or task, and every unit as after a reset. -/
def State.emptied (t : State) : Prop :=
  t.parts = [] ∧ t.ctxs = [] ∧ t.rings = [] ∧ t.works = [] ∧ t.launches = [] ∧ t.graphs = [] ∧ t.fences = [] ∧
    t.exports = [] ∧ t.watch = [] ∧ t.listed = [] ∧ t.objs = [] ∧ t.tables = [] ∧ t.tasks = [] ∧ t.hostOps = [] ∧ t.msgs = [] ∧
    t.epoch = 1 ∧ t.cop = Coppice.reset ∧ t.marshal = Marshal.reset ∧ t.stop = Stop.reset ∧ t.flt = Faults.reset ∧
    t.pwr = Power.reset ∧ t.svc = Svc.reset ∧ t.trace = TraceUnit.reset ∧ t.fenced = 0

/-- The state with these partitions. -/
def State.withParts (s : State) (parts : Tbl Part) : State := { s with parts := parts }

section
variable {s : State} {f : State → State} {P : State → Prop} {kind straps resets ftc : Nat}

theorem State.emptied_resetTo : (s.resetTo kind straps resets ftc).emptied :=
  ⟨rfl, rfl, rfl, rfl, rfl, rfl, rfl, rfl, rfl, rfl, rfl, rfl, rfl, rfl, rfl, rfl, rfl, rfl, rfl, rfl, rfl,
      rfl, rfl, rfl⟩

/-- Neither a clearing of memory nor a change of the boot unit brings anything back. -/
theorem State.emptied_clearBytes {a n : Nat} (h : s.emptied) : (s.clearBytes a n).emptied := h

theorem State.emptied_adjBoot {g : Boot → Boot} (h : s.emptied) : (s.adjBoot g).emptied := h

/-- Nor does the landing of a command's stores. -/
theorem State.emptied_run (h : ∀ s, (f s).emptied) : (s.run f).emptied := h { s with stores := [], cleared := [] }

theorem State.withParts_parts (s : State) : s.withParts s.parts = s := rfl

/-- A reset that a register asked for leaves, of what it ends, at most the VF Enables. -/
theorem State.dueReset_eq (s : State) (kind straps : Nat) :
    ∃ parts resets, s.dueReset kind straps = (s.resetTo kind straps resets s.ftc).withParts parts := by
  by_cases hkind : kind = 4
  · subst hkind
    exact ⟨(s.parts.filter fun e => e.2.vf).map fun e => (e.1, { Part.reset with vf := true }), s.moreResets, rfl⟩
  · exact ⟨(s.resetTo kind straps s.boot.resets s.ftc).parts, s.boot.resets,
      (if_neg hkind).trans (State.withParts_parts _).symm⟩

/-! ### Where a command goes, and what its memory reads as -/

theorem State.after_goes_run (hs : s.live) (h : P (s.run f)) : GoesTo (s.after f) P := ⟨_, State.after_eq hs.2 f, h⟩

theorem State.always_goes_run (h : P (s.run f)) : GoesTo (s.always f) P := ⟨_, rfl, h⟩

/-- After an effect that neither stores nor clears, memory reads as before: a reset of Mahorn or of the module
keeps it (14 R411). -/
theorem State.sameMemory_run (hs : s.settled) (hst : (f s).stores = s.stores) (hcl : (f s).cleared = s.cleared) :
    SameMemory s (s.run f) := by
  intro a
  rw [State.run_eq hs, hst, hcl]
  obtain ⟨-, hstores, hcleared⟩ := hs
  rw [State.readByte, State.readByte, hstores, hcleared, Mem.clear_none, Mem.putAll_none]

/-- After an effect that clears the device's whole address range at last, every byte reads 0. -/
theorem State.readByte_run_cleared (hs : s.settled)
    (hst : (f s).stores = s.stores.filter fun c => !inRanges [(0, 2 ^ 64)] c.1)
        (hcl : (f s).cleared = (0, 2 ^ 64) :: s.cleared)
    {a : Nat} (ha : a < 2 ^ 64) : (s.run f).readByte a = 0 := by
  have hin : inRanges [(0, 2 ^ 64)] a = true := by
    simp only [inRanges, List.any_cons, Nat.zero_le, Nat.zero_add, ha, decide_true, Bool.true_and, Bool.true_or]
  have hmem : (s.run f).readByte a = Mem.get (s.run f).mem a := rfl
  rw [hmem, State.run_eq hs, hst, hcl]
  obtain ⟨-, hstores, hcleared⟩ := hs
  rw [hstores, hcleared, List.filter_nil, Mem.putAll_none, Mem.get_clear, hin]
  rfl

/-- A reset that is due begins at the boundary, in the state as the tick left it. -/
theorem State.tickBoundary_due (un : List (Nat × Nat × Nat)) (errs : List MemErr) {k : Nat}
    (hdue : s.boot.due = some (k, straps)) : ∃ (u : State) (parts : Tbl Part) (resets : Nat),
      s.tickBoundary un errs = (u.resetTo k straps resets u.ftc).withParts parts := by
  obtain ⟨parts, resets, hreset⟩ :=
    ((s.endOfTick.adjFab fun x => { x with ftc := s.nextFtc }).countTick).dueReset_eq k straps
  refine ⟨_, parts, resets, Eq.trans ?_ hreset⟩
  simp only [State.tickBoundary, hdue]

end

/-- Settles O39: each kind is a reset to its own KIND, straps and time; what it keeps is read off it, and what
memory reads as off what it clears. -/
theorem resetsEndEveryVolatileState : Obligations.ResetsEndEveryVolatileState := by
  unfold Obligations.ResetsEndEveryVolatileState
  intro s straps un errs hs empty keeps back
  obtain ⟨hset, hpower⟩ := id hs
  have hresets : s.moreResets = min (s.boot.resets + 1) 65535 := by
    simp only [State.moreResets, satInc]
    split <;> omega
  refine ⟨?powerOn, ?perst, fun hanswers => ?flr, fun hquiet => ?early, ?powerLoss, fun k hdue => ?due⟩
  case powerOn =>
    exact State.always_goes_run ⟨State.emptied_run fun s => State.emptied_clearBytes State.emptied_resetTo,
      ⟨rfl, rfl, rfl⟩, rfl, rfl, rfl, fun a ha => State.readByte_run_cleared hset rfl rfl ha⟩
  case perst =>
    exact State.after_goes_run hs ⟨State.emptied_run fun s => State.emptied_resetTo, ⟨rfl, rfl, rfl⟩, rfl, rfl, rfl,
      State.sameMemory_run hset rfl rfl⟩
  case flr =>
    have hflr : s.after (fun s => if s.answersConfig then s.pfFlr else s) = .next (s.run State.pfFlr) :=
      State.after_run (k := State.pfFlr) hs (if_pos hanswers) rfl rfl rfl rfl
    exact ⟨_, hflr, State.emptied_run fun s => State.emptied_resetTo, ⟨rfl, rfl, rfl⟩, rfl,
      congrArg (Boot.start s.boot.straps 5) hresets, State.sameMemory_run hset rfl rfl⟩
  case early =>
    have hnone : ¬ s.answersConfig = true := by rw [hquiet]; exact Bool.false_ne_true
    exact State.after_unchanged hs (if_neg hnone)
  case powerLoss =>
    exact State.after_goes_run hs
      ⟨State.emptied_run fun s => State.emptied_adjBoot (State.emptied_clearBytes State.emptied_resetTo),
          ⟨rfl, rfl, rfl⟩, rfl,
        rfl, fun a ha => State.readByte_run_cleared hset rfl rfl ha⟩
  case due =>
    obtain ⟨u, parts, resets, hreset⟩ := s.tickBoundary_due un errs hdue
    refine ⟨_, State.after_eq hpower _, ?_⟩
    rw [State.run_eq hset, hreset]
    exact ⟨rfl, rfl, rfl, rfl, rfl, rfl, rfl, rfl⟩

end Sys2Proof.Machine
end

section
/-! PROOFS. Emergency levels and engine clocks (14 R415-R417, R419): what PWR decides, what a hardware trip does
at once, and what the boundary makes of a decision. -/
namespace Sys2Proof.Machine

/-- Changes made in order keep what each of them keeps. -/
theorem State.foldS_keeps {α β : Type} {g : State → β} {f : State → α → State} (hf : ∀ s x, g (f s x) = g s)
    (l : List α)
    (s : State) : g (foldS l f s) = g s := by
  induction l generalizing s with
  | nil => rfl
  | cons x xs ih => exact (ih (f s x)).trans (hf s x)

/-! ### The power unit under changes of the clocks and of endpoints -/

section
variable (s : State)

@[simp] theorem State.pwr_countBusy (e now : Nat) : (s.countBusy e now).pwr = s.pwr := by
  cases hseg : (s.ep e).seg with
  | none => simp only [State.countBusy, hseg]
  | some g =>
    obtain ⟨gc, pc, h⟩ := State.countBusy_eq now hseg
    rw [h]
    rfl

@[simp] theorem State.pwr_countBusyAll (now : Nat) : (s.countBusyAll now).pwr = s.pwr :=
  State.foldS_keeps (fun s e => s.pwr_countBusy e now) _ s

/-- The clocks are set to these steps, and nothing else of the power unit changes. -/
@[simp] theorem State.pwr_setClocks (core nx : Nat) :
    (s.setClocks core nx).pwr = { s.pwr with coreStep := core, nxStep := nx } := by
  have hclock (x : State) (e : Nat) : (if decide (e < 512) && x.isFenced (e / 4) then x
      else x.adjEp e fun y => y.clock x.ftc (if e < 520 then core else nx)).pwr = x.pwr := by
    split
    · rfl
    · rfl
  rw [State.setClocks, State.foldS_keeps (g := State.pwr) hclock, State.pwr_countBusyAll]

@[simp] theorem State.pwr_rerunAt (es : List Nat) : (s.rerunAt es).pwr = s.pwr := by
  rw [State.rerunAt, State.foldS_keeps (g := State.pwr)]
  · rfl
  · exact fun _ _ => rfl

@[simp] theorem State.pwr_raise (n : Nat) : (s.raise n).pwr = s.pwr := by
  obtain ⟨i, hi⟩ := s.raise_eq n
  rw [hi]

@[simp] theorem State.pwr_event (src ev : Nat) (p : Option Nat) (a b c : Nat) :
    (s.event src ev p a b c).pwr = s.pwr := by
  obtain ⟨tr, htr⟩ := s.event_eq src ev p a b c
  rw [htr]

end

/-! ### What is decided in a tick -/

section
variable {s : State} {f : State → State} {watts celsius ep step core nx : Nat} {th : Bool}

/-- What PWR notes of a comparison, and the level that it decides. -/
def State.compared (s : State) (watts celsius l : Nat) : State :=
  { s with
    free := s.free + 1
    pwr := { s.pwr with
      causes := (List.range 3).map fun i => if s.cause watts celsius (i + 1) then s.ftc else s.pwr.causes.getD i 0
      moduleW := watts % 2 ^ 16
      mahornMw := (Config.word s.free).toNat % 2 ^ 16
      due := some (l, false) } }

/-- With the cause of SHED present PWR raises any lower level to SHED. -/
theorem State.powerCompare_shed (hup : s.procUp 9 = true) (hdue : s.pwr.due = none) (hlevel : s.pwr.level < 2)
    (hshed : s.cause watts celsius 2 = true) : s.powerCompare watts celsius = s.compared watts celsius 2 := by
  simp only [State.powerCompare, hup, hdue, hlevel, hshed, Bool.not_true, Bool.false_eq_true,
      Option.isSome_none, and_self, if_true,
    if_false]
  rfl

/-- With the cause of THROTTLE alone it raises NONE to THROTTLE. -/
theorem State.powerCompare_throttle (hup : s.procUp 9 = true) (hdue : s.pwr.due = none) (hlevel : s.pwr.level = 0)
    (hshed : s.cause watts celsius 2 = false) (hthrottle : s.cause watts celsius 1 = true) :
    s.powerCompare watts celsius = s.compared watts celsius 1 := by
  simp only [State.powerCompare, hup, hdue, hlevel, hshed, hthrottle, Bool.not_true, Bool.false_eq_true,
      Option.isSome_none,
    and_false, Nat.lt_one_iff, and_self, if_true, if_false]
  rfl

/-- The causes that the sensors of a hardware trip note (14 R415, R416). -/
def State.tripCauses (s : State) (th : Bool) : List Nat :=
  if th = true then [s.ftc, s.ftc, s.ftc] else s.pwr.causes.set 2 s.ftc

theorem State.hwTrips_below (hlevel : s.pwr.level ≠ 3) : s.hwTrips th =
    ((s.adjPwr fun p => { p with causes := s.tripCauses th }).setClocks 0 s.pwr.nxStep).decideLevel 3 true :=
        if_neg hlevel

theorem State.hwTrips_at (hlevel : s.pwr.level = 3) : s.hwTrips th =
    s.adjPwr fun p => { p with causes := s.tripCauses th, due := none } := if_pos hlevel

/-- Within THROTTLE, with no trip decided, PWR sets the clocks. -/
theorem State.engineFreq_sets (hlevel : s.pwr.level = 1) (hclamp : s.pwr.clamp = false)
    (hdue : ∀ d, s.pwr.due = some d → d.1 ≠ 3)
    (hup : s.procUp 9 = true) (hmin : 8 ≤ step) (hmax : step ≤ 16) (hep : ep < 526) : s.engineFreq ep step =
      if ep < 520 then s.setClocks step s.pwr.nxStep else s.setClocks s.pwr.coreStep step := by
  have htrip : ¬ ∃ d ∈ s.pwr.due, d.1 = 3 := fun ⟨d, hd, h3⟩ => hdue d hd h3
  have hmay : ¬ (s.pwr.level ≠ 1 ∨ s.pwr.clamp = true ∨ (∃ d ∈ s.pwr.due, d.1 = 3) ∨ s.procUp 9 = false ∨
      step < 8 ∨ 16 < step ∨
      526 ≤ ep) := by
    rw [hclamp, hup]
    simp only [htrip, Bool.false_eq_true, Bool.true_eq_false, false_or]
    omega
  exact if_neg hmay

/-! ### Commands that change clocks -/

theorem State.adjPwr_id (s : State) : s.adjPwr id = s := rfl

/-- A live command that sets the clocks and then changes the power unit changes nothing but those parts. -/
theorem State.after_setClocks (hs : s.live) {t : State} {g : Power → Power} (hf : f s = (t.setClocks core nx).adjPwr g)
    (ht : { t with pwr := s.pwr } = s) : GoesTo (s.after f) fun u =>
      u = { s with pwr := u.pwr, eps := u.eps, gcnt := u.gcnt, pcnt := u.pcnt } ∧
        u.pwr = g { t.pwr with coreStep := core, nxStep := nx } := by
  have hpwr : ((t.setClocks core nx).adjPwr g).pwr = g { t.pwr with coreStep := core, nxStep := nx } :=
    congrArg g (t.pwr_setClocks core nx)
  obtain ⟨c, hc⟩ := t.setClocks_eq core nx
  rw [hc] at hf hpwr
  have hrest : (t.withClocks c).adjPwr g = { s with pwr := g c.pwr, eps := c.eps, gcnt := c.gcnt, pcnt := c.pcnt } := by
    rw [← ht]; rfl
  exact ⟨_, State.after_live hs (hf.trans hrest) rfl rfl rfl rfl, rfl, hpwr⟩

end

/-! ### What the boundary makes of a decision -/

/-- The level that was decided is in force, and no decision is left (14 R415). -/
theorem State.applyLevel_decided {s : State} {l : Nat} {hw : Bool} (hdue : s.pwr.due = some (l, hw)) (hl : l ≠ 3) :
    s.applyLevel.pwr.level = l ∧ s.applyLevel.pwr.due = none := by
  simp only [State.applyLevel, hdue, if_neg hl, State.pwr_event, State.pwr_raise, State.pwr_setClocks]
  split
  · rw [State.pwr_rerunAt]; exact ⟨rfl, rfl⟩
  · exact ⟨rfl, rfl⟩

/-- Settles O41: each event goes by the equation of its operation; of the clocks only the power unit matters. -/
theorem emergencyLevelsAndClocks : Obligations.EmergencyLevelsAndClocks := by
  unfold Obligations.EmergencyLevelsAndClocks
  intro s watts celsius ep step th hs here clocked compared
  refine ⟨fun hup hdue => ⟨fun hlevel hshed => ?shed, fun hlevel hshed hthrottle => ?throttle⟩, fun hlevel => ?trip,
    fun hlevel => ?atTrip, fun hlevel hclamp hdue hup hmin hmax => ⟨fun hep => ?core, fun hlow hep => ?nx⟩,
    fun l hw hdue hl => State.applyLevel_decided hdue hl⟩
  case shed =>
    exact ⟨_, State.after_live hs (f := fun s => s.powerCompare watts celsius)
        (State.powerCompare_shed hup hdue hlevel hshed)
      rfl rfl rfl rfl, rfl, rfl, rfl, rfl, rfl, rfl⟩
  case throttle =>
    exact ⟨_, State.after_live hs (f := fun s => s.powerCompare watts celsius)
      (State.powerCompare_throttle hup hdue hlevel hshed hthrottle) rfl rfl rfl rfl, rfl, rfl, rfl, rfl, rfl, rfl⟩
  case trip =>
    obtain ⟨t, ht, hrest, hpwr⟩ := State.after_setClocks hs (f := fun s => s.hwTrips th)
        (State.hwTrips_below hlevel) rfl
    exact ⟨t, ht, hrest, hpwr ▸ rfl, hpwr ▸ rfl, hpwr ▸ rfl, hpwr ▸ rfl, hpwr ▸ rfl⟩
  case atTrip =>
    exact ⟨_, State.after_live hs (f := fun s => s.hwTrips th) (State.hwTrips_at hlevel) rfl rfl rfl rfl, rfl,
        rfl, rfl, hlevel⟩
  case core =>
    have hset := (State.engineFreq_sets hlevel hclamp hdue hup hmin hmax (by omega)).trans (if_pos hep)
    exact State.after_setClocks hs (f := fun s => s.engineFreq ep step) (g := id)
        (hset.trans (State.adjPwr_id _).symm) rfl
  case nx =>
    have hset := (State.engineFreq_sets hlevel hclamp hdue hup hmin hmax hep).trans (if_neg (Nat.not_lt.2 hlow))
    exact State.after_setClocks hs (f := fun s => s.engineFreq ep step) (g := id)
        (hset.trans (State.adjPwr_id _).symm) rfl

end Sys2Proof.Machine
end

section
/-! PROOFS. The interrupt controller (13 R391-R395): claims, timers and watchdog warnings act at once;
completions and doorbells are register writes of the processors, which wait for the boundary (12 R352). -/
namespace Sys2Proof.Machine

/-! ### Register writes of the PF and of the firmware processors -/

/-- The agents that use the PF's addresses (02 R52). -/
def usesBar (who : Agent) : Prop := who = .pf ∨ ∃ m < 19, who = .proc m

theorem usesBar_proc {n : Nat} (hn : n < 19) : usesBar (.proc n) := .inr ⟨n, hn, rfl⟩

/-- A write of `n` bytes at offset `o` of the management window reaches the register at `b` alone, below the
staging areas; the register does not act when the write arrives, and the write asks for nothing but values. -/
structure BarWriteReaches (o n b : Nat) : Prop where
  short : n ≤ 64
  low : o + n ≤ 0x100000
  alone : basesOf (.mgmt o) ⟨.pf, o, n, 0, []⟩ = [b]
  waits : atArrival b = false
  asks : ∀ a, mgmtOps a b false = []

section
variable {s : State} {who : Agent} {o n b : Nat}

theorem spaceOf_usesBar (hwho : usesBar who) (v : Nat) (ho : o < 0x10000000) :
    spaceOf ⟨who, 0x10000000 + o, n, v, []⟩ = .mgmt o := by
  obtain rfl | ⟨m, hm, rfl⟩ := hwho
  · exact spaceOf_pf_mgmt rfl rfl ho
  · exact (if_pos hm).trans (spaceOf_pf_mgmt (a := ⟨.pf, 0x10000000 + o, n, v, []⟩) rfl rfl ho)

theorem BarWriteReaches.space (h : BarWriteReaches o n b) (hwho : usesBar who) (v : Nat) :
    spaceOf ⟨who, 0x10000000 + o, n, v, []⟩ = .mgmt o := spaceOf_usesBar hwho v (by have := h.low; omega)

/-- A live command that is such a write joins the writes that wait, and changes nothing else. -/
theorem State.after_mgmtWrite (h : BarWriteReaches o n b) (hwho : usesBar who) (hs : s.live) (v : Nat) :
    s.after (fun s => s.mgmtWrite who o n v) =
      .next { s with hostOps := s.hostOps ++ [.reg ⟨who, 0x10000000 + o, n, v, []⟩] } := by
  have hbar : who ≠ .jtag := by rintro rfl; simp [usesBar] at hwho
  have haddr : (if who = .jtag then o else 0x10000000 + o) = 0x10000000 + o := if_neg hbar
  have hbase : basesOf (.mgmt o) ⟨who, 0x10000000 + o, n, v, []⟩ = [b] := h.alone
  refine State.after_live hs (f := fun s => s.mgmtWrite who o n v) ?_ rfl rfl rfl rfl
  rw [State.mgmtWrite, haddr]
  refine State.regWrite_mgmt_plain (a := ⟨who, 0x10000000 + o, n, v, []⟩) h.short (h.space hwho v) ?_ ?_
  · rw [hbase]; exact List.forall_mem_singleton.2 h.waits
  · rw [hbase]; exact List.forall_mem_singleton.2 (h.asks _)

/-- At the boundary it takes effect on that register. -/
theorem State.hostOp1_mgmtWrite (h : BarWriteReaches o n b) (hwho : usesBar who) (un : List (Nat × Nat × Nat))
    (v : Nat) :
    s.hostOp1 un (.reg ⟨who, 0x10000000 + o, n, v, []⟩) = s.plainMgmt ⟨who, o, n, v, []⟩ b :=
  State.hostOp1_reg_mgmt (h.space hwho v) h.alone h.waits h.low

/-- Only partitions, teardowns and STAGE are asked for by management writes, and none of their registers is above. -/
theorem mgmtOps_of_above {a : RegAcc} {ok : Bool} (h : 0xA0200 < b) : mgmtOps a b ok = [] := by
  rw [mgmtOps, if_neg (by omega), if_neg (by omega), if_neg (by omega)]

end

/-! ### The registers of a processor in the interrupt controller -/

/-- Register `k` of the block of processor `n` (13 R398), of 4 bytes. -/
def icOffset (n k : Nat) : Nat := 0xD0000 + k + 256 * n

section
variable {s : State} {n k v : Nat} {a : RegAcc}

theorem basesOf_icComplete : ∀ n < 19,
    basesOf (.mgmt (icOffset n 0x04)) ⟨.pf, icOffset n 0x04, 4, 0, []⟩ = [icOffset n 0x04] := by
  decide

theorem basesOf_icDoorbell : ∀ n < 19,
    basesOf (.mgmt (icOffset n 0x18)) ⟨.pf, icOffset n 0x18, 4, 0, []⟩ = [icOffset n 0x18] := by
  decide

theorem reaches_icOffset (hn : n < 19) (hk : k < 256)
    (hb : basesOf (.mgmt (icOffset n k)) ⟨.pf, icOffset n k, 4, 0, []⟩ = [icOffset n k]) :
    BarWriteReaches (icOffset n k) 4 (icOffset n k) where
  short := by decide
  low := by simp only [icOffset]; omega
  alone := hb
  waits := by
    have hlow : 0xD0000 ≤ icOffset n k := by simp only [icOffset]; omega
    have hhigh : icOffset n k < 0xD1300 := by simp only [icOffset]; omega
    have hfence : icOffset n k ≠ 0x90028 := by omega
    have hreset : icOffset n k ≠ 0xE0004 := by omega
    have htime : icOffset n k ≠ 0x10100 := by omega
    rw [atArrival, beq_false_of_ne hfence, beq_false_of_ne hreset, beq_false_of_ne htime]
    rfl
  asks := fun a => mgmtOps_of_above (by simp only [icOffset]; omega)

theorem State.plainMgmt_icOffset (hn : n < 19) (hk : k < 256) :
    s.plainMgmt a (icOffset n k) = s.writeIc a n (icOffset n k) := by
  have hlow : 0xD0000 ≤ icOffset n k := by simp only [icOffset]; omega
  have hhigh : icOffset n k < 0xD1300 := by simp only [icOffset]; omega
  have hproc : (icOffset n k - 0xD0000) / 256 = n := by simp only [icOffset]; omega
  rw [State.plainMgmt, if_neg (by omega), if_neg (by omega), if_neg (by omega), if_neg (by omega), if_neg (by omega),
    if_neg (by omega), if_neg (by omega), if_neg (by omega), if_neg (by omega), if_neg (by omega), if_neg (by omega),
    if_pos hhigh, hproc]

/-- A write of 4 bytes that begins at a register covers each field of it. -/
theorem covers_of_word {lo w b : Nat} (ha : a.addr = b) (hn : a.bytes = 4) (hskip : a.skip = []) (hw : lo + w ≤ 32) :
    covers a b lo w = true := by
  have hbegin : b ≤ b + lo / 8 := Nat.le_add_right _ _
  have hend : b + (lo + w - 1) / 8 < b + 4 := by omega
  simp only [covers, ha, hn, hskip, hbegin, hend, decide_true, List.all_nil, Bool.and_self]

/-- The write of MH_IC_COMPLETE completes the source that it names. -/
theorem State.hostOp1_icComplete (hn : n < 19) (hv : v < 2 ^ 16) (un : List (Nat × Nat × Nat)) :
    s.hostOp1 un (.reg ⟨.proc n, 0x10000000 + icOffset n 0x04, 4, v, []⟩) = s.icComplete n v := by
  have hoff : icOffset n 0x04 % 256 = 4 := by simp only [icOffset]; omega
  have hcov : covers ⟨.proc n, icOffset n 0x04, 4, v, []⟩ (icOffset n 0x04) 0 16 = true :=
    covers_of_word rfl rfl rfl (by decide)
  have hfield : wfld ⟨.proc n, icOffset n 0x04, 4, v, []⟩ (icOffset n 0x04) 0 16 = v := by
    rw [wfld_of_covers rfl (by decide) hcov, bitsOf, Nat.pow_zero, Nat.div_one, Nat.mod_eq_of_lt hv]
  rw [State.hostOp1_mgmtWrite (reaches_icOffset hn (by decide) (basesOf_icComplete n hn)) (usesBar_proc hn),
    State.plainMgmt_icOffset hn (by decide), State.writeIc, hoff, if_neg (by decide), hfield]
  exact if_pos hcov

/-- The write of MH_IC_DB rings the doorbells that it names. -/
theorem State.hostOp1_icDoorbell (hn : n < 19) (hv : v < 2 ^ 8) (un : List (Nat × Nat × Nat)) :
    s.hostOp1 un (.reg ⟨.proc n, 0x10000000 + icOffset n 0x18, 4, v, []⟩) = s.icDoorbell n v := by
  have hoff : icOffset n 0x18 % 256 = 0x18 := by simp only [icOffset]; omega
  have hcov : covers ⟨.proc n, icOffset n 0x18, 4, v, []⟩ (icOffset n 0x18) 0 8 = true :=
    covers_of_word rfl rfl rfl (by decide)
  have hfield : wfld ⟨.proc n, icOffset n 0x18, 4, v, []⟩ (icOffset n 0x18) 0 8 = v := by
    rw [wfld_of_covers rfl (by decide) hcov, bitsOf, Nat.pow_zero, Nat.div_one, Nat.mod_eq_of_lt hv]
  rw [State.hostOp1_mgmtWrite (reaches_icOffset hn (by decide) (basesOf_icDoorbell n hn)) (usesBar_proc hn),
    State.plainMgmt_icOffset hn (by decide), State.writeIc, hoff, if_neg (by decide), hfield]
  exact if_pos hcov

end

/-! ### Claims, completions, doorbells and the sources of one processor -/

section
variable {s : State} {n k : Nat}

/-- The state with this bank of a processor. -/
def State.withBank (s : State) (n : Nat) (y : IcProc) : State :=
  { s with ic := { s.ic with procs := s.ic.procs.set n y } }

/-- Two changes of one bank are one. -/
theorem State.adjIcProc_adjIcProc (s : State) (n : Nat) (f g : IcProc → IcProc) :
    (s.adjIcProc n f).adjIcProc n g = s.adjIcProc n fun x => g (f x) := by
  by_cases hn : n < s.ic.procs.length
  · have hbank : (s.adjIcProc n f).icProc n = f (s.icProc n) := by
      simp only [State.icProc, State.adjIcProc, List.getD_eq_getElem?_getD, List.getElem?_set_self hn, Option.getD_some]
    have hset : (s.adjIcProc n f).adjIcProc n g =
        s.withBank n (g ((s.adjIcProc n f).icProc n)) := by
      simp only [State.adjIcProc, State.withBank, List.set_set]
    rw [hset, hbank]
    rfl
  · have hnone (t : State) (y : IcProc) (ht : t.ic.procs.length ≤ n) : t.withBank n y = t := by
      simp only [State.withBank, List.set_eq_of_length_le ht]
    have hlen := Nat.not_lt.1 hn
    have hsame (h : IcProc → IcProc) : s.adjIcProc n h = s := hnone s _ hlen
    rw [hsame, hsame, hsame]

/-- Sources of one processor that are raised in order set their PENDING bits in order. -/
theorem State.foldS_raisePrivate (l : List Nat) (s : State) : foldS l (fun s i => s.raisePrivate n (3 + i)) s =
    s.adjIcProc n fun x => { x with pending := l.foldl (fun v i => setBit v (3 + i)) x.pending } := by
  induction l generalizing s with
  | nil =>
    have hself : s.ic.procs.set n (s.icProc n) = s.ic.procs := by
      by_cases hn : n < s.ic.procs.length
      · have hbank : s.icProc n = s.ic.procs[n] := by simp only [State.icProc, List.getD_eq_getElem _ _ hn]
        rw [hbank, List.set_getElem_self]
      · exact List.set_eq_of_length_le (Nat.not_lt.1 hn)
    exact congrArg (fun l => { s with ic := { s.ic with procs := l } }) hself.symm
  | cons i l ih =>
    refine (ih (s.raisePrivate n (3 + i))).trans ?_
    rw [State.raisePrivate, State.adjIcProc_adjIcProc]
    rfl

/-- MH_IC_DB raises the doorbell of every bit of the mask. -/
theorem State.icDoorbell_eq (hn : n < 19) (m : Nat) : s.icDoorbell n m = s.adjIcProc n fun x =>
    { x with pending := (List.range 8).foldl (fun v i => if m / 2 ^ i % 2 = 1 then setBit v (3 + i) else v) x.pending } := by
  have hbit (v i : Nat) : (if bitOf m i = true then setBit v (3 + i) else v) = if m / 2 ^ i % 2 = 1 then setBit v (3 + i) else v :=
    if_congr beq_iff_eq rfl rfl
  rw [State.icDoorbell, if_pos hn, State.foldS_raisePrivate]
  simp only [List.foldl_filter, hbit]

/-- A timer whose COMPARE the FTC reaches in this tick fires (13 R391). -/
theorem State.icTimer_due {t c : Nat} (hn : n < 19) (ht : t < 2)
    (hc : c = if t = 0 then (s.icProc n).timer0 else (s.icProc n).timer1)
    (hset : c ≠ 0) (hdue : c ≤ s.ftc + 63) : s.icTimer n t = s.adjIcProc n fun x =>
      { (if t = 0 then { x with timer0 := 0 } else { x with timer1 := 0 } : IcProc) with
        pending := setBit (if t = 0 then { x with timer0 := 0 } else { x with timer1 := 0 } : IcProc).pending t } := by
  have hquiet : (decide (19 ≤ n) || decide (2 ≤ t) || c == 0 || decide (s.ftc + 63 < c)) = false := by
    simp only [Bool.or_eq_false_iff, decide_eq_false_iff_not, beq_eq_false_iff_ne]
    omega
  subst hc
  rw [State.icTimer, hquiet, if_neg Bool.false_ne_true, State.raisePrivate, State.adjIcProc_adjIcProc]

end

/-- Settles O44: claims, timers and warnings change one source or bank at once; completions and doorbells are
writes of one register of the processor's block. -/
theorem processorsTakeTheirInterrupts : Obligations.ProcessorsTakeTheirInterrupts := by
  unfold Obligations.ProcessorsTakeTheirInterrupts
  rintro s n k m un done ring bank hs hn rfl hdone hring with_
  have haddr (j : Nat) : 0x10000000 + icOffset n j = 0x100D0000 + j + 256 * n := by simp only [icOffset]; omega
  have hcomplete : done = ⟨.proc n, 0x10000000 + icOffset n 0x04, 4, k, []⟩ := by rw [hdone, haddr]
  have hdoorbell : ring = ⟨.proc n, 0x10000000 + icOffset n 0x18, 4, m, []⟩ := by rw [hring, haddr]
  refine ⟨fun hnone => ?unselected, fun hsel hk => ?ownBank, fun hsel hsrc hk => ?shared,
      fun hk => ⟨?queued, fun hact hlow => ?ends,
    fun hact hlow hsrc => ?endsShared, fun hact => ?err⟩, fun hm => ⟨?rings, ?rung⟩, fun hset hdue _ => ?timer0,
        fun hset hdue _ => ?timer1,
    fun hup => ?warn⟩
  case unselected =>
    refine State.after_live hs (f := fun s => s.icClaim n) ?_ rfl rfl rfl rfl
    simp only [State.icClaim, hnone]
  case ownBank =>
    refine State.after_live hs (f := fun s => s.icClaim n) ?_ rfl rfl rfl rfl
    simp only [State.icClaim, hsel, if_pos hk]
    rfl
  case shared =>
    refine State.after_live hs (f := fun s => s.icClaim n) ?_ rfl rfl rfl rfl
    simp only [State.icClaim, hsel, if_neg (Nat.not_lt.2 hk), State.adjSrc, if_pos hsrc]
    rfl
  case queued =>
    have hexec : exec (.icComplete n k) s = s.after fun s => s.mgmtWrite (.proc n) (icOffset n 0x04) 4
        (k % 2 ^ 16) := rfl
    rw [hexec, State.after_mgmtWrite (reaches_icOffset hn (by decide) (basesOf_icComplete n hn))
        (usesBar_proc hn) hs, Nat.mod_eq_of_lt hk,
      hcomplete]
  case ends =>
    rw [hcomplete, State.hostOp1_icComplete hn hk, State.icComplete, if_pos hact, if_pos hlow]
    rfl
  case endsShared =>
    rw [hcomplete, State.hostOp1_icComplete hn hk, State.icComplete, if_pos hact, if_neg (Nat.not_lt.2 hlow),
        State.adjSrc,
      if_pos hsrc]
  case err =>
    have hidle : ¬ s.icActive n k = true := by rw [hact]; exact Bool.false_ne_true
    rw [hcomplete, State.hostOp1_icComplete hn hk, State.icComplete, if_neg hidle]
    rfl
  case rings =>
    have hexec : exec (.icDoorbell n m) s = s.after fun s => s.mgmtWrite (.proc n) (icOffset n 0x18) 4
        (m % 2 ^ 8) := rfl
    rw [hexec, State.after_mgmtWrite (reaches_icOffset hn (by decide) (basesOf_icDoorbell n hn))
        (usesBar_proc hn) hs, Nat.mod_eq_of_lt hm,
      hdoorbell]
  case rung =>
    rw [hdoorbell, State.hostOp1_icDoorbell hn hm, State.icDoorbell_eq hn]
    rfl
  case timer0 =>
    exact State.after_live hs (f := fun s => s.icTimer n 0)
        (State.icTimer_due hn (by decide) rfl hset hdue) rfl rfl rfl rfl
  case timer1 =>
    exact State.after_live hs (f := fun s => s.icTimer n 1)
        (State.icTimer_due hn (by decide) rfl hset hdue) rfl rfl rfl rfl
  case warn =>
    exact State.after_live hs (f := fun s => s.wdtWarn n) (if_pos ⟨hn, hup⟩) rfl rfl rfl rfl

end Sys2Proof.Machine
end

section
/-! PROOFS. Boxwood (13 R376, R382-R387): who writes the patch store and the dispatch table, and how a transfer
joins its queue at the memory port. -/
namespace Sys2Proof.Machine

/-! ### The patch and dispatch registers -/

section
variable {s : State} {who : Agent} {un : List (Nat × Nat × Nat)} {v o : Nat}

theorem reaches_patchLock : BarWriteReaches 0xB0010 4 0xB0010 :=
  ⟨by decide, by decide, rfl, rfl, fun _ => mgmtOps_of_above (by decide)⟩
theorem reaches_patchAddr : BarWriteReaches 0xB0014 4 0xB0014 :=
  ⟨by decide, by decide, rfl, rfl, fun _ => mgmtOps_of_above (by decide)⟩
theorem reaches_patchData : BarWriteReaches 0xB0018 4 0xB0018 :=
  ⟨by decide, by decide, rfl, rfl, fun _ => mgmtOps_of_above (by decide)⟩
theorem reaches_dispatchEntry : BarWriteReaches 0xB001C 4 0xB001C :=
  ⟨by decide, by decide, rfl, rfl, fun _ => mgmtOps_of_above (by decide)⟩

/-- A field at bit 0 of a write that begins at its register. -/
theorem wfld_low {a : RegAcc} {b w : Nat} (ha : a.addr = b) (hw : 0 < w) (hc : covers a b 0 w = true) :
    wfld a b 0 w = a.data % 2 ^ w := by
  rw [wfld_of_covers ha hw hc, bitsOf, Nat.pow_zero, Nat.div_one]

theorem State.hostOp1_patchData (hwho : usesBar who) :
    s.hostOp1 un (.reg ⟨who, 0x100B0018, 4, v, []⟩) = s.patchDataWrite who (v % 2 ^ 32) := by
  have hfield : wfld ⟨who, 0xB0018, 4, v, []⟩ 0xB0018 0 32 = v % 2 ^ 32 := wfld_low rfl (by decide) rfl
  rw [← hfield]
  exact State.hostOp1_mgmtWrite reaches_patchData hwho un v

theorem State.hostOp1_patchAddr (hwho : usesBar who) :
    s.hostOp1 un (.reg ⟨who, 0x100B0014, 4, v, []⟩) = s.patchAddrWrite who (v % 2 ^ 11) := by
  have hfield : wfld ⟨who, 0xB0014, 4, v, []⟩ 0xB0014 0 11 = v % 2 ^ 11 := wfld_low rfl (by decide) rfl
  rw [← hfield]
  exact State.hostOp1_mgmtWrite reaches_patchAddr hwho un v

theorem State.hostOp1_dispatchEntry (hwho : usesBar who) :
    s.hostOp1 un (.reg ⟨who, 0x100B001C, 4, v, []⟩) = s.dispatchEntryWrite who (v % 2 ^ 24) := by
  have hfield : wfld ⟨who, 0xB001C, 4, v, []⟩ 0xB001C 0 24 = v % 2 ^ 24 := wfld_low rfl (by decide) rfl
  rw [← hfield]
  exact State.hostOp1_mgmtWrite reaches_dispatchEntry hwho un v

theorem State.hostOp1_patchLock (hwho : usesBar who) :
    s.hostOp1 un (.reg ⟨who, 0x100B0010, 4, v, []⟩) = if v % 2 = 1 then s.patchLock who else s := by
  have hset : sets ⟨who, 0xB0010, 4, v, []⟩ 0xB0010 0 = (v % 2 == 1) :=
    congrArg (· == 1) (wfld_low (a := ⟨who, 0xB0010, 4, v, []⟩) (w := 1) rfl (by decide) rfl)
  have hwrite : s.hostOp1 un (.reg ⟨who, 0x100B0010, 4, v, []⟩) =
      if sets ⟨who, 0xB0010, 4, v, []⟩ 0xB0010 0 then s.patchLock who else s :=
          State.hostOp1_mgmtWrite reaches_patchLock hwho un v
  rw [hwrite, hset]
  exact if_congr beq_iff_eq rfl rfl

/-! ### What they do: for SEC while LOCK is clear -/

theorem State.mayPatch_sec (hlock : s.bw.lock = false) : s.mayPatch (.proc 8) = true := by
  rw [State.mayPatch, hlock]
  rfl

theorem State.mayPatch_eq_false (h : who ≠ .proc 8 ∨ s.bw.lock = true) : s.mayPatch who = false := by
  rw [State.mayPatch]
  rcases h with h | h
  · rw [beq_false_of_ne h, Bool.false_and]
  · rw [h, Bool.not_true, Bool.and_false]

/-- Up to the fourth write the words are collected. -/
theorem State.patchDataWrite_collects (hmay : s.mayPatch who = true) (hlen : s.bw.parts.length < 4) (hv : v < 2 ^ 32) :
    s.patchDataWrite who v = s.adjBw fun b => { b with parts := s.bw.parts ++ [v] } := by
  have hroom : (s.bw.parts ++ [v]).length < 5 := by simp only [List.length_append, List.length_singleton]; omega
  simp only [State.patchDataWrite, hmay, Bool.not_true, Bool.false_eq_true, if_false, Nat.mod_eq_of_lt hv, if_pos hroom]

/-- The fifth writes the word at INDEX, where the patch offered has it there. -/
theorem State.patchDataWrite_fifth (hmay : s.mayPatch who = true) (hlen : s.bw.parts.length = 4) (hv : v < 2 ^ 32)
    (hdue : s.bw.wordDue s.bw.index (patchWord (s.bw.parts ++ [v])) = true) : s.patchDataWrite who v = s.adjBw fun b =>
      { b with parts := [], words := Tbl.set b.words b.index (patchWord (s.bw.parts ++ [v])),
               index := (b.index + 1) % 2 ^ 11 } := by
  have hfull : ¬ (s.bw.parts ++ [v]).length < 5 := by simp [hlen]
  simp only [State.patchDataWrite, hmay, Bool.not_true, Bool.false_eq_true, if_false, Nat.mod_eq_of_lt hv,
      if_neg hfull, hdue]

/-- The write of a dispatch entry, of which 24 bits count. -/
theorem State.dispatchEntryWrite_due (hmay : s.mayPatch who = true) {op e : Nat} (hop : op = v % 2 ^ 8)
    (he : e = v / 2 ^ 8 % 2 ^ 15 + 2 ^ 15 * (v / 2 ^ 23 % 2)) (hdue : s.bw.dispDue op e = true) :
    s.dispatchEntryWrite who (v % 2 ^ 24) = { s with dispTable := Tbl.set s.dispTable op e } := by
  have hcode : bitsOf (v % 2 ^ 24) 0 8 = op := by
    rw [bitsOf_mod_two_pow (by decide), hop, bitsOf, Nat.pow_zero, Nat.div_one]
  have hentry : bitsOf (v % 2 ^ 24) 8 15 + 2 ^ 15 * bitsOf (v % 2 ^ 24) 23 1 = e := by
    rw [bitsOf_mod_two_pow (by decide), bitsOf_mod_two_pow (by decide), he, bitsOf, bitsOf, Nat.pow_one]
  simp only [State.dispatchEntryWrite, hcode, hentry, hmay, hdue, Bool.and_self, if_true]

/-- LOCK is set where no patch is offered. -/
theorem State.patchLock_unoffered (hmay : s.mayPatch who = true) (hwords : s.bw.offerWords = [])
    (hdisp : s.bw.offerDisp = [])
    (hid : s.bw.patchId = 0) : s.patchLock who = s.adjBw fun b => { b with lock := true } := by
  have hwritten : s.patchWritten = true := by rw [State.patchWritten, hwords, hdisp]; rfl
  have hnone : (s.adjBw fun b => { b with lock := true }).bw.patchId = 0 := hid
  rw [State.patchLock, hmay, hwritten]
  exact if_pos hnone

/-- From any other writer, or under LOCK, none of them does anything. -/
theorem State.hostOp1_patch_refused (hwho : usesBar who) (hmay : s.mayPatch who = false)
    (ho : o ∈ [0xB0010, 0xB0014, 0xB0018, 0xB001C]) : s.hostOp1 un (.reg ⟨who, 0x10000000 + o, 4, v, []⟩) = s := by
  simp only [List.mem_cons, List.not_mem_nil, or_false] at ho
  rcases ho with rfl | rfl | rfl | rfl
  · have hlock : s.patchLock who = s := if_pos (by rw [hmay]; rfl)
    exact (State.hostOp1_patchLock hwho).trans (by rw [hlock, ite_self])
  · exact (State.hostOp1_patchAddr hwho).trans (if_neg (by rw [hmay]; exact Bool.false_ne_true))
  · exact (State.hostOp1_patchData hwho).trans (if_pos (by rw [hmay]; rfl))
  · exact (State.hostOp1_dispatchEntry hwho).trans (if_neg (by rw [hmay, Bool.false_and]; exact Bool.false_ne_true))

end

/-! ### Transfers (13 R385-R387) -/

section
variable {a : Arb} {k j n : Nat}

/-- A queue takes what waits for it, as far as it has room. -/
theorem Arb.queues_queueUp (hk : k < 8) :
    a.queueUp.queues.getD k [] = a.queues.getD k [] ++ (a.wait.getD k []).take (arbQueue - a.depth k) := by
  simp only [Arb.queueUp, List.getD_eq_getElem?_getD, List.getElem?_map, List.getElem?_range hk,
      Option.map_some, Option.getD_some]

theorem Arb.wait_queueUp (hk : k < 8) : a.queueUp.wait.getD k [] = (a.wait.getD k []).drop (arbQueue - a.depth k) := by
  simp only [Arb.queueUp, List.getD_eq_getElem?_getD, List.getElem?_map, List.getElem?_range hk,
      Option.map_some, Option.getD_some]

/-- An access of at most the most sectors of a transfer is one transfer. -/
theorem xfersOf_one (hn : 0 < n) (hmost : n ≤ arbMost k) : xfersOf k false none n = [{ sectors := n, moved := 0 }] := by
  have hcut : cutXfers (arbMost k) n = [n] := by
    rcases Nat.lt_or_eq_of_le hmost with hlt | rfl
    · have hrest : ¬ n % arbMost k = 0 := by rw [Nat.mod_eq_of_lt hlt]; omega
      rw [cutXfers, Nat.div_eq_of_lt hlt, if_neg hrest, Nat.mod_eq_of_lt hlt]
      rfl
    · rw [cutXfers, Nat.div_self hn, if_pos (Nat.mod_self _)]
      rfl
  rw [xfersOf, hcut]
  rfl

/-- The arbiter after a part has presented transfers at an input. -/
def Arb.presented (a : Arb) (k : Nat) (xs : List Xfer) : Arb :=
  { a with wait := a.wait.set k (a.wait.getD k [] ++ xs) }.queueUp

section
variable {xs : List Xfer}

/-- An input's queue after that. -/
theorem Arb.queues_presented (hj : j < 8) : (a.presented k xs).queues.getD j [] =
    a.queues.getD j [] ++ ((a.wait.set k (a.wait.getD k [] ++ xs)).getD j []).take (arbQueue - a.depth j) :=
        Arb.queues_queueUp hj

theorem Arb.wait_presented (hj : j < 8) : (a.presented k xs).wait.getD j [] =
    ((a.wait.set k (a.wait.getD k [] ++ xs)).getD j []).drop (arbQueue - a.depth j) := Arb.wait_queueUp hj

theorem Arb.wait_set_same (hk : k < a.wait.length) :
    (a.wait.set k (a.wait.getD k [] ++ xs)).getD k [] = a.wait.getD k [] ++ xs := by
  rw [List.getD_eq_getElem?_getD, List.getElem?_set_self hk, Option.getD_some]

theorem Arb.wait_set_other (hj : j ≠ k) : (a.wait.set k (a.wait.getD k [] ++ xs)).getD j [] = a.wait.getD j [] := by
  rw [List.getD_eq_getElem?_getD, List.getElem?_set_ne hj.symm, ← List.getD_eq_getElem?_getD]

end

theorem State.transferRequest_presents {s : State} {cyc : Nat} (hk : k < 8) (hn : 0 < n)
    (hmost : n ≤ arbMost k) (hcyc : cyc < 128) :
    s.transferRequest k cyc n =
      { s with arb := (s.arb.run (cyc - s.arb.cycle)).presented k [{ sectors := n, moved := 0 }] } := by
  have hin : ¬ (8 ≤ k ∨ n = 0 ∨ arbMost k < n ∨ Config.cyclesPerTick ≤ cyc) := by
    simp only [Config.cyclesPerTick]
    omega
  rw [State.transferRequest, if_neg hin, ← xfersOf_one hn hmost]
  rfl

end

/-- Settles O45: each register's write takes effect by the operation that it names, and a transfer joins the
queue of its input. -/
theorem onlySecWritesThePatchStore : Obligations.OnlySecWritesThePatchStore := by
  unfold Obligations.OnlySecWritesThePatchStore
  intro s v k cyc n who un hs queue
  refine ⟨fun hwho => ⟨?data, ?entry, ?lock⟩, ?_⟩
  case data => exact State.after_mgmtWrite reaches_patchData hwho hs _
  case entry => exact State.after_mgmtWrite reaches_dispatchEntry hwho hs _
  case lock => exact State.after_mgmtWrite reaches_patchLock hwho hs 1
  intro applied
  refine ⟨fun hsec hlock op e hop he => ?sec, fun hwho hshut o ho => ?refused, ?port⟩
  case sec =>
    subst hsec
    have hwho : usesBar (.proc 8) := usesBar_proc (by decide)
    have hmay := State.mayPatch_sec hlock
    have hv : v % 2 ^ 32 < 2 ^ 32 := Nat.mod_lt _ (by decide)
    refine ⟨fun hlen => ?collects, fun a b c d hparts hdue => ?fifth, fun hdue => ?entry,
        fun hwords hdisp hid => ?locks⟩
    case collects => exact (State.hostOp1_patchData hwho).trans (State.patchDataWrite_collects hmay hlen hv)
    case fifth =>
      have hword : s.bw.parts ++ [v % 2 ^ 32] = [a, b, c, d, v % 2 ^ 32] := by rw [hparts]; rfl
      rw [← hword] at hdue ⊢
      exact (State.hostOp1_patchData hwho).trans (State.patchDataWrite_fifth hmay (by rw [hparts]; rfl) hv hdue)
    case entry => exact (State.hostOp1_dispatchEntry hwho).trans (State.dispatchEntryWrite_due hmay hop he hdue)
    case locks =>
      exact (State.hostOp1_patchLock hwho).trans ((if_pos rfl).trans (State.patchLock_unoffered hmay hwords hdisp hid))
  case refused => exact State.hostOp1_patch_refused hwho (State.mayPatch_eq_false hshut) ho
  case port =>
    rintro hk hn hmost hcyc a y rfl rfl hqueues hwait
    have hsame := Arb.wait_set_same (xs := [{ sectors := n, moved := 0 }]) (hk.trans_eq hwait.symm)
    refine ⟨_, State.after_live hs (f := fun s => s.transferRequest k cyc n)
        (State.transferRequest_presents hk hn hmost hcyc)
      rfl rfl rfl rfl, rfl, fun hnone hroom => ?joins, fun hfull => ?waits, fun j hj hother hnone => ?others,
          rfl, rfl, rfl⟩
    case joins =>
      have hplace : 1 ≤ arbQueue - (s.arb.run (cyc - s.arb.cycle)).depth k := by simp only [arbQueue]; omega
      refine (Arb.queues_presented hk).trans ?_
      rw [hsame, hnone, List.nil_append, List.take_of_length_le hplace]
    case waits =>
      have hnoroom : arbQueue - (s.arb.run (cyc - s.arb.cycle)).depth k = 0 := Nat.sub_eq_zero_of_le hfull
      constructor
      · refine (Arb.queues_presented hk).trans ?_
        rw [hnoroom, List.take_zero, List.append_nil]
      · refine (Arb.wait_presented hk).trans ?_
        rw [hnoroom, List.drop_zero, hsame]
    case others =>
      refine (Arb.queues_presented hj).trans ?_
      rw [Arb.wait_set_other hother, hnone, List.take_nil, List.append_nil]

end Sys2Proof.Machine
end

section
/-! PROOFS. Tracing, the sampler and the debug port (15 R432, R436, R439; 01 R33). -/
namespace Sys2Proof.Machine

/-! ### Trace turns on and off (15 R436) -/

section
variable {s : State}

theorem State.traceStart_due (hst : s.trace.st = .armed) (hen : s.trace.enable = true)
    (hdue : s.trace.startTick ≤ s.tick + 1) :
    s.traceStart = s.adjTrace fun t => { t with turn := some true } := if_pos ⟨hst, hen, hdue⟩

theorem State.traceStop_due (hst : s.trace.st = .on) (hset : s.trace.stopTick ≠ 0)
    (hdue : s.trace.stopTick ≤ s.tick + 1) :
    s.traceStop = s.adjTrace fun t => { t with turn := some false } := if_pos ⟨.inl hst, hset, hdue⟩

theorem State.turnTrace_on (h : s.trace.turn = some true) : s.turnTrace = s.adjTrace fun t =>
    { t with turn := none, st := .on, records := 0, wrapped := false } := by simp only [State.turnTrace, h]

theorem State.turnTrace_off (h : s.trace.turn = some false) : s.turnTrace = s.adjTrace fun t =>
    { t with turn := none, st := .off } := by simp only [State.turnTrace, h]

/-! ### The sampler (15 R432) -/

/-- Without a slot in this tick no source sends or loses anything. -/
theorem State.trace1_off (h : s.trace.onTick = false) (m : TraceMsg) : s.trace1 m = s := by
  simp only [State.trace1, h, Bool.false_and, Bool.false_eq_true, if_false]

/-- A sample that is due is counted, and steps the LFSR, whether or not trace is on. -/
theorem State.pcSample_due (hticks : s.trace.sampleTicks ≠ 0) (hfirst : s.trace.sampleDone = false)
    (hst : s.stop.stopped = false)
    (hdue : s.tick % s.trace.sampleTicks = 0) :
        ∃ m, s.pcSample = (({ s with free := s.free + 1 } : State).trace1 m).adjTrace fun t =>
      { t with samples := t.samples + 1, lfsr := lfsrNext t.lfsr, sampleDone := true } := by
  have hnot : ¬ (s.trace.sampleTicks = 0 ∨ s.trace.sampleDone = true ∨ s.stop.stopped = true ∨
      s.tick % s.trace.sampleTicks ≠ 0) := by simp [hticks, hfirst, hst, hdue]
  exact ⟨_, if_neg hnot⟩

/-! ### MGMT_ACCESS of the debug port (15 R439) -/

variable {a : RegAcc} {o n b : Nat}

/-- The debug port reaches the management window alone, by offset. -/
theorem spaceOf_jtag (j : Nat) (ho : o < 2 ^ 28) : spaceOf ⟨.jtag, o, n, j, []⟩ = .mgmt o := if_pos ho

/-- A write of 4 or 8 bytes to one register queues what the PF's would; whether it is dropped is read off the
register. -/
theorem State.mgmtAccess_write (who : Agent) (j : Nat) (ho : o < 2 ^ 28) (hn : n = 4 ∨ n = 8)
    (hb : basesOf (.mgmt o) ⟨.jtag, o, n, j, []⟩ = [b]) (harr : atArrival b = false)
        (hops : ∀ a ok, mgmtOps a b ok = []) :
    s.mgmtAccess ⟨who, o, n, j, []⟩ true = { s with
      tapIr := 0x10, free := s.free + 1, readData := if mgmtDrops b then 2 ^ 64 else 0
      hostOps := s.hostOps ++ [.reg ⟨.jtag, o, n, j, []⟩] } := by
  have hbytes : (if n = 8 then 8 else 4) = n := by rcases hn with rfl | rfl <;> rfl
  have hshort : n ≤ 64 := by omega
  have hspace : spaceOf ⟨.jtag, o, n, j, []⟩ = .mgmt o := spaceOf_jtag j ho
  have hwrite (t : State) (ok : Bool) : t.regWrite ⟨.jtag, o, n, j, []⟩ s.boot.straps ok =
      { t with hostOps := t.hostOps ++ [.reg ⟨.jtag, o, n, j, []⟩] } := by
    rw [State.regWrite_mgmt_asks (a := ⟨.jtag, o, n, j, []⟩) hshort hspace hb harr, hops, List.append_nil]
  simp only [State.mgmtAccess, State.takeFree, Nat.mod_eq_of_lt ho, hbytes, hspace, hb, hwrite, if_true,
      List.all_cons, List.all_nil,
    Bool.and_true]

/-- A read is one of the debug port's own. -/
theorem State.mgmtAccess_read (who : Agent) (j : Nat) (ho : o < 2 ^ 28) (hn : n = 4 ∨ n = 8) :
    s.mgmtAccess ⟨who, o, n, j, []⟩ false = State.regRead { s with tapIr := 0x10 } ⟨.jtag, o, n, j, []⟩ := by
  have hbytes : (if n = 8 then 8 else 4) = n := by rcases hn with rfl | rfl <;> rfl
  simp only [State.mgmtAccess, Nat.mod_eq_of_lt ho, hbytes, Bool.false_eq_true, if_false]

/-- Its read of the low word of MH_FT_TIME latches the high word for it alone (01 R33). -/
theorem State.regRead_ftTime_jtag (hl : s.latches = []) (j : Nat) : s.regRead ⟨.jtag, 0x10000, 4, j, []⟩ = { s with
    readData := s.ftc % 2 ^ 32, latches := [(.jtag, 2 ^ 28 + 0x10004, s.ftc / 2 ^ 32 % 2 ^ 32)] } := by
  have hword : s.ftc % 2 ^ 64 / 2 ^ 32 % 2 ^ 32 = s.ftc / 2 ^ 32 % 2 ^ 32 := by omega
  rw [State.regRead_unlatched (x := .mgmt 0x10000) (n := 4)
      (spaceOf_jtag j (by decide)) rfl (State.latched_of_latches_nil hl) rfl rfl,
    State.bytesAt_ftTime, State.latchAt_lowWord (by decide) rfl rfl hl, State.regAt_ftTime, hword,
        State.clearFrom_ftTime]
  rfl

end

/-- Settles O55: by the equation of each event's operation; the debug port's accesses reach one register each. -/
theorem tracingStartsSamplesAndStops : Obligations.TracingStartsSamplesAndStops := by
  unfold Obligations.TracingStartsSamplesAndStops
  intro s j a hs
  refine ⟨fun hst hen hdue => ?start, fun hst hset hdue => ?stop, State.turnTrace_on, State.turnTrace_off,
    fun hticks hfirst hst hdue hoff => ?sample, fun ha hl => ?read, fun ha => ?mark, fun ha => ?dropped⟩
  case start => exact State.after_live hs (State.traceStart_due hst hen hdue) rfl rfl rfl rfl
  case stop => exact State.after_live hs (State.traceStop_due hst hset hdue) rfl rfl rfl rfl
  case sample =>
    obtain ⟨m, hm⟩ := State.pcSample_due hticks hfirst hst hdue
    refine State.after_live hs (f := fun s => s.pcSample) ?_ rfl rfl rfl rfl
    rw [hm, State.trace1_off (s := { s with free := s.free + 1 }) hoff]
    rfl
  case read =>
    subst ha
    refine State.after_live hs (f := fun s => s.mgmtAccess _ false) ?_ rfl rfl rfl rfl
    rw [State.mgmtAccess_read .pf j (by decide) (.inl rfl)]
    exact State.regRead_ftTime_jtag (s := { s with tapIr := 0x10 }) hl j
  case mark =>
    subst ha
    exact State.after_live hs (f := fun s => s.mgmtAccess _ true)
      (State.mgmtAccess_write .pf j (by decide) (.inr rfl)
          (b := 0xF0048) rfl rfl fun _ _ => mgmtOps_of_above (by decide)) rfl rfl rfl rfl
  case dropped =>
    subst ha
    exact State.after_live hs (f := fun s => s.mgmtAccess _ true)
      (State.mgmtAccess_write .pf j (by decide) (.inl rfl) (b := 0x30000) rfl rfl fun _ _ => rfl) rfl rfl rfl rfl

end Sys2Proof.Machine
end

section
/-! PROOFS. Waiting commands that go on (13 R379; 03 R97; 04 R113, R121; 05 R168, R169; 09 R275, R282): a
command in progress, a ROUTE that takes a unit, a DISPATCH or a node whose descriptor arrives, and a predicate
whose read returns. -/
namespace Sys2Proof.Machine

/-! ### Lists of commands of which one notes since when it waits for a sequencer -/

section
variable {w : Nat} {g : Work → Work} (hg : ∀ y, ∃ v, g y = { y with seqFrom := v })
include hg

/-- What does not look at that note is as before. -/
theorem eq_of_seqFrom_noted {β : Type} {F : Nat × Work → β} (hF : ∀ n y v, F (n, { y with seqFrom := v }) = F (n, y))
    (e : Nat × Work) : F (if e.1 = w then (e.1, g e.2) else e) = F e := by
  split
  case isTrue =>
    obtain ⟨v, hv⟩ := hg e.2
    rw [hv]
    exact hF e.1 e.2 v
  case isFalse => rfl

theorem map_adjust_seqFrom {β : Type} {F : Nat × Work → β} (hF : ∀ n y v, F (n, { y with seqFrom := v }) = F (n, y))
    (t : Tbl Work) : (Tbl.adjust t w g).map F = t.map F := by
  rw [Tbl.adjust, List.map_map]
  exact List.map_congr_left fun e _ => eq_of_seqFrom_noted hg hF e

theorem filter_adjust_seqFrom {P : Nat × Work → Bool} (hP : ∀ n y v, P (n, { y with seqFrom := v }) = P (n, y))
    (t : Tbl Work) :
    (Tbl.adjust t w g).filter P = Tbl.adjust (t.filter P) w g := by
  rw [Tbl.adjust, List.filter_map]
  exact congrArg (List.map _) (List.filter_congr fun e _ => eq_of_seqFrom_noted hg hP e)

end

/-- An order that a change of the members keeps. -/
theorem sortBy_map {α : Type} {le : α → α → Bool} {h : α → α} (hle : ∀ a b, le (h a) (h b) = le a b) (l : List α) :
    sortBy le (l.map h) = (sortBy le l).map h := by
  have hinsert (x : α) (l : List α) : sortBy.insertFront le (h x) (l.map h) = (sortBy.insertFront le x l).map h := by
    induction l with
    | nil => rfl
    | cons y ys ih =>
      simp only [List.map_cons, sortBy.insertFront, hle, ih]
      split
      · rfl
      · rfl
  induction l with
  | nil => rfl
  | cons x xs ih => simp only [List.map_cons, sortBy, ih, hinsert]

/-! ### A command that has a sequencer -/

/-- `u` is `s` where command `w` has a sequencer: but for the sequencers, and since when `w` waits for one,
nothing differs. -/
def State.sequenced (s u : State) (w : Nat) : Prop :=
  ∃ (n : Nat) (a : List Nat) (r : List (Nat × Nat × Nat × Nat)) (g : Work → Work),
      (∀ y, ∃ v, g y = { y with seqFrom := v }) ∧
    u = { s with free := n, accepted := a, ran := r, works := Tbl.adjust s.works w g }

section
variable {s u : State} {w : Nat} {x : Work}

theorem State.withSeqr_sequenced (hx : s.work? w = some x) (hgo : s.onSeqr w = true ∨ s.turn (s.backRank x) = true) :
    ∃ u, s.sequenced u w ∧ ∀ act, s.withSeqr w act = act u := by
  obtain ⟨n, a, r, g, hg, hseqr⟩ := State.withSeqr_goes hx hgo
  exact ⟨_, ⟨n, a, r, g, hg, rfl⟩, hseqr⟩

theorem State.sequenced.work? (h : s.sequenced u w) (hx : s.work? w = some x) :
    ∃ v, u.work? w = some { x with seqFrom := v } := by
  obtain ⟨n, a, r, g, hg, rfl⟩ := h
  obtain ⟨v, hv⟩ := hg x
  refine ⟨v, (Tbl.get?_adjust_same s.works w g).trans ?_⟩
  rw [← hv]
  exact congrArg (Option.map g) hx

theorem State.sequenced.keepsRest (h : s.sequenced u w) : s.keepsRest u w := by
  obtain ⟨n, a, r, g, -, rfl⟩ := h
  exact State.keepsRest_adjWork (t := { s with free := n, accepted := a, ran := r }) (s.keepsRest_refl w) g

theorem State.sequenced.around (h : s.sequenced u w) : u.aroundStart = s.aroundStart := by
  obtain ⟨n, a, r, g, -, rfl⟩ := h
  rfl

theorem State.sequenced.tick (h : s.sequenced u w) : u.tick = s.tick := by
  obtain ⟨n, a, r, g, -, rfl⟩ := h
  rfl

theorem State.sequenced.segUs (h : s.sequenced u w) (n : Nat) : u.segUs n = s.segUs n := by
  obtain ⟨m, a, r, g, -, rfl⟩ := h
  rfl

/-- Which ROUTE is the first that waits, and how many run, is as before. -/
theorem State.sequenced.routes (h : s.sequenced u w) : u.nextRoute = s.nextRoute ∧ u.unitsBusy = s.unitsBusy := by
  obtain ⟨n, a, r, g, hg, rfl⟩ := h
  constructor
  · have hkeys (t : Tbl Work) : ((Tbl.adjust t w g).head?).map (fun e => e.1) = (t.head?).map fun e => e.1 := by
      rw [← List.head?_map, ← List.head?_map, map_adjust_seqFrom hg fun _ _ _ => rfl]
    have hle (a b : Nat × Work) : lexLe [(if a.1 = w then (a.1, g a.2) else a).2.started,
        (if a.1 = w then (a.1, g a.2) else a).2.ringNo]
        [(if b.1 = w then (b.1, g b.2) else b).2.started, (if b.1 = w then (b.1, g b.2) else b).2.ringNo] =
        lexLe [a.2.started, a.2.ringNo] [b.2.started, b.2.ringNo] := by
      rw [eq_of_seqFrom_noted hg (F := fun e => e.2.started) (fun _ _ _ => rfl) a,
        eq_of_seqFrom_noted hg (F := fun e => e.2.ringNo) (fun _ _ _ => rfl) a,
        eq_of_seqFrom_noted hg (F := fun e => e.2.started) (fun _ _ _ => rfl) b,
        eq_of_seqFrom_noted hg (F := fun e => e.2.ringNo) (fun _ _ _ => rfl) b]
    rw [State.nextRoute, State.nextRoute, filter_adjust_seqFrom hg fun _ _ _ => rfl, Tbl.adjust, sortBy_map hle]
    exact hkeys _
  · rw [State.unitsBusy, State.unitsBusy, filter_adjust_seqFrom hg fun _ _ _ => rfl]
    exact List.length_map _

/-- What a GRAPH_PATCH decides by is as before. -/
theorem State.sequenced.adminOutcome (h : s.sequenced u w) (x : Work) : u.adminOutcome x = s.adminOutcome x := by
  obtain ⟨n, a, r, g, hg, rfl⟩ := h
  have haside :
      State.blocksAside { s with free := n, accepted := a, ran := r, works := Tbl.adjust s.works w g } = s.blocksAside :=
    congrArg sumNat (map_adjust_seqFrom hg (fun _ _ _ => rfl) s.works)
  have hroom (p : Nat) (e : Cmd) :
      State.chkPatchRoom { s with free := n, accepted := a, ran := r, works := Tbl.adjust s.works w g } p e =
        s.chkPatchRoom p e := by
    rw [State.chkPatchRoom, State.blocksChk, haside]
    rfl
  rw [State.adminOutcome, State.adminOutcome, hroom]

theorem State.sequenced.issueRead (h : s.sequenced u w) (ck k : Nat) (l : Loc) (n : Nat) :
    u.issueRead ck k l n = u.reading (s.issueRead ck k l n).out (s.issueRead ck k l n).arb := by
  obtain ⟨n, a, r, g, hg, rfl⟩ := h
  cases l with
  | host a => rfl
  | dev o a => rfl

theorem State.sequenced.reading (h : s.sequenced u w) (o : List Out) (a : Arb) :
    (s.reading o a).sequenced (u.reading o a) w := by
  obtain ⟨n, b, r, g, hg, rfl⟩ := h
  exact ⟨n, b, r, g, hg, rfl⟩

/-- Two reads of one place go out as they would from `s`. -/
theorem State.sequenced.issueRead_twice (h : s.sequenced u w) (ck k : Nat) (l : Loc) (n : Nat) {s2 : State}
    (hs2 : s2 = (s.issueRead ck k l n).issueRead ck k l n) :
    (u.issueRead ck k l n).issueRead ck k l n = u.reading s2.out s2.arb := by
  obtain ⟨o, a, hread⟩ := s.issueRead_eq ck k l n
  subst hs2
  rw [h.issueRead, hread]
  exact (h.reading o a).issueRead ck k l n

end

/-! ### A command that goes on to its next phase -/

section
variable {s u : State} {w : Nat} {x : Work} {f : State → State} {ph : Phase}

/-- A live command that gives its own command a phase, and at most counts a failed access, changes nothing else. -/
theorem State.goes_phase (hs : s.live) (hrest : s.keepsRest u w) (haround : u.aroundStart = s.aroundStart)
    (hw : (u.work? w).isSome = true) (fl : Faults) (hf : f s = ({ u with flt := fl } : State).phase w ph) :
    GoesTo (s.after f) fun t => (t.work? w).map (fun y => y.phase) = some ph ∧ s.keepsRest t w ∧
      t.aroundStart = { s.aroundStart with flt := t.flt } := by
  obtain ⟨hmem, hst, hcl, hq⟩ := State.frame_of_aroundStart haround
  exact ⟨_, State.after_live hs hf hst hcl hmem hq, State.phase_of_phase hw,
    State.keepsRest_adjWork (t := { u with flt := fl }) hrest _, congrArg (fun r => { r with flt := fl }) haround⟩

/-- An admin command in progress goes on to its decision (03 R97). -/
theorem State.resume_admin {since : Nat} (hstop : s.stop.stopped = false) (hx : s.work? w = some x)
    (hph : x.phase = .io .admin since) (hsince : since ≤ s.tick) (hcore : s.adminWaits x.part = false) (io : Io) :
    s.resume w io none = s.withSeqr w fun s => s.decideEnd w (s.adminOutcome x) := by
  have hdue : ¬ (s.tick < since ∨ (IoKind.admin = .groups ∧ x.mmNone io = true) ∨
      (isAdmin (opcodeOf x.cmd) = true ∧ s.adminWaits x.part = true)) := by
    rw [hcore]
    simp [hsince]
  simp only [State.resume, hx, hstop, Bool.false_eq_true, if_false, hph]
  exact if_neg hdue

/-- The first ROUTE that waits takes a free unit, which reads its scores twice (09 R282). -/
theorem State.grantRoute_takes (hx : s.work? w = some x) (hfirst : s.nextRoute = some w) (hfree : s.unitsBusy < 4)
    (habort : x.abort = none) {n : Nat}
    (hn : n = roTok x.cmd * roExp x.cmd * (if roBf16 x.cmd then 2 else 4)) :
    s.grantRoute w =
      ((s.issueRead x.ck 6 (x.locs.getD 0 (.dev 0 0)) n).issueRead x.ck 6 (x.locs.getD 0 (.dev 0 0)) n).phase w
          (.unitRun s.tick) := by
  have hmay : ¬ (s.nextRoute ≠ some w ∨ Config.routeUnits ≤ s.unitsBusy ∨ x.abort.isSome = true) := by
    rw [hfirst, habort]
    simp [Config.routeUnits, hfree]
  subst hn
  simp only [State.grantRoute, hx, if_neg hmay]

/-! ### Descriptors (04 R121; 05 R168) -/

/-- The descriptor of a DISPATCH that stands on a ring arrives. -/
theorem State.descriptorArrives_dispatch (hstop : s.stop.stopped = false) (hx : s.work? w = some x)
    (hph : x.phase = .descriptor)
    (l i : Nat) (io : Io) : s.descriptorArrives l i w io = s.withSeqr w fun s => match io with
      | .fail why a => (s.noteFail why).decideEnd w (ioRes why a)
      | .ok _ => s.descriptorSeen w (s.readByte (s.locAddr (x.locs.headD (.dev 0 0)))).toNat := by
  have hwaits : ¬ (x.phase ≠ .descriptor ∨ s.stop.stopped = true) := by simp [hph, hstop]
  simp only [State.descriptorArrives, hx, if_pos hph, State.descriptorRead, if_neg hwaits] <;> rfl

/-- One of another engine ends the command. -/
theorem State.descriptorSeen_other {engine : Nat} (hx : s.work? w = some x) (hother : engine ≠ tgtEngine x.cmd) :
    s.descriptorSeen w engine = s.decideEnd w (mal 0x0203) := by
  simp only [State.descriptorSeen, hx, if_pos hother]

section
variable {l i en o : Nat} {rd : Option Nat} {y : Launch} {kern : Kern} (hstop : s.stop.stopped = false)
    (hx : s.work? w = some x)
  (hph : x.phase ≠ .descriptor) (hy : s.launch? l = some y)
      (hnode : y.nodes.getD i .outside = .waiting en rd .reading kern)
include hstop hx hph hy hnode

/-- The descriptor of a node that waits for its release arrives. -/
theorem State.descriptorArrives_node (hpin : kern.pin = some o) (host : List Word) :
    s.descriptorArrives l i w (.ok host) =
    s.adjLaunch l fun z => { z with nodes := z.nodes.set i (.waiting en rd
      (.here (s.readByte (s.locAddr (.dev o (mrefOff (s.effBody y i) 40)))).toNat) kern) } := by
  simp only [State.descriptorArrives, hx, if_neg hph, State.nodeDescriptor, hy, hnode, hstop,
      Bool.false_eq_true, if_false,
    State.noteIo, hpin, Option.getD_some]

theorem State.descriptorArrives_node_fails (why : IoFail) (a : Nat) : s.descriptorArrives l i w (.fail why a) =
    (s.noteFail why).adjLaunch l fun z => { z with nodes := z.nodes.set i (.waiting en rd (.failed (ioRes why a)) kern) } := by
  simp only [State.descriptorArrives, hx, if_neg hph, State.nodeDescriptor, hy, hnode, hstop,
      Bool.false_eq_true, if_false,
    State.noteIo]

end

/-! ### Predicates (04 R113) -/

theorem State.predicateRead_ok (hx : s.work? w = some x) (hph : x.phase = .predRead) (habort : x.abort = none)
    (host : List Word) :
    s.predicateRead w (.ok host) = s.phase w (.predVal (if (x.locs.headD (.dev 0 0)).isHost then host.headD 0
      else BitVec.ofNat 64 (leNat (s.readLoc (x.locs.headD (.dev 0 0)) 8))) (s.tick + 1)) := by
  simp only [State.predicateRead, State.predReturn, hx, hph, habort, Option.isNone_none, Option.isSome_none,
      and_self, if_true,
    Bool.false_eq_true, if_false]

theorem State.predicateRead_fail (hx : s.work? w = some x) (hph : x.phase = .predRead)
    (habort : x.abort = none) (why : IoFail)
    (a : Nat) : s.predicateRead w (.fail why a) = s.withSeqr w fun s => (s.noteFail why).predReturn w
        (.fail why a) := by
  simp only [State.predicateRead, hx, hph, habort, Option.isNone_none, and_self, if_true]
  rfl

theorem State.predReturn_fail (hx : s.work? w = some x) (hph : x.phase = .predRead) (habort : x.abort = none)
    (why : IoFail) (a : Nat) :
    s.predReturn w (.fail why a) = s.decideEnd w (ioRes why a) := by
  simp only [State.predReturn, hx, hph, habort, Option.isSome_none, Bool.false_eq_true, if_false]

end

/-- Settles O23: a command that goes on does so in a state that differs by its sequencer alone, and then by what
its own event does. -/
theorem waitingCommandsGoOn : Obligations.WaitingCommandsGoOn := by
  unfold Obligations.WaitingCommandsGoOn
  intro s w l i x io host hs hstop hx goesOn phaseIs
  have hrunning (f : State → State) : s.unlessStopped f = f s := if_neg (by rw [hstop]; exact Bool.false_ne_true)
  refine ⟨fun since hph hsince hcore hgo => ?admin, fun since hph hsince hcore hoff hturn => ?waits,
    fun hfirst hfree habort hgo => ?route, fun hph hgo hown => ?descriptor,
        fun y en rd kern o hy hnode hph hpin => ?node,
    fun hph hgo => ?ends, fun hph habort => ⟨fun hgo why a => ?fails, ?value⟩⟩
  case admin =>
    obtain ⟨u, hu, hseqr⟩ := State.withSeqr_sequenced hx hgo
    obtain ⟨v, hw⟩ := hu.work? hx
    refine State.goes_phase hs hu.keepsRest hu.around (Option.isSome_of_eq_some hw) u.flt ?_
    rw [State.resume_admin hstop hx hph hsince hcore, hseqr, State.decideEnd, hu.adminOutcome, hu.tick]
    rfl
  case waits =>
    refine State.after_live hs (f := fun s => s.resume w io none) ?_ rfl rfl rfl rfl
    rw [State.resume_admin hstop hx hph hsince hcore, State.withSeqr_waits hx hoff hturn]
    rfl
  case route =>
    obtain ⟨u, hu, hseqr⟩ := State.withSeqr_sequenced hx hgo
    obtain ⟨v, hw⟩ := hu.work? hx
    obtain ⟨hnext, hbusy⟩ := hu.routes
    obtain ⟨hmem, hst, hcl, hq⟩ := State.frame_of_aroundStart hu.around
    obtain ⟨hworks, -, -⟩ := hu.keepsRest
    have hgrant : s.unlessStopped (fun s => s.withSeqr w fun s => s.grantRoute w) = _ :=
      (hrunning _).trans ((hseqr _).trans (State.grantRoute_takes hw (hnext ▸ hfirst) (hbusy ▸ hfree) habort rfl))
    rw [hu.issueRead_twice _ _ _ _ rfl, hu.tick] at hgrant
    exact ⟨_, State.after_live hs hgrant hst hcl hmem hq, State.phase_of_phase (Option.isSome_of_eq_some hw),
        ⟨rfl, rfl⟩,
      State.keepsWorks_adjWork (State.keepsWorks_reading hworks _ _) _, hu.around⟩
  case descriptor =>
    obtain ⟨u, hu, hseqr⟩ := State.withSeqr_sequenced hx hgo
    obtain ⟨v, hw⟩ := hu.work? hx
    have hseen : s.descriptorArrives l i w (.ok host) = u.descriptorSeen w (tgtEngine x.cmd) := by
      rw [State.descriptorArrives_dispatch hstop hx hph, hseqr]
      simp only [State.locAddr_of_aroundStart hu.around, State.readByte_of_aroundStart hu.around, hown]
      rfl
    have hgoes {t : State} (ht : u.descriptorSeen w (tgtEngine x.cmd) = t) (haround : t.aroundStart = u.aroundStart) :
        exec (.descriptorArrival l i w (.ok host)) s = .next t :=
      State.after_starts hs (f := fun s => s.descriptorArrives l i w (.ok host)) (hseen.trans ht)
          (haround.trans hu.around)
    cases hper : persistOf x.cmd with
    | true =>
      have hphase := State.phase_of_decideEnd (res := Res.ok) (Option.isSome_of_eq_some hw)
      rw [hu.tick] at hphase
      exact ⟨_, hgoes (State.descriptorSeen_persist (x := { x with seqFrom := v }) hw hper) rfl,
          State.keepsRest_adjWork hu.keepsRest _, hu.around, fun _ => hphase,
        nofun⟩
    | false =>
      refine ⟨_, hgoes (State.descriptorSeen_runs (x := { x with seqFrom := v }) hw hper) rfl,
          State.keepsRest_adjWork hu.keepsRest _, hu.around, nofun,
        fun _ => ⟨v, (State.work?_adjWork_of hw).trans ?_⟩⟩
      simp only [hu.segUs, hu.tick]
  case node =>
    refine ⟨?_, fun why a => ?_⟩
    · exact ⟨_, State.after_live hs (f := fun s => s.descriptorArrives l i w (.ok host))
        (State.descriptorArrives_node hstop hx hph hy hnode hpin host) rfl rfl rfl rfl, rfl⟩
    · obtain ⟨fl, hfl⟩ := s.noteStatus_eq (ioStatus why) (ioDetail why)
      have hfails := State.descriptorArrives_node_fails hstop hx hph hy hnode why a
      rw [State.noteFail, hfl] at hfails
      exact ⟨_, State.after_live hs (f := fun s => s.descriptorArrives l i w (.fail why a)) hfails rfl rfl rfl rfl, rfl⟩
  case ends =>
    obtain ⟨u, hu, hseqr⟩ := State.withSeqr_sequenced hx hgo
    obtain ⟨v, hw⟩ := hu.work? hx
    refine ⟨fun why a => ?_, fun hother => ?_⟩
    · obtain ⟨fl, hfl⟩ := u.noteStatus_eq (ioStatus why) (ioDetail why)
      refine State.goes_phase hs hu.keepsRest hu.around (Option.isSome_of_eq_some hw) fl ?_
      rw [State.descriptorArrives_dispatch hstop hx hph, hseqr]
      simp only [State.noteFail, hfl]
      rw [← hu.tick]
      rfl
    · refine State.goes_phase hs hu.keepsRest hu.around (Option.isSome_of_eq_some hw) u.flt ?_
      rw [State.descriptorArrives_dispatch hstop hx hph, hseqr]
      simp only [State.locAddr_of_aroundStart hu.around, State.readByte_of_aroundStart hu.around]
      rw [State.descriptorSeen_other hw hother, ← hu.tick]
      rfl
  case fails =>
    obtain ⟨u, hu, hseqr⟩ := State.withSeqr_sequenced hx hgo
    obtain ⟨v, hw⟩ := hu.work? hx
    obtain ⟨fl, hfl⟩ := u.noteStatus_eq (ioStatus why) (ioDetail why)
    refine State.goes_phase hs hu.keepsRest hu.around (Option.isSome_of_eq_some hw) fl ?_
    rw [hrunning, State.predicateRead_fail hx hph habort, hseqr, State.noteFail, hfl,
      State.predReturn_fail (s := { u with flt := fl }) hw hph habort, ← hu.tick]
    rfl
  case value =>
    refine State.goes_phase hs (s.keepsRest_refl w) rfl (Option.isSome_of_eq_some hx) s.flt ?_
    rw [hrunning, State.predicateRead_ok hx hph habort]

end Sys2Proof.Machine
end
